-- ==== Sys2Proof/Word.lean ====
section
/-! DEFINITION. Machine words of the Nyhefel WG1024 and the sparse map that holds addressed state. -/

namespace Sys2Proof

/-- A register value or a memory word of 64 bits (R6). -/
abbrev W64 := BitVec 64

/-- A byte. -/
abbrev Byte := BitVec 8

/-- An instruction word (R274). -/
abbrev W128 := BitVec 128

/-- A tensor descriptor (R271). -/
abbrev Desc := BitVec 256

/-- One FP32 element as stored bits (R40). -/
abbrev F32 := BitVec 32

/-- Data listed by key: keys strictly rising, and no entry equal to what an unlisted key reads as
(`SMap.wf` in Machine/SMap.lean). -/
abbrev SMap (α : Type) := List (Nat × α)

end Sys2Proof
end

