-- ==== Sys2Proof/Syntax.lean ====
section
/-! DEFINITION. The commands of the module (one per row of the table of operations and events) and their operands. -/

namespace Sys2Proof

/-- A physical cell d.s: slot `slot` of compute die `die` (R13). -/
structure CellId where
  die  : Fin 16
  slot : Fin 66
  deriving DecidableEq, Repr

/-- A context that runs a program: a cell's sequencer, or partition `p` on the Zenith unit of die `d` (R259). -/
inductive Ctx where
  | cell (c : CellId)
  | zen (d : Fin 16) (p : Fin 64)
  deriving DecidableEq, Repr

/-- PNEG and PSEL of the instruction header (R274, R265). -/
structure Pred where
  pneg : Bool
  psel : Fin 8
  deriving DecidableEq, Repr

/-- Format S (ctl, scal): the 112-bit operand area (R276). -/
structure FmtS where
  rd   : Fin 32
  ra   : Fin 32
  rb   : Fin 32
  pd   : Fin 8
  pa   : Fin 8
  bar  : Fin 64
  bare : Bool
  fmt  : Fin 64
  dn   : Fin 16
  rsv  : BitVec 10
  imm  : W64
  deriving DecidableEq, Repr

/-- Format M (mov) (R276). -/
structure FmtM where
  dd   : Fin 16
  ds   : Fin 16
  ra   : Fin 32
  rb   : Fin 32
  rd   : Fin 32
  pd   : Fin 8
  bar  : Fin 64
  bare : Bool
  rsv  : BitVec 15
  imm  : W64
  deriving DecidableEq, Repr

/-- Format A (dusk, dawn) (R277). -/
structure FmtA where
  da    : Fin 16
  db    : Fin 16
  slotA : BitVec 15
  slotB : BitVec 15
  mode  : BitVec 24
  rsv   : BitVec 50
  deriving DecidableEq, Repr

/-- Format V (vec, row, zen) (R277). -/
structure FmtV where
  td    : Fin 8
  ta    : Fin 8
  bsrc  : Fin 4
  bidx  : Fin 32
  csrc  : Fin 4
  cidx  : Fin 32
  ds    : Fin 16
  dt    : Fin 16
  du    : Fin 16
  bank  : Fin 4
  form  : Fin 4
  rel   : Bool
  tx    : Fin 8
  fmt   : Fin 64
  cmp   : Fin 4
  sbase : Fin 8192
  tag   : Fin 4
  rs    : Fin 32
  pd    : Fin 8
  strm  : Fin 8
  rsv   : BitVec 38
  deriving DecidableEq, Repr

/-- Format K (coll, chk) (R277). -/
structure FmtK where
  ds   : Fin 16
  dd   : Fin 16
  ent  : Fin 65536
  strm : Fin 16
  grad : Bool
  ra   : Fin 32
  rd   : Fin 32
  bar  : Fin 64
  bare : Bool
  rsv  : BitVec 2
  imm  : W64
  deriving DecidableEq, Repr

/-- The units that take instructions from a queue (R259, R291). -/
inductive UnitId where
  | mov | dusk | dawn | vec | row | coll | chk | zen
  deriving DecidableEq, Repr

/-- The two arrays of a cell. -/
inductive Arr where
  | dusk | dawn
  deriving DecidableEq, Repr

/-- Who makes a CSR access: a session of a partition, the management plane or a cell's own program (R417, R426). -/
inductive Plane where
  | session (p : Fin 64)
  | mgmt
  | cell (c : CellId)
  deriving DecidableEq, Repr

/-- Sub-port k of port 8h + q (R366). -/
structure SubPort where
  h : Fin 4
  q : Fin 8
  k : Fin 4
  deriving DecidableEq, Repr

/-- A Span port: port p of a compute die or of a Horizon die (R358). -/
inductive SpanPort where
  | die (d : Fin 16) (p : Fin 4)
  | hzn (h : Fin 4) (p : Fin 4)
  deriving DecidableEq, Repr

/-- An IPv4 address (bits [31:0] of `lo`) or an IPv6 address. -/
structure IpAddr where
  v6 : Bool
  hi : W64
  lo : W64
  deriving DecidableEq, Repr

/-- A flit: the 8-byte header and 64 bytes of payload (R360). -/
structure Flit where
  hdr     : W64
  payload : List Byte
  deriving DecidableEq, Repr

/-- What a stack controller finds in a line (R355): nothing, an error within one pin of a physical channel, or
anything else. -/
inductive LineFinding where
  | clean
  | onePin
  | uncorrectable
  deriving DecidableEq, Repr

/-- Why a sub-port discards a frame (R366-R369, R379, R459): for another MAC, with a bad FCS, hit by FEC codewords that were not
corrected (how many), an IP fragment, with IP options or extension headers, a PAUSE or PFC frame, with a bad UDP checksum, before
READY, with a second VLAN tag, with a VLAN identifier, to a UDP port, or with a bad ICRC. -/
inductive DropCause where
  | otherMac | badFcs | fecError (words : Nat) | fragment | ipOptions | pauseFrame | badUdpChecksum | notReady | vlan
  | vlanId (vid : Nat) | udpPort (port : Nat) | badIcrc
  deriving DecidableEq, Repr

/-- The verdict record of a member (R245). -/
structure VerdictRec where
  verdict : W64
  step    : Nat
  group   : Nat
  nsq     : Nat
  inf     : Bool
  nan     : Bool
  mcount  : Nat
  appMin  : Nat
  appMax  : Nat
  sent    : List Nat
  recv    : List Nat
  deriving DecidableEq, Repr

/-- The header of an accepted ASTP frame, or of the frames of one message (R371): the first SEQ and the number of
frames, the address it came from and the sub-port it came in on, LEN of each frame, and the payload bytes that R375 shows as 0, as one
number. -/
structure AstpHdr where
  sub     : SubPort
  src     : IpAddr
  srcPort : Nat
  session : Nat
  part    : Fin 64
  seq     : Nat
  frames  : Nat
  ackSeq  : Nat
  limit   : Nat
  msgid   : BitVec 16
  srcMod  : BitVec 32
  lens    : List Nat
  mbz     : Nat
  deriving DecidableEq, Repr

/-- A frame of a session that is not open, and whether its TYPE is RESP (R372). -/
structure StrayFrame where
  hdr    : AstpHdr
  isResp : Bool
  deriving DecidableEq, Repr

/-- The payload of a LAUNCH message (R375, R279). -/
structure LaunchMsg where
  first    : BitVec 16
  count    : BitVec 16
  pc       : W64
  pcstride : W64
  arg      : W64
  deriving DecidableEq, Repr

/-- A request message of a session, for the messages of one message time (R375, R423). -/
inductive AstpReq where
  | csrRd (h : AstpHdr) (addr : BitVec 32) (count : Nat)
  | csrWr (h : AstpHdr) (addr : BitVec 32) (vals : List W64)
  | write (h : AstpHdr) (addr : W64) (data : List Byte)
  | peek (h : AstpHdr) (addr : W64) (bytes : Nat)
  | take (h : AstpHdr) (addr : W64) (bytes : Nat)
  | launch (h : AstpHdr) (l : LaunchMsg)
  | bind (h : AstpHdr) (entry : BitVec 16) (words : List W64)
  | close (h : AstpHdr)
  deriving DecidableEq, Repr

/-- A TENSOR frame: the tensor subheader and the payload (R377). -/
structure TensorFrame where
  ent    : Fin 65536
  kind   : Byte
  fmt    : Byte
  grp    : Byte
  strm   : Byte
  step   : BitVec 48
  frames : Nat
  fidx   : Nat
  offset : Nat
  total  : Nat
  stotal : Nat
  data   : List Byte
  deriving DecidableEq, Repr

/-- A received Announce: where it came in, the dataset that the best master clock algorithm compares with the port identity of its
sender (R391), and the UTC offset in seconds that it brings (R443). -/
structure Announce where
  sub       : SubPort
  domain    : Byte
  transport : Fin 4
  priority1 : Nat
  clockClass : Nat
  accuracy  : Nat
  variance  : Nat
  priority2 : Nat
  gmId      : W64
  steps     : Nat
  sender    : W64
  senderPort : Nat
  utc       : Int
  deriving DecidableEq, Repr

/-- What the power manager measures in one 10 µs sample (R453): input power in mW, the currents of both blade pairs
in mA, the input voltage in mV, and the hottest junction in tenths of a degree Celsius. -/
structure PowerMeas where
  mw  : Nat
  maA : Nat
  maB : Nat
  mv  : Nat
  tj  : Nat
  deriving DecidableEq, Repr

/-- A firmware image as the checks of R472 see it: its header of 256 bytes (R471), whether the signature verifies under the fused key
and whether SHA-256 of the body equals BODY_HASH. -/
structure FwImage where
  header : List Byte
  sigOk  : Bool
  hashOk : Bool
  deriving DecidableEq, Repr


/-- The commands of the block: one constructor per row of the table of operations and events. -/
inductive Instr where
  /-- CTL_NOP (R289). The ctl.nop instruction issues and does nothing for one cc. -/
  | ctlNop (c : Ctx) (p : Pred) (f : FmtS)
  /-- CTL_BR (R289). The ctl.br instruction sets the PC to the instruction address plus 16 times the immediate. -/
  | ctlBr (c : Ctx) (p : Pred) (f : FmtS)
  /-- CTL_CALL (R289). The ctl.call instruction writes the return address to RD and then branches like ctl.br. -/
  | ctlCall (c : Ctx) (p : Pred) (f : FmtS)
  /-- CTL_JR (R289). The ctl.jr instruction sets the PC from bits [47:0] of a scalar register. -/
  | ctlJr (c : Ctx) (p : Pred) (f : FmtS)
  /-- CTL_FENCE (R291). The ctl.fence instruction waits at issue until every earlier instruction of the named units has retired. -/
  | ctlFence (c : Ctx) (p : Pred) (f : FmtS)
  /-- CTL_ARRIVE (R284). The ctl.arrive instruction advances a barrier counter once every earlier instruction of its cell has retired. -/
  | ctlArrive (c : Ctx) (p : Pred) (f : FmtS)
  /-- CTL_WBAR (R285). The ctl.wbar instruction puts the cell into WAIT_BAR until the barrier counter reaches the count in a register. -/
  | ctlWbar (c : Ctx) (p : Pred) (f : FmtS)
  /-- CTL_WTIME (R286). The ctl.wtime instruction puts the cell into WAIT_TIME until its Meridian counter reaches the named time. -/
  | ctlWtime (c : Ctx) (p : Pred) (f : FmtS)
  /-- CTL_HALT (R281). The ctl.halt instruction stops issue and puts the cell into HALTING. -/
  | ctlHalt (c : Ctx) (p : Pred) (f : FmtS)
  /-- SCAL_LI (R293). The scal.li instruction loads the immediate into RD. -/
  | scalLi (c : Ctx) (p : Pred) (f : FmtS)
  /-- SCAL_ADD (R293). The scal.add instruction adds operand b to a scalar register, modulo 2^64. -/
  | scalAdd (c : Ctx) (p : Pred) (f : FmtS)
  /-- SCAL_SUB (R293). The scal.sub instruction subtracts operand b from a scalar register, modulo 2^64. -/
  | scalSub (c : Ctx) (p : Pred) (f : FmtS)
  /-- SCAL_MUL (R293). The scal.mul instruction writes the low 64 bits of a product to RD. -/
  | scalMul (c : Ctx) (p : Pred) (f : FmtS)
  /-- SCAL_AND (R293). The scal.and instruction writes a bitwise and to RD. -/
  | scalAnd (c : Ctx) (p : Pred) (f : FmtS)
  /-- SCAL_OR (R293). The scal.or instruction writes a bitwise or to RD. -/
  | scalOr (c : Ctx) (p : Pred) (f : FmtS)
  /-- SCAL_XOR (R293). The scal.xor instruction writes a bitwise exclusive or to RD. -/
  | scalXor (c : Ctx) (p : Pred) (f : FmtS)
  /-- SCAL_SHL (R293). The scal.shl instruction shifts left by b mod 64. -/
  | scalShl (c : Ctx) (p : Pred) (f : FmtS)
  /-- SCAL_SHR (R293). The scal.shr instruction shifts right logically by b mod 64. -/
  | scalShr (c : Ctx) (p : Pred) (f : FmtS)
  /-- SCAL_SRA (R293). The scal.sra instruction shifts right arithmetically by b mod 64. -/
  | scalSra (c : Ctx) (p : Pred) (f : FmtS)
  /-- SCAL_MIN (R293). The scal.min instruction writes the signed minimum to RD. -/
  | scalMin (c : Ctx) (p : Pred) (f : FmtS)
  /-- SCAL_MAX (R293). The scal.max instruction writes the signed maximum to RD. -/
  | scalMax (c : Ctx) (p : Pred) (f : FmtS)
  /-- SCAL_CMP_EQ (R293). The scal.cmp.eq instruction sets a predicate from a signed equality test. -/
  | scalCmpEq (c : Ctx) (p : Pred) (f : FmtS)
  /-- SCAL_CMP_NE (R293). The scal.cmp.ne instruction sets a predicate from a signed inequality test. -/
  | scalCmpNe (c : Ctx) (p : Pred) (f : FmtS)
  /-- SCAL_CMP_LT (R293). The scal.cmp.lt instruction sets a predicate from a signed less-than test. -/
  | scalCmpLt (c : Ctx) (p : Pred) (f : FmtS)
  /-- SCAL_CMP_LE (R293). The scal.cmp.le instruction sets a predicate from a signed less-or-equal test. -/
  | scalCmpLe (c : Ctx) (p : Pred) (f : FmtS)
  /-- SCAL_CMP_LTU (R293). The scal.cmp.ltu instruction sets a predicate from an unsigned less-than test. -/
  | scalCmpLtu (c : Ctx) (p : Pred) (f : FmtS)
  /-- SCAL_CMP_LEU (R293). The scal.cmp.leu instruction sets a predicate from an unsigned less-or-equal test. -/
  | scalCmpLeu (c : Ctx) (p : Pred) (f : FmtS)
  /-- SCAL_PMOV (R293). The scal.pmov instruction copies one predicate into another. -/
  | scalPmov (c : Ctx) (p : Pred) (f : FmtS)
  /-- SCAL_PNOT (R293). The scal.pnot instruction writes the negation of a predicate. -/
  | scalPnot (c : Ctx) (p : Pred) (f : FmtS)
  /-- SCAL_PAND (R293). The scal.pand instruction writes the and of two predicates. -/
  | scalPand (c : Ctx) (p : Pred) (f : FmtS)
  /-- SCAL_POR (R293). The scal.por instruction writes the or of two predicates. -/
  | scalPor (c : Ctx) (p : Pred) (f : FmtS)
  /-- SCAL_DGET (R295). The scal.dget instruction reads a selected descriptor field into RD. -/
  | scalDget (c : Ctx) (p : Pred) (f : FmtS)
  /-- SCAL_DSET (R295). The scal.dset instruction writes a scalar into a selected descriptor field, after checking its width and reserved bits. -/
  | scalDset (c : Ctx) (p : Pred) (f : FmtS)
  /-- SCAL_RDTIME (R293). The scal.rdtime instruction reads the cell's Meridian counter into RD. -/
  | scalRdtime (c : Ctx) (p : Pred) (f : FmtS)
  /-- SCAL_RDBAR (R293). The scal.rdbar instruction reads a barrier counter value into RD. -/
  | scalRdbar (c : Ctx) (p : Pred) (f : FmtS)
  /-- SCAL_FADD (R294). The scal.fadd instruction adds two FP32 or FP64 scalars with one rounding. -/
  | scalFadd (c : Ctx) (p : Pred) (f : FmtS)
  /-- SCAL_FSUB (R294). The scal.fsub instruction subtracts two FP32 or FP64 scalars with one rounding. -/
  | scalFsub (c : Ctx) (p : Pred) (f : FmtS)
  /-- SCAL_FMUL (R294). The scal.fmul instruction multiplies two floating-point scalars with one rounding. -/
  | scalFmul (c : Ctx) (p : Pred) (f : FmtS)
  /-- SCAL_FFMA (R294). The scal.ffma instruction forms a fused multiply-add into RD with one rounding. -/
  | scalFfma (c : Ctx) (p : Pred) (f : FmtS)
  /-- SCAL_FDIV (R294). The scal.fdiv instruction divides two floating-point scalars. -/
  | scalFdiv (c : Ctx) (p : Pred) (f : FmtS)
  /-- SCAL_FSQRT (R294). The scal.fsqrt instruction takes a floating-point square root. -/
  | scalFsqrt (c : Ctx) (p : Pred) (f : FmtS)
  /-- SCAL_FMAX (R294). The scal.fmax instruction writes a floating-point maximum under the comparison rules. -/
  | scalFmax (c : Ctx) (p : Pred) (f : FmtS)
  /-- SCAL_FMIN (R294). The scal.fmin instruction writes a floating-point minimum under the comparison rules. -/
  | scalFmin (c : Ctx) (p : Pred) (f : FmtS)
  /-- SCAL_FCMP_EQ (R294). The scal.fcmp.eq instruction sets a predicate from a floating-point equality test. -/
  | scalFcmpEq (c : Ctx) (p : Pred) (f : FmtS)
  /-- SCAL_FCMP_LT (R294). The scal.fcmp.lt instruction sets a predicate from a floating-point less-than test. -/
  | scalFcmpLt (c : Ctx) (p : Pred) (f : FmtS)
  /-- SCAL_FCMP_LE (R294). The scal.fcmp.le instruction sets a predicate from a floating-point less-or-equal test. -/
  | scalFcmpLe (c : Ctx) (p : Pred) (f : FmtS)
  /-- SCAL_I2F (R294). The scal.i2f instruction converts a signed integer scalar to FP32 or FP64. -/
  | scalI2f (c : Ctx) (p : Pred) (f : FmtS)
  /-- SCAL_F2I (R294). The scal.f2i instruction rounds a floating-point scalar to a clamped INT64. -/
  | scalF2i (c : Ctx) (p : Pred) (f : FmtS)
  /-- SCAL_FCVT (R294). The scal.fcvt instruction converts between FP64 and FP32. -/
  | scalFcvt (c : Ctx) (p : Pred) (f : FmtS)
  /-- MOV_COPY (R297). The mov.copy instruction copies the stored bits of one descriptor region into another. -/
  | movCopy (c : Ctx) (p : Pred) (f : FmtM)
  /-- MOV_LDS (R298). The mov.lds instruction loads a 64-bit word and sets a predicate on data, NOT_READY or EMPTY. -/
  | movLds (c : Ctx) (p : Pred) (f : FmtM)
  /-- MOV_STS (R296). The mov.sts instruction stores a scalar register to a 64-bit word. -/
  | movSts (c : Ctx) (p : Pred) (f : FmtM)
  /-- MOV_AADD32 (R344). The mov.aadd32 instruction performs a bank atomic INT32 add and returns the old value. -/
  | movAadd32 (c : Ctx) (p : Pred) (f : FmtM)
  /-- MOV_AADD64 (R344). The mov.aadd64 instruction performs a bank atomic INT64 add and returns the old value. -/
  | movAadd64 (c : Ctx) (p : Pred) (f : FmtM)
  /-- MOV_AADDFX (R345). The mov.aaddfx instruction performs a bank atomic FX64 add and returns the old value. -/
  | movAaddfx (c : Ctx) (p : Pred) (f : FmtM)
  /-- MOV_SWAP (R344). The mov.swap instruction atomically swaps a 64-bit word and returns the old value. -/
  | movSwap (c : Ctx) (p : Pred) (f : FmtM)
  /-- MOV_GADD (R299). The mov.gadd instruction adds each source element into an FX64 destination element by bank atomics. -/
  | movGadd (c : Ctx) (p : Pred) (f : FmtM)
  /-- MOV_TAKE (R297). The mov.take instruction copies a page-aligned region and then frees its source pages. -/
  | movTake (c : Ctx) (p : Pred) (f : FmtM)
  /-- MOV_SPILL (R332). The mov.spill instruction compresses a region into a spill area in a stack. -/
  | movSpill (c : Ctx) (p : Pred) (f : FmtM)
  /-- MOV_FILL (R334). The mov.fill instruction checks and restores a spill area into a region. -/
  | movFill (c : Ctx) (p : Pred) (f : FmtM)
  /-- MOV_HINT (R326). The mov.hint instruction requests a move, a pin or an unpin of the pages of a region. -/
  | movHint (c : Ctx) (p : Pred) (f : FmtM)
  /-- DUSK_MM (R101). The dusk.mm instruction issues one forward product pass to the Dusk array. -/
  | duskMm (c : Ctx) (p : Pred) (f : FmtA)
  /-- DAWN_MM (R124). The dawn.mm instruction issues one Dawn pass with both operands plain. -/
  | dawnMm (c : Ctx) (p : Pred) (f : FmtA)
  /-- DAWN_MMT (R301). The dawn.mmt instruction issues one Dawn pass with at least one operand transposed. -/
  | dawnMmt (c : Ctx) (p : Pred) (f : FmtA)
  /-- VEC_ADD (R196). The vec.add instruction adds tile elements with one rounding. -/
  | vecAdd (c : Ctx) (p : Pred) (f : FmtV)
  /-- VEC_SUB (R196). The vec.sub instruction subtracts tile elements with one rounding. -/
  | vecSub (c : Ctx) (p : Pred) (f : FmtV)
  /-- VEC_MUL (R196). The vec.mul instruction multiplies tile elements with one rounding. -/
  | vecMul (c : Ctx) (p : Pred) (f : FmtV)
  /-- VEC_FMA (R196). The vec.fma instruction forms a fused multiply-add per element. -/
  | vecFma (c : Ctx) (p : Pred) (f : FmtV)
  /-- VEC_MAX (R196). The vec.max instruction writes the element maximum. -/
  | vecMax (c : Ctx) (p : Pred) (f : FmtV)
  /-- VEC_MIN (R196). The vec.min instruction writes the element minimum. -/
  | vecMin (c : Ctx) (p : Pred) (f : FmtV)
  /-- VEC_ABS (R196). The vec.abs instruction writes element magnitudes. -/
  | vecAbs (c : Ctx) (p : Pred) (f : FmtV)
  /-- VEC_NEG (R196). The vec.neg instruction negates elements, writing −0 as +0. -/
  | vecNeg (c : Ctx) (p : Pred) (f : FmtV)
  /-- VEC_LDEXP (R196). The vec.ldexp instruction scales elements by a power of two from a scalar. -/
  | vecLdexp (c : Ctx) (p : Pred) (f : FmtV)
  /-- VEC_CMP (R196). The vec.cmp instruction writes 1.0 or +0 per element from a comparison. -/
  | vecCmp (c : Ctx) (p : Pred) (f : FmtV)
  /-- VEC_SEL (R196). The vec.sel instruction moves operand A or B bit for bit as operand C is non-zero. -/
  | vecSel (c : Ctx) (p : Pred) (f : FmtV)
  /-- VEC_RND (R196). The vec.rnd instruction rounds elements into a format and writes them back as FP32. -/
  | vecRnd (c : Ctx) (p : Pred) (f : FmtV)
  /-- VEC_MOV (R196). The vec.mov instruction copies a tile bit for bit. -/
  | vecMov (c : Ctx) (p : Pred) (f : FmtV)
  /-- VEC_DIV (R196). The vec.div instruction divides elements, correctly rounded. -/
  | vecDiv (c : Ctx) (p : Pred) (f : FmtV)
  /-- VEC_SQRT (R196). The vec.sqrt instruction takes element square roots. -/
  | vecSqrt (c : Ctx) (p : Pred) (f : FmtV)
  /-- VEC_RSQRT (R196). The vec.rsqrt instruction takes element reciprocal square roots. -/
  | vecRsqrt (c : Ctx) (p : Pred) (f : FmtV)
  /-- VEC_EXP2 (R196). The vec.exp2 instruction takes element powers of two. -/
  | vecExp2 (c : Ctx) (p : Pred) (f : FmtV)
  /-- VEC_LOG2 (R196). The vec.log2 instruction takes element base-two logarithms. -/
  | vecLog2 (c : Ctx) (p : Pred) (f : FmtV)
  /-- VEC_RSUM (R196). The vec.rsum instruction writes the exact row sums into column 0. -/
  | vecRsum (c : Ctx) (p : Pred) (f : FmtV)
  /-- VEC_CSUM (R196). The vec.csum instruction writes the exact column sums into row 0. -/
  | vecCsum (c : Ctx) (p : Pred) (f : FmtV)
  /-- VEC_RMAX (R196). The vec.rmax instruction writes row maxima into column 0. -/
  | vecRmax (c : Ctx) (p : Pred) (f : FmtV)
  /-- VEC_CMAX (R196). The vec.cmax instruction writes column maxima into row 0. -/
  | vecCmax (c : Ctx) (p : Pred) (f : FmtV)
  /-- VEC_ACC (R198). The vec.acc instruction reads an accumulator bank in form F32, F32ADD, TRIPLE or F64 and optionally releases it. -/
  | vecAcc (c : Ctx) (p : Pred) (f : FmtV)
  /-- VEC_LD (R203). The vec.ld instruction loads and converts a region into a tile. -/
  | vecLd (c : Ctx) (p : Pred) (f : FmtV)
  /-- VEC_ST (R204). The vec.st instruction stores a tile or strip into a region, choosing block scales when grouped. -/
  | vecSt (c : Ctx) (p : Pred) (f : FmtV)
  /-- ROW_SOFTMAX (R208). The row.softmax instruction computes a scaled soft maximum per row and stores SMAX statistics. -/
  | rowSoftmax (c : Ctx) (p : Pred) (f : FmtV)
  /-- ROW_SMBWD (R209). The row.smbwd instruction computes the soft-maximum gradient from SMAX statistics. -/
  | rowSmbwd (c : Ctx) (p : Pred) (f : FmtV)
  /-- ROW_NORM (R210). The row.norm instruction normalises rows and stores NORM statistics. -/
  | rowNorm (c : Ctx) (p : Pred) (f : FmtV)
  /-- ROW_RMS (R210). The row.rms instruction RMS-normalises rows and stores RMS statistics. -/
  | rowRms (c : Ctx) (p : Pred) (f : FmtV)
  /-- ROW_NORMBWD (R211). The row.normbwd instruction computes the normalisation gradient. -/
  | rowNormbwd (c : Ctx) (p : Pred) (f : FmtV)
  /-- ROW_LSE (R207). The row.lse instruction writes m + ln s from SMAX entries. -/
  | rowLse (c : Ctx) (p : Pred) (f : FmtV)
  /-- ROW_STST (R207). The row.stst instruction writes statistics entries to an FP32 tensor. -/
  | rowStst (c : Ctx) (p : Pred) (f : FmtV)
  /-- ROW_STLD (R207). The row.stld instruction loads statistics entries from an FP32 tensor and tags them. -/
  | rowStld (c : Ctx) (p : Pred) (f : FmtV)
  /-- ZEN_LD (R228). The zen.ld instruction loads stream elements of a parameter block into a tile. -/
  | zenLd (c : Ctx) (p : Pred) (f : FmtV)
  /-- ZEN_ST (R228). The zen.st instruction stores a tile into a stream, with stochastic rounding or Q blocking. -/
  | zenSt (c : Ctx) (p : Pred) (f : FmtV)
  /-- ZEN_SETSC (R228). The zen.setsc instruction sets the store scale of M or V for the block. -/
  | zenSetsc (c : Ctx) (p : Pred) (f : FmtV)
  /-- ZEN_NSQ (R230). The zen.nsq instruction adds exact squares of a tile into the norm accumulator. -/
  | zenNsq (c : Ctx) (p : Pred) (f : FmtV)
  /-- ZEN_AMAX (R304). The zen.amax instruction writes the largest finite magnitude of a tile to a scalar. -/
  | zenAmax (c : Ctx) (p : Pred) (f : FmtV)
  /-- ZEN_SGN (R304). The zen.sgn instruction writes the sign of each element. -/
  | zenSgn (c : Ctx) (p : Pred) (f : FmtV)
  /-- ZEN_LDLT (R237). The zen.ldlt instruction factors a batch of symmetric matrices with lifted retries. -/
  | zenLdlt (c : Ctx) (p : Pred) (f : FmtV)
  /-- ZEN_NEXT (R227). The zen.next instruction ends a parameter block and writes back its scratch words, scales and FB bit. -/
  | zenNext (c : Ctx) (p : Pred) (f : FmtV)
  /-- COLL_SLOT (R306). The coll.slot instruction arms an Ephemeris entry's action for the current period. -/
  | collSlot (c : Ctx) (p : Pred) (f : FmtK)
  /-- COLL_CANCEL (R305). The coll.cancel instruction disarms an entry whose action has not begun. -/
  | collCancel (c : Ctx) (p : Pred) (f : FmtK)
  /-- CHK_VERDICT (R243). The chk.verdict instruction is the cell's verdict instruction for the step. -/
  | chkVerdict (c : Ctx) (p : Pred) (f : FmtK)
  /-- CHK_RETRACT (R308). The chk.retract instruction raises RETR in the open verdict record. -/
  | chkRetract (c : Ctx) (p : Pred) (f : FmtK)
  /-- CHK_SAMPLE (R309). The chk.sample instruction marks the next Dusk or Dawn pass for the Parallax check. -/
  | chkSample (c : Ctx) (p : Pred) (f : FmtK)
  /-- CHK_VLAST (R308). The chk.vlast instruction reads the last final verdict word into RD. -/
  | chkVlast (c : Ctx) (p : Pred) (f : FmtK)
  /-- INSTRUCTION_FETCH (R267). The sequencer reads the instruction line that holds the next word to issue. -/
  | instructionFetch (c : Ctx)
  /-- UNIT_ACCEPT (R261). A unit accepts the instruction at the head of its queue when it can begin to perform it. -/
  | unitAccept (c : Ctx) (u : UnitId)
  /-- INSTRUCTION_RETIRE (R261). An instruction retires when all its effects are performed, writing pending registers and advancing BARE counters. -/
  | instructionRetire (c : Ctx) (u : UnitId)
  /-- DUSK_PASS_ACCEPT (R112). The Dusk array accepts a pass when its bank and pass limit allow, discarding a FULL bank. -/
  | duskPassAccept (c : CellId)
  /-- COLUMN_GATE (R117). An array's columns are gated off after GATE_IDLE idle cc. -/
  | columnGate (c : CellId) (a : Arr)
  /-- PRESCAN_DONE (R89). The converter's pre-scan completes, fixing E_line, row scales, outlier decisions and the anchor. -/
  | prescanDone (c : CellId) (a : Arr)
  /-- PASS_ABANDON (R91). A pass whose check read finds an operand written during the pass is abandoned and repeated once. -/
  | passAbandon (c : CellId) (a : Arr)
  /-- DUSK_PASS_RETIRE (R114). A Dusk pass retires after its last rescale and outlier contributions, making its bank FULL. -/
  | duskPassRetire (c : CellId)
  /-- DAWN_PASS_ACCEPT (R141). The Dawn array accepts a dawn-class or handed-over pass under its bank and pass limits. -/
  | dawnPassAccept (c : CellId)
  /-- DAWN_PASS_RETIRE (R137). A Dawn pass retires after its merge or last rescale, making its bank FULL. -/
  | dawnPassRetire (c : CellId)
  /-- CELL_STOP (R65). A cell stops at its first instruction boundary after a stop request reaches it. -/
  | cellStop (c : CellId)
  /-- CELL_HALT_COMPLETE (R281). A HALTING cell becomes IDLE once its last issued instruction retires. -/
  | cellHaltComplete (c : CellId)
  /-- BARRIER_WAIT_END (R285). A WAIT_BAR cell resumes when its barrier counter reaches the awaited count. -/
  | barrierWaitEnd (c : CellId)
  /-- TIME_WAIT_END (R286). A WAIT_TIME cell resumes when its Meridian counter reaches the awaited time. -/
  | timeWaitEnd (c : CellId)
  /-- COLL_ACTION_COMPLETE (R306). An armed collective action completes, writes its status and advances its barrier. -/
  | collActionComplete (c : CellId) (ent : Fin 65536)
  /-- PARALLAX_CHECK_COMPARE (R433). Check work completes its recomputation of a sampled pass and compares it with the program result. -/
  | parallaxCheckCompare (c : CellId) (r : Fin 2)
  /-- PARALLAX_REPLAY (R434). The suspect cell's replay of a hard-exceeding pass completes and is compared bit for bit. -/
  | parallaxReplay (c : CellId) (r : Fin 2) (differs : Bool)
  /-- PARALLAX_OTHER_CELL (R435). The repeat on another cell completes and the fault is classed. -/
  | parallaxOtherCell (c : CellId) (r : Fin 2) (differs : Bool)
  /-- SLOT_FENCE (R439). A fence stops the partition and waits for its service point to replace the slot. -/
  | slotFence (c : CellId)
  /-- SERVICE_POINT (R438). At the service point the pending fence copies state to a spare or makes the cell absent, then resumes. -/
  | servicePoint (p : Fin 64)
  /-- ALMANAC_CLOSE (R172). The Almanac step closes once its passes' reports have arrived, computing each slot's flags. -/
  | almanacClose (p : Fin 64)
  /-- ALMANAC_STEP_END (R181). On the final verdict each valid slot updates history, headroom, ladder position, format and scale. -/
  | almanacStepEnd (p : Fin 64)
  /-- ALM_SLOT_CONF_WRITE (R167). A write of slot word 8 initialises, changes or clears an Almanac slot. -/
  | almSlotConfWrite (pl : Plane) (slot : Fin 16384) (v : W64)
  /-- ALM_RANGE_WRITE (R165). A write of PART.ALM_RANGE changes the partition's slot range after checks. -/
  | almRangeWrite (pl : Plane) (p : Fin 64) (v : W64)
  /-- ALM_CKPT_SAVE (R185). OP = save of PART.ALM_CKPT requests a save of the partition's Almanac image. -/
  | almCkptSave (pl : Plane) (p : Fin 64)
  /-- ALM_CKPT_RESTORE (R187). OP = restore of PART.ALM_CKPT requests a restore of the partition's Almanac image. -/
  | almCkptRestore (pl : Plane) (p : Fin 64)
  /-- ALM_CKPT_PERFORM (R185). A pending save or restore takes effect after the next step end or at once when idle. -/
  | almCkptPerform (p : Fin 64)
  /-- ALM_SLOT_UE (R184). An uncorrectable error in an Almanac slot reinitialises it into cold scaling or clears it. -/
  | almSlotUe (slot : Fin 16384) (word : Fin 16)
  /-- ZEN_SLICE_START (R219). At each 4,096-cc slice start the Zenith unit chooses the partition to run. -/
  | zenSliceStart (d : Fin 16)
  /-- ZEN_PASS_ONE_START (R226). Pass one starts on each die with valid entries after the contribution issues, sealing G. -/
  | zenPassOneStart (p : Fin 64)
  /-- ZEN_PASS_ONE_DONE (R230). Pass one finishes on every die and the shard norm values join the contribution. -/
  | zenPassOneDone (p : Fin 64)
  /-- ZEN_PASS_TWO_START (R226). Pass two starts after a clean final verdict, or is skipped otherwise. -/
  | zenPassTwoStart (p : Fin 64)
  /-- ZEN_PASS_TWO_DONE (R226). Pass two finishes on every die and the clearing phase starts. -/
  | zenPassTwoDone (p : Fin 64)
  /-- ZEN_CLEAR_DONE (R232). The clearing phase ends: STEP increments, PHASE becomes idle and DONE_BAR advances. -/
  | zenClearDone (p : Fin 64)
  /-- ZEN_DIR_WRITE (R224). A write to a Zenith directory entry word is performed, refused or starts a bind. -/
  | zenDirWrite (pl : Plane) (entry : Fin 32768) (word : Fin 16) (v : W64)
  /-- ZEN_BIND (R225). A bind checks a directory entry and completes with a status. -/
  | zenBind (p : Fin 64)
  /-- ZEN_RANGE_WRITE (R222). A write of PART.ZEN_RANGE changes the partition's directory range after checks. -/
  | zenRangeWrite (pl : Plane) (p : Fin 64) (v : W64)
  /-- VERDICT_SEAL (R244). The member's record is sealed once close, pass one and check work are done. -/
  | verdictSeal (p : Fin 64)
  /-- VERDICT_RECORD_RECEIVE (R249). A verdict record received in a verdict slot is combined with the held record. -/
  | verdictRecordReceive (p : Fin 64) (rec : VerdictRec)
  /-- FINAL_VERDICT (R251). The final verdict is formed after the last round or at the deadline, and the step is decided. -/
  | finalVerdict (p : Fin 64)
  /-- VRD_RETR (R247). A host write of 1 to RETR of PART.VRD_OWN retracts the open step. -/
  | vrdRetr (pl : Plane) (p : Fin 64)
  /-- VRD_UNC_CLEAR (R254). Clearing VALID of PART.VRD_UNC ends the poisoning of a parameter page. -/
  | vrdUncClear (pl : Plane) (p : Fin 64)
  /-- RUN_CTL_STOP (R282). STOP of PART.RUN_CTL sends a stop request to the partition's running cells. -/
  | runCtlStop (pl : Plane) (p : Fin 64)
  /-- RUN_CTL_RESUME (R282). RESUME of PART.RUN_CTL returns stopped cells to RUN unless a NaN trap is recorded. -/
  | runCtlResume (pl : Plane) (p : Fin 64)
  /-- RUN_CTL_ABORT (R282). ABORT of PART.RUN_CTL puts the partition's cells into HALTING. -/
  | runCtlAbort (pl : Plane) (p : Fin 64)
  /-- NAN_TRAP_CLEAR (R69). Clearing VALID of PART.NAN_TRAP0 re-arms the partition's NaN trap. -/
  | nanTrapClear (pl : Plane) (p : Fin 64)
  /-- NUM_MODE_WRITE (R56). A write of PART.NUM_MODE changes the overflow mode within 256 cc in each cell. -/
  | numModeWrite (pl : Plane) (p : Fin 64) (v : W64)
  /-- BAR_CFG_WRITE (R283). A write of PART.BAR_CFG changes the number of barrier counters when all cells are IDLE. -/
  | barCfgWrite (pl : Plane) (p : Fin 64) (v : W64)
  /-- RFENCE_WRITE (R328). A write of PART.RFENCEk_A or _B arms a completion fence afresh. -/
  | rfenceWrite (pl : Plane) (p : Fin 64) (k : Fin 16) (isB : Bool) (v : W64)
  /-- RFENCE_PASS (R328). A completion fence passes when its barrier counter reaches TARGET. -/
  | rfencePass (p : Fin 64) (k : Fin 16)
  /-- PLACEMENT_WINDOW_END (R325). At each window end the Comet engine requests moves for pages written mostly by another cell. -/
  | placementWindowEnd (d : Fin 16) (p : Fin 64)
  /-- MOVE_START (R319). A Comet move reserves a destination frame and token and enters COPY. -/
  | moveStart (d : Fin 16)
  /-- MOVE_SWITCH (R319). After a clean copy round or round 4 the move enters SWITCH and holds accesses. -/
  | moveSwitch (page : Nat)
  /-- MOVE_COMMIT (R319). The directory entry is written with the new home and held accesses are forwarded. -/
  | moveCommit (page : Nat)
  /-- MOVE_DONE (R316). All invalidation acknowledgements arrive and the old frame and token are released. -/
  | moveDone (page : Nat)
  /-- TAKE_FRAME_RELEASE (R330). A claimed frame is released with its token once its data has left. -/
  | takeFrameRelease (frame : Nat)
  /-- BIST_ROW_START (R348). The background tester starts testing the next SRAM row at its pace. -/
  | bistRowStart (c : CellId)
  /-- BIST_ROW_DONE (R351). A row's save, march and restore finish, with a soft repair on failure. -/
  | bistRowDone (c : CellId) (fails : Bool)
  /-- BIST_ESCALATE (R348). After 65,536 cc without a free cc the tester takes one cc at top priority. -/
  | bistEscalate (c : CellId)
  /-- ARB_ESCALATE (R340). A request that lost 256 consecutive arbitrations wins the next cc. -/
  | arbEscalate (c : CellId) (m : Fin 8)
  /-- PORT_B_COLLIDE (R342). A port B write colliding with a port A write to one ECC word is refused and reissued. -/
  | portBCollide (c : CellId) (word : Nat) (a b : W64)
  /-- BIST_FULL (R352). Writing FULL of CELL.BIST_CTL starts an unpaced full test pass. -/
  | bistFull (pl : Plane) (c : CellId)
  /-- ECC_WRITEBACK (R346). A corrected SRAM word is written back when its bank is next free. -/
  | eccWriteback (c : CellId) (word : Nat)
  /-- STK_SCRUB (R355). Each stack controller reads every line of its stack once every 24 h. -/
  | stkScrub (n : Fin 32) (line : Nat) (f : LineFinding)
  /-- STK_REMAP_GO (R357). GO of STK.REMAP_CTL starts a remap of a logical channel onto a spare. -/
  | stkRemapGo (pl : Plane) (n : Fin 32) (log : Fin 128)
  /-- STK_REMAP_SWITCH (R357). At the end of the copy the channel map switches to the spare. -/
  | stkRemapSwitch (n : Fin 32)
  /-- STK_REMAP_ABORT (R357). A failed spare or controller reset aborts a remap in progress. -/
  | stkRemapAbort (n : Fin 32) (byReset : Bool)
  /-- SPAN_FLIT_RECEIVE (R361). A Span port receives a data flit in SEQ order, or discards it with a NAK on CRC error. -/
  | spanFlitReceive (sp : SpanPort) (fl : Flit)
  /-- SPAN_CREDIT_RETURN (R361). A credit-return flit restores sender credits. -/
  | spanCreditReturn (sp : SpanPort) (fl : Flit)
  /-- SPAN_NAK_RECEIVE (R361). A received NAK makes the sender replay from the named SEQ. -/
  | spanNakReceive (sp : SpanPort) (fl : Flit)
  /-- SPAN_RETRAIN (R362). A Span port retrains on NAKs, lock loss, reset or request, replacing failed lanes. -/
  | spanRetrain (sp : SpanPort) (badTx badRx : List (Fin 68))
  /-- SPAN_SYNC_RECEIVE (R362). A sync flit after training resets credits and triggers replay. -/
  | spanSyncReceive (sp : SpanPort) (fl : Flit)
  /-- ETH_CFG_WRITE (R367). A management write of ETH_CFGq configures a port and resets it on MODE or MEDIA change. -/
  | ethCfgWrite (pl : Plane) (h : Fin 4) (q : Fin 8) (v : W64)
  /-- LINK_UP (R366). A sub-port's link comes up after training. -/
  | linkUp (sub : SubPort)
  /-- SUBPORT_RESET (R385). A sub-port resets and flushes its frames on reset events or loss of link. -/
  | subportReset (sub : SubPort)
  /-- ARP_REQUEST (R368). A sub-port answers ARP for its IPv4 address. -/
  | arpRequest (sub : SubPort) (target sender : IpAddr) (mac : BitVec 48)
  /-- NEIGHBOUR_SOLICITATION (R368). A sub-port answers IPv6 neighbour solicitation for its address. -/
  | neighbourSolicitation (sub : SubPort) (target sender : IpAddr) (mac : BitVec 48)
  /-- ECHO_REQUEST (R368). A sub-port answers ICMP or ICMPv6 echo requests. -/
  | echoRequest (sub : SubPort) (dst src : IpAddr) (data : List Byte)
  /-- PEER_MAC_EXPIRE (R368). A resolved peer MAC address expires after 60 s. -/
  | peerMacExpire (sub : SubPort) (ip : IpAddr)
  /-- ETH_FRAME_DROP (R368). A frame to another MAC, failing FCS, fragmented or with options is discarded and counted. -/
  | ethFrameDrop (sub : SubPort) (why : DropCause)
  /-- ASTP_FRAME_BAD (R371). An ASTP frame with bad magic, version, CRC, length or type is discarded. -/
  | astpFrameBad (sub : SubPort) (udpLen : Nat) (bytes : List Byte)
  /-- ASTP_OPEN (R372). An OPEN message starts a control session after rights and availability checks. -/
  | astpOpen (h : AstpHdr)
  /-- ASTP_CLOSE (R375). A CLOSE message ends a session after its RESP is acknowledged. -/
  | astpClose (h : AstpHdr)
  /-- ASTP_ACK (R373). An ACK frame updates the acknowledged SEQ and LIMIT of a session. -/
  | astpAck (h : AstpHdr)
  /-- ASTP_CSR_RD (R375). A CSR_RD message returns up to 256 registers. -/
  | astpCsrRd (h : AstpHdr) (addr : BitVec 32) (count : Nat)
  /-- ASTP_CSR_WR (R375). A CSR_WR message writes registers in ascending order, each checked on its own. -/
  | astpCsrWr (h : AstpHdr) (addr : BitVec 32) (vals : List W64)
  /-- ASTP_WRITE (R375). A WRITE message writes tensor bytes, allocating FREE pages. -/
  | astpWrite (h : AstpHdr) (addr : W64) (data : List Byte)
  /-- ASTP_PEEK (R329). A PEEK message returns a byte range, NOT_READY or EMPTY without changing pages. -/
  | astpPeek (h : AstpHdr) (addr : W64) (bytes : Nat)
  /-- ASTP_TAKE (R330). A TAKE message claims and frees a page range and streams its contents. -/
  | astpTake (h : AstpHdr) (addr : W64) (bytes : Nat)
  /-- ASTP_LAUNCH (R279). A LAUNCH message starts the named IDLE cells or is refused. -/
  | astpLaunch (h : AstpHdr) (l : LaunchMsg)
  /-- ASTP_BIND (R375). A BIND message writes a directory entry and starts its bind. -/
  | astpBind (h : AstpHdr) (entry : BitVec 16) (words : List W64)
  /-- ASTP_NO_SESSION (R372). A frame naming a session that is not open receives NO_SESSION. -/
  | astpNoSession (f : StrayFrame)
  /-- ASTP_RETX_TIMEOUT (R373). An unacknowledged frame is retransmitted on timeout, closing the session after 16 tries. -/
  | astpRetxTimeout (session seq : Nat)
  /-- ASTP_SESSION_TIMEOUT (R372). A session with no frame for STMO seconds is closed. -/
  | astpSessionTimeout (session : Nat)
  /-- MESSAGE_TIME_END (R423). The messages of one 64 ns message time are performed in session order with conflict arbitration. -/
  | messageTimeEnd (msgs : List AstpReq) (mgmt : List (BitVec 32 × W64))
  /-- ASTP_TENSOR (R378). A TENSOR frame is staged and a complete transfer is written or added into its destination. -/
  | astpTensor (h : AstpHdr) (t : TensorFrame)
  /-- ASTP_VERDICT (R245). A VERDICT frame delivers a peer's verdict record in a verdict slot. -/
  | astpVerdict (h : AstpHdr) (ent : Fin 65536) (rec : VerdictRec)
  /-- ASTP_FAREWELL (R386). A received FAREWELL marks its sender lost at receipt. -/
  | astpFarewell (h : AstpHdr) (reason : Byte) (time : W64)
  /-- ROCE_READ (R381). An RDMA READ is answered as a PEEK of its range or with a NAK. -/
  | roceRead (sub : SubPort) (q : Fin 1024) (psn : Nat) (key : BitVec 32) (addr : W64) (len : Nat)
  /-- ROCE_WRITE (R382). An RDMA WRITE writes its bytes in PSN order and is acknowledged when written. -/
  | roceWrite (sub : SubPort) (q : Fin 1024) (psn : Nat) (key : BitVec 32) (addr : W64) (data : List Byte) (imm : Option (BitVec 32))
  /-- ROCE_SEND (R383). A SEND places its message in the QP's receive ring or receives an RNR NAK. -/
  | roceSend (sub : SubPort) (q : Fin 1024) (psn : Nat) (data : List Byte) (imm : Option (BitVec 32))
  /-- ROCE_INVALID_REQUEST (R379). A request with an unsupported opcode receives a NAK Invalid Request. -/
  | roceInvalidRequest (sub : SubPort) (q : Fin 1024) (psn : Nat) (opcode : Byte)
  /-- ROCE_CNP (R379). A received CNP or CE mark is ignored and counted. -/
  | roceCnp (sub : SubPort)
  /-- QP_WRITE (R421). A write of a queue pair entry creates, changes or frees it within caps. -/
  | qpWrite (pl : Plane) (i : Fin 1024) (word : Fin 8) (v : W64)
  /-- MR_WRITE (R421). A write of a memory region entry validates it and advances its generation. -/
  | mrWrite (pl : Plane) (i : Fin 4096) (word : Fin 4) (v : W64)
  /-- EPH_SLOT_START (R402). At a slot start the armed action sends or receives its frames, or moves to a reserve. -/
  | ephSlotStart (h : Fin 4) (i : Fin 16384)
  /-- EPH_SLOT_END (R405). At a slot end an incomplete receive moves along its reserve chain or completes LATE. -/
  | ephSlotEnd (h : Fin 4) (i : Fin 16384)
  /-- VDEADLINE (R408). A VDEADLINE entry forms the final verdict of the open step if not yet formed. -/
  | vdeadline (h : Fin 4) (i : Fin 16384)
  /-- EPH_LAUNCH (R408). A LAUNCH entry applies the launch held in PART.ELAUNCHj at its time. -/
  | ephLaunch (h : Fin 4) (i : Fin 16384)
  /-- EPH_BARRIER (R408). A BARRIER entry advances its barrier counter at its time. -/
  | ephBarrier (h : Fin 4) (i : Fin 16384)
  /-- EPH_PREWAKE (R408). Cells and collective units are woken LEAD ns before a launch or slot. -/
  | ephPrewake (h : Fin 4) (i : Fin 16384)
  /-- PEER_WRITE (R396). A host write of PEERi_A makes a peer entry LIVE or FREE. -/
  | peerWrite (pl : Plane) (h : Fin 4) (i : Fin 4096) (word : Fin 4) (v : W64)
  /-- EPH_RANGE_WRITE (R398). A write of PART.EPH_RANGEh changes the partition's Ephemeris range after checks. -/
  | ephRangeWrite (pl : Plane) (p : Fin 64) (h : Fin 4) (v : W64)
  /-- TT_COMMIT (R400). COMMIT of PART.TT_CTL checks the standby timetable on all Horizon dies. -/
  | ttCommit (pl : Plane) (p : Fin 64)
  /-- TT_COMMIT_DONE (R400). The commit check finishes with STATUS ok or failed. -/
  | ttCommitDone (p : Fin 64)
  /-- TT_SWITCH (R406). SWITCH of PART.TT_CTL requests a switch to the standby timetable at AT. -/
  | ttSwitch (pl : Plane) (p : Fin 64)
  /-- TIMETABLE_SWITCH (R406). The active timetable changes at a period boundary after the switch time. -/
  | timetableSwitch (p : Fin 64)
  /-- PTP_ANNOUNCE (R391). A received Announce feeds the best master clock algorithm and may select a source. -/
  | ptpAnnounce (a : Announce)
  /-- PTP_SYNC (R393). A received Sync updates the offset, the servo and the clock state. -/
  | ptpSync (sub : SubPort) (domain : Byte) (transport : Fin 4) (logInt : Int) (offset : Int)
  /-- PTP_DELAY_RESP (R391). A received Delay_Resp completes a path delay measurement. -/
  | ptpDelayResp (sub : SubPort) (domain : Byte) (transport : Fin 4) (delay : Nat)
  /-- PTP_DELAY_REQ (R391). A PTP Port sends a Delay_Req as the profile specifies. -/
  | ptpDelayReq (sub : SubPort)
  /-- SYNC_TIMEOUT (R393). No Sync for 4 intervals moves a LOCKED clock to HOLDOVER. -/
  | syncTimeout
  /-- HOLDOVER_EXPIRE (R393). HOLD_MAX in HOLDOVER moves the clock to LOCKING or FREERUN. -/
  | holdoverExpire
  /-- POWER_SAMPLE (R454). Every 10 µs the power manager measures input and adjusts FSTEP. -/
  | powerSample (m : PowerMeas)
  /-- THERMAL_TRIP (R456). A junction above 105 °C for 1 ms turns off the main rails. -/
  | thermalTrip
  /-- INPUT_LOSS (R452). Input out of range for 100 µs turns off the main rails. -/
  | inputLoss
  /-- INPUT_RESTORE (R452). Input within range for 100 ms starts a cold start. -/
  | inputRestore
  /-- PWR_EN_RISE (R458). PWR_EN going high lets start-up proceed from RAILS or restarts a failed module. -/
  | pwrEnRise
  /-- PWR_EN_FALL (R466). PWR_EN going low starts an orderly power-down or abandons start-up. -/
  | pwrEnFall
  /-- PWR_CFG_WRITE (R457). A management write of MGMT.PWR_CFG sets the power mode and cap. -/
  | pwrCfgWrite (pl : Plane) (v : W64)
  /-- STARTUP_ROM (R473). Lodestar runs its boot ROM and verifies a firmware image. -/
  | startupRom
  /-- STARTUP_RAILS (R458). The main rails ramp and PWR_OK is asserted. -/
  | startupRails (regulated : Bool) (inputsAgree : Bool)
  /-- STARTUP_FUSES (R458). Trim, repair and option fuses load. -/
  | startupFuses (wordsOk : Bool) (item : Byte)
  /-- STARTUP_CONFIG (R474). The configuration copies are read and the newest valid one is used. -/
  | startupConfig
  /-- STARTUP_STACKS (R459). The stacks train one at a time. -/
  | startupStacks (failed : List (Fin 32 × Fin 136))
  /-- STARTUP_CELLS (R459). ACTIVE and SPARE slots are released in waves and clear their SRAM. -/
  | startupCells
  /-- STARTUP_LINKS (R459). The enabled sub-ports train in parallel. -/
  | startupLinks (up : List SubPort)
  /-- STARTUP_TIME (R459). PTP runs until LOCKED, or READY follows after 15 s with NOTIME. -/
  | startupTime
  /-- STARTUP_READY (R458). The module reports READY. -/
  | startupReady
  /-- FW_BOOT_TIMEOUT (R473). Firmware not reporting running within 10 s restarts Lodestar on the other slot. -/
  | fwBootTimeout
  /-- CELL_CLOCK_STOP (R463). A cell's core clock stops after 4,096 idle cc. -/
  | cellClockStop (c : CellId)
  /-- CELL_WAKE (R464). A wake request starts a stopped cell's core clock within 200 ns. -/
  | cellWake (c : CellId)
  /-- RESET_MODULE (R466). An orderly MODULE reset shuts down, sends farewells and resets every unit. -/
  | resetModule (pl : Plane)
  /-- RESET_MODULE_ABRUPT (R465). An abrupt MODULE reset resets every unit without shutdown or farewells. -/
  | resetModuleAbrupt (pl : Plane)
  /-- RESET_CELL (R465). A CELL reset returns a FENCED or SPARE slot to its reset state. -/
  | resetCell (pl : Plane) (c : CellId)
  /-- RESET_STACK_CTL (R465). A STACK_CTL reset holds arriving accesses and aborts a remap. -/
  | resetStackCtl (pl : Plane) (n : Fin 32)
  /-- RESET_COMET (R323). A COMET reset recovers its moves from the move log. -/
  | resetComet (pl : Plane) (d : Fin 16)
  /-- RESET_SPAN_PORT (R362). A SPAN_PORT reset retrains the port. -/
  | resetSpanPort (pl : Plane) (sp : SpanPort)
  /-- RESET_ETH_SUB (R385). An ETH_SUB reset flushes and relinks a sub-port. -/
  | resetEthSub (pl : Plane) (sub : SubPort)
  /-- RESET_HZN_MAC (R465). An HZN_MAC reset flushes every sub-port of a Horizon die. -/
  | resetHznMac (pl : Plane) (h : Fin 4)
  /-- SVC_FENCE (R448). The FENCE service command fences an ACTIVE slot or moves a SPARE slot to FENCED. -/
  | svcFence (pl : Plane) (c : CellId)
  /-- SVC_REJOIN (R448). The REJOIN service command tests a FENCED slot and makes it SPARE. -/
  | svcRejoin (pl : Plane) (c : CellId) (sramOk selfOk : Bool)
  /-- SVC_RETIRE (R448). The RETIRE service command moves a FENCED or SPARE slot to RETIRED. -/
  | svcRetire (pl : Plane) (c : CellId)
  /-- SVC_FUSE_COMMIT (R448). The FUSE_COMMIT service command burns soft repairs, retirements and backing into fuses. -/
  | svcFuseCommit (pl : Plane) (d : Fin 16) (stop : Option Nat)
  /-- REJOIN_BACKING (R448). A rejoined spare backs the lowest absent cell before the partition's next launch. -/
  | rejoinBacking (c : CellId)
  /-- FSR_WRITE (R444). Lodestar writes a Fault Signature Record into its log. -/
  | fsrWrite
  /-- FSR_EXPORT (R445). A fault record is delivered to Redfish subscribers. -/
  | fsrExport (subscriber : Fin 10)
  /-- FSR_PUSH_RETRY (R445). Delivery to an unreachable push subscriber is retried every 10 s. -/
  | fsrPushRetry (subscriber : Fin 8) (reached : Bool)
  /-- FW_VERIFY (R476). The VERIFY command re-verifies both firmware slots. -/
  | fwVerify (pl : Plane)
  /-- FW_ACTIVATE (R476). The ACTIVATE command switches the boot word to the other verified slot and restarts Lodestar. -/
  | fwActivate (pl : Plane)
  /-- FW_COMMIT_SVN (R476). The COMMIT_SVN command raises the fused SVN to the running SVN. -/
  | fwCommitSvn (pl : Plane)
  /-- FW_UPDATE (R475). An UpdateService image is written into the idle slot and verified. -/
  | fwUpdate (img : FwImage)
  /-- CONFIG_WRITE (R474). A persistent setting change rewrites the older configuration copy. -/
  | configWrite
  /-- QUOTE (R481). The Stondalyn.Quote action captures the measurement registers and signs them. -/
  | quote (nonce : List Byte) (burnOk : Bool)
  /-- DBG_DATA_ACCESS (R418). A partition 0 access of CELL.DBG_DATA reads or writes a selected register of a stopped or idle cell. -/
  | dbgDataAccess (pl : Plane) (c : CellId) (write : Option W64)
  /-- CELLMAP_WRITE (R416). A write of PART.CELLMAPj changes cell ownership when all affected cells are IDLE. -/
  | cellmapWrite (pl : Plane) (p : Fin 64) (j : Fin 16) (v : W64)
  /-- CAP_WRITE (R415). A management write of a cap register changes caps and forces values above them. -/
  | capWrite (pl : Plane) (p : Fin 64) (k : Fin 4) (v : W64)
  /-- CSR_WRITE (R7). A write to a register without a row of its own is performed by its access code or refused. -/
  | csrWrite (pl : Plane) (addr : BitVec 32) (width : Nat) (v : W64)
  /-- SPAN_LINK_TRAINED (R362). A Span port finishes training after 2 µs or 20 µs, its state goes from training to up and its receiver sends the sync flit. -/
  | spanLinkTrained (sp : SpanPort)
  /-- SOURCE_DISAPPEARS (R393). The time source drops out of the best master clock algorithm without any message, and a LOCKED clock goes to HOLDOVER. -/
  | sourceDisappears
  /-- PEER_MAC_RESOLVED (R368). An ARP or neighbour discovery answer resolves a peer's MAC address, which the module then holds for 60 s. -/
  | peerMacResolved (sub : SubPort) (ip : IpAddr) (mac : BitVec 48)
  /-- CONFIGURATION_UPDATE (R474). A complete configuration written through the Redfish UpdateService is verified and stored as copy 0 with generation 1. -/
  | configurationUpdate (settings : List (Nat × W64)) (verifies : Bool)
  deriving DecidableEq, Repr

end Sys2Proof
end

