-- ==== Sys2Proof/Decode.lean ====
section
/-! DEFINITION. The reading of table words: the table of operations and events gives no row any bits. -/

namespace Sys2Proof

/-- The command that a word spells by the table's bits. No row of spec/opcode_table.json carries bits, so no word spells
a command. -/
def decodeTableWord (_nbits _w : Nat) : Option Instr := none

end Sys2Proof
end

