-- ==== Sys2Proof/Config.lean ====
section
/-! DEFINITION. What the spec leaves open: free values, of which nothing is known. Each is applied to a counter that the
state holds and the step advances, or to what it is a function of. -/

namespace Sys2Proof

/-- The rate correction that the PTP servo sets after a Sync, in parts per 10⁹, before the bound of R390: the spec gives no
servo law. -/
opaque Config.servo : Nat → Int

/-- How far the Meridian counter of a die would stand from the module reference in a cc, in nanoseconds, before the bounds of R389 and
R390. -/
opaque Config.skew : Nat → Nat → Int

/-- The ICRC of a RoCEv2 packet (R379), from its queue pair number, PSN, syndrome and data: IBTA's rules, not the spec's. -/
opaque Config.icrc : Nat → Nat → Nat → List (BitVec 8) → BitVec 32

/-- The credits of a VC that a credit-return flit carries: R360 gives no layout of its INFO field. -/
opaque Config.creditCount : Flit → Nat → Nat

/-- How many of the oldest replay entries a credit-return flit acknowledges: R361 does not say which flit carries the
acknowledgement in normal traffic. -/
opaque Config.creditAck : Flit → Nat

/-- ACK_SEQ of a sync flit: R360 gives no layout of its fields. -/
opaque Config.syncAck : Flit → Nat

/-- FREE of a VC in a sync flit: R360 gives no layout of its fields. -/
opaque Config.syncFree : Flit → Nat → Nat

/-- INFO of a credit-return flit that returns one credit of a VC and acknowledges a SEQ, and of a sync flit with its ACK_SEQ and FREE
counts: R360 gives no layout of them. -/
opaque Config.creditInfo : Nat → Nat → BitVec 20
opaque Config.syncInfo : Nat → List Nat → BitVec 20

/-- The payload of a flit with no data, from its header: R360 does not say what it holds. -/
opaque Config.ctlPayload : BitVec 64 → Fin 64 → BitVec 8

/-- Bits [23:0] of LOC in a fault record, from the parts that its kind names: R443 gives them no places. -/
opaque Config.locBits : Nat → List Nat → Nat

/-- SHA-256, and a byte of the HSS signature of the identity key with a leaf (R470, R480, R481): the standards' functions. -/
opaque Config.sha256 : List (BitVec 8) → BitVec 256
opaque Config.hssSign : Nat → List (BitVec 8) → Fin 5076 → BitVec 8

/-- How many of its shed products an array pass had formed when it was abandoned (R91, R157): a matter of timing. -/
opaque Config.shedFormed : Nat → Nat

/-- How often check work of the Dawn array stopped in favour of program work until its comparison (R145): a matter of timing. -/
opaque Config.checkStops : Nat → Nat

/-- How many fuse words hold their new value when a fuse write fails and the command does not carry it (R448). -/
opaque Config.burned : Nat → Nat

/-- An error of a stored bit that arises in a cc, if one does: the key of its word, and its position where the code of the word or line
can correct it (R346, R355). Physics decides. -/
opaque Config.upset : Nat → Option (Nat × Option Nat)

/-- The outcome of a physical test or fuse write that a service command waits for (R448, R478), where the command arrives as
a plain register write and so does not carry it. -/
opaque Config.outcome : Nat → Bool

end Sys2Proof
end

