-- ==== Sys2Proof/Machine/Bits.lean ====
section
/-! DEFINITION. Bit fields, sign extension and byte order (R5). -/

namespace Sys2Proof

/-- Bits [hi:lo] of a number. -/
def bitsOf (v hi lo : Nat) : Nat := (v / 2 ^ lo) % 2 ^ (hi + 1 - lo)

/-- `v` with bits [hi:lo] replaced by the low bits of `x`. -/
def bitsPut (v hi lo x : Nat) : Nat :=
  v - bitsOf v hi lo * 2 ^ lo + (x % 2 ^ (hi + 1 - lo)) * 2 ^ lo

/-- Field [hi:lo] of a 64-bit register. -/
def fld (v : W64) (hi lo : Nat) : Nat := bitsOf v.toNat hi lo

/-- A 64-bit register with field [hi:lo] replaced. -/
def fldPut (v : W64) (hi lo x : Nat) : W64 := BitVec.ofNat 64 (bitsPut v.toNat hi lo x)

/-- A one-bit field as a Bool. -/
def flag (v : W64) (b : Nat) : Bool := fld v b b = 1

/-- A Bool as the number 0 or 1. -/
def bnat (b : Bool) : Nat := if b then 1 else 0

/-- The two's-complement value of the low `w` bits of `v`. -/
def signed (w v : Nat) : Int :=
  let u := v % 2 ^ w
  if 2 * u < 2 ^ w then (u : Int) else (u : Int) - (2 ^ w : Nat)

/-- The low `w` bits of an integer as a number (two's complement). -/
def unsigned (w : Nat) (i : Int) : Nat := (i % ((2 ^ w : Nat) : Int)).toNat

/-- `n` little-endian bytes of a number. -/
def leBytes (n v : Nat) : List Byte :=
  match n with
  | 0 => []
  | k + 1 => BitVec.ofNat 8 (v % 256) :: leBytes k (v / 256)

/-- The number that a little-endian byte list spells. -/
def leNat : List Byte → Nat
  | [] => 0
  | b :: rest => b.toNat + 256 * leNat rest

/-- Ceiling division. -/
def cdiv (a b : Nat) : Nat := (a + b - 1) / b

/-- ⌈log₂ n⌉, 0 for n ≤ 1. -/
def clog2 (n : Nat) : Nat := if n ≤ 1 then 0 else Nat.log2 (n - 1) + 1

/-- Split a list into pieces of `n` elements, the last one shorter; `fuel` bounds the pieces. -/
def chunks {α : Type} (n fuel : Nat) (l : List α) : List (List α) :=
  match fuel with
  | 0 => []
  | k + 1 => if l.isEmpty then [] else l.take n :: chunks n k (l.drop n)

/-- Saturating count of 64 bits (R70). -/
def satAdd64 (v : W64) (n : Nat) : W64 :=
  let x := v.toNat + n
  if x < 2 ^ 64 then BitVec.ofNat 64 x else BitVec.ofNat 64 (2 ^ 64 - 1)

end Sys2Proof
end

