-- ==== Sys2Proof/Machine/Encode.lean ====
section
/-! DEFINITION. Instruction words (R274-R277): class, minor opcode and operand area of every instruction, and the
128-bit word they form. -/

namespace Sys2Proof

/-- Operand area of format S (R276). -/
def FmtS.bits (f : FmtS) : Nat :=
  f.rd.val * 2 ^ 107 + f.ra.val * 2 ^ 102 + f.rb.val * 2 ^ 97 + f.pd.val * 2 ^ 94 + f.pa.val * 2 ^ 91
    + f.bar.val * 2 ^ 85 + f.bare.toNat * 2 ^ 84 + f.fmt.val * 2 ^ 78 + f.dn.val * 2 ^ 74 + f.rsv.toNat * 2 ^ 64
    + f.imm.toNat

/-- Operand area of format M (R276). -/
def FmtM.bits (f : FmtM) : Nat :=
  f.dd.val * 2 ^ 108 + f.ds.val * 2 ^ 104 + f.ra.val * 2 ^ 99 + f.rb.val * 2 ^ 94 + f.rd.val * 2 ^ 89
    + f.pd.val * 2 ^ 86 + f.bar.val * 2 ^ 80 + f.bare.toNat * 2 ^ 79 + f.rsv.toNat * 2 ^ 64 + f.imm.toNat

/-- Operand area of format A (R277). -/
def FmtA.bits (f : FmtA) : Nat :=
  f.da.val * 2 ^ 108 + f.db.val * 2 ^ 104 + f.slotA.toNat * 2 ^ 89 + f.slotB.toNat * 2 ^ 74 + f.mode.toNat * 2 ^ 50
    + f.rsv.toNat

/-- Operand area of format V (R277). -/
def FmtV.bits (f : FmtV) : Nat :=
  f.td.val * 2 ^ 109 + f.ta.val * 2 ^ 106 + f.bsrc.val * 2 ^ 104 + f.bidx.val * 2 ^ 99 + f.csrc.val * 2 ^ 97
    + f.cidx.val * 2 ^ 92 + f.ds.val * 2 ^ 88 + f.dt.val * 2 ^ 84 + f.du.val * 2 ^ 80 + f.bank.val * 2 ^ 78
    + f.form.val * 2 ^ 76 + f.rel.toNat * 2 ^ 75 + f.tx.val * 2 ^ 72 + f.fmt.val * 2 ^ 66 + f.cmp.val * 2 ^ 64
    + f.sbase.val * 2 ^ 51 + f.tag.val * 2 ^ 49 + f.rs.val * 2 ^ 44 + f.pd.val * 2 ^ 41 + f.strm.val * 2 ^ 38
    + f.rsv.toNat

/-- Operand area of format K (R277). -/
def FmtK.bits (f : FmtK) : Nat :=
  f.ds.val * 2 ^ 108 + f.dd.val * 2 ^ 104 + f.ent.val * 2 ^ 88 + f.strm.val * 2 ^ 84 + f.grad.toNat * 2 ^ 83
    + f.ra.val * 2 ^ 78 + f.rd.val * 2 ^ 73 + f.bar.val * 2 ^ 67 + f.bare.toNat * 2 ^ 66 + f.rsv.toNat * 2 ^ 64
    + f.imm.toNat

/-- The parts of an instruction word. -/
structure InsnWord where
  ctx   : Ctx
  pred  : Pred
  cls   : Nat
  minor : Nat
  area  : Nat
  deriving DecidableEq, Repr

/-- Class and minor opcode of every instruction (R259, R289-R308); none for a command that is no instruction. -/
def insnWord (i : Instr) : Option InsnWord :=
  match i with
  | .ctlNop c p f => some ⟨c, p, 0, 0x00, f.bits⟩
  | .ctlBr c p f => some ⟨c, p, 0, 0x01, f.bits⟩
  | .ctlCall c p f => some ⟨c, p, 0, 0x02, f.bits⟩
  | .ctlJr c p f => some ⟨c, p, 0, 0x03, f.bits⟩
  | .ctlFence c p f => some ⟨c, p, 0, 0x04, f.bits⟩
  | .ctlArrive c p f => some ⟨c, p, 0, 0x05, f.bits⟩
  | .ctlWbar c p f => some ⟨c, p, 0, 0x06, f.bits⟩
  | .ctlWtime c p f => some ⟨c, p, 0, 0x07, f.bits⟩
  | .ctlHalt c p f => some ⟨c, p, 0, 0x08, f.bits⟩
  | .scalLi c p f => some ⟨c, p, 1, 0x00, f.bits⟩
  | .scalAdd c p f => some ⟨c, p, 1, 0x01, f.bits⟩
  | .scalSub c p f => some ⟨c, p, 1, 0x02, f.bits⟩
  | .scalMul c p f => some ⟨c, p, 1, 0x03, f.bits⟩
  | .scalXor c p f => some ⟨c, p, 1, 0x06, f.bits⟩
  | .scalShl c p f => some ⟨c, p, 1, 0x07, f.bits⟩
  | .scalShr c p f => some ⟨c, p, 1, 0x08, f.bits⟩
  | .scalSra c p f => some ⟨c, p, 1, 0x09, f.bits⟩
  | .scalMin c p f => some ⟨c, p, 1, 0x0A, f.bits⟩
  | .scalMax c p f => some ⟨c, p, 1, 0x0B, f.bits⟩
  | .scalPmov c p f => some ⟨c, p, 1, 0x18, f.bits⟩
  | .scalPnot c p f => some ⟨c, p, 1, 0x19, f.bits⟩
  | .scalPand c p f => some ⟨c, p, 1, 0x1A, f.bits⟩
  | .scalPor c p f => some ⟨c, p, 1, 0x1B, f.bits⟩
  | .scalDget c p f => some ⟨c, p, 1, 0x38, f.bits⟩
  | .scalDset c p f => some ⟨c, p, 1, 0x39, f.bits⟩
  | .scalRdtime c p f => some ⟨c, p, 1, 0x3A, f.bits⟩
  | .scalRdbar c p f => some ⟨c, p, 1, 0x3B, f.bits⟩
  | .scalFadd c p f => some ⟨c, p, 1, 0x20, f.bits⟩
  | .scalFsub c p f => some ⟨c, p, 1, 0x21, f.bits⟩
  | .scalFmul c p f => some ⟨c, p, 1, 0x22, f.bits⟩
  | .scalFfma c p f => some ⟨c, p, 1, 0x23, f.bits⟩
  | .scalFdiv c p f => some ⟨c, p, 1, 0x24, f.bits⟩
  | .scalFsqrt c p f => some ⟨c, p, 1, 0x25, f.bits⟩
  | .scalFmax c p f => some ⟨c, p, 1, 0x26, f.bits⟩
  | .scalFmin c p f => some ⟨c, p, 1, 0x27, f.bits⟩
  | .scalI2f c p f => some ⟨c, p, 1, 0x30, f.bits⟩
  | .scalF2i c p f => some ⟨c, p, 1, 0x31, f.bits⟩
  | .scalFcvt c p f => some ⟨c, p, 1, 0x32, f.bits⟩
  | .scalAnd c p f => some ⟨c, p, 1, 0x04, f.bits⟩
  | .scalOr c p f => some ⟨c, p, 1, 0x05, f.bits⟩
  | .scalCmpEq c p f => some ⟨c, p, 1, 0x0C, f.bits⟩
  | .scalCmpNe c p f => some ⟨c, p, 1, 0x0D, f.bits⟩
  | .scalCmpLt c p f => some ⟨c, p, 1, 0x0E, f.bits⟩
  | .scalCmpLe c p f => some ⟨c, p, 1, 0x0F, f.bits⟩
  | .scalCmpLtu c p f => some ⟨c, p, 1, 0x10, f.bits⟩
  | .scalCmpLeu c p f => some ⟨c, p, 1, 0x11, f.bits⟩
  | .scalFcmpEq c p f => some ⟨c, p, 1, 0x28, f.bits⟩
  | .scalFcmpLt c p f => some ⟨c, p, 1, 0x29, f.bits⟩
  | .scalFcmpLe c p f => some ⟨c, p, 1, 0x2A, f.bits⟩
  | .movCopy c p f => some ⟨c, p, 2, 0x01, f.bits⟩
  | .movLds c p f => some ⟨c, p, 2, 0x02, f.bits⟩
  | .movSts c p f => some ⟨c, p, 2, 0x03, f.bits⟩
  | .movAadd32 c p f => some ⟨c, p, 2, 0x04, f.bits⟩
  | .movAadd64 c p f => some ⟨c, p, 2, 0x05, f.bits⟩
  | .movAaddfx c p f => some ⟨c, p, 2, 0x06, f.bits⟩
  | .movSwap c p f => some ⟨c, p, 2, 0x07, f.bits⟩
  | .movGadd c p f => some ⟨c, p, 2, 0x08, f.bits⟩
  | .movTake c p f => some ⟨c, p, 2, 0x09, f.bits⟩
  | .movSpill c p f => some ⟨c, p, 2, 0x0A, f.bits⟩
  | .movFill c p f => some ⟨c, p, 2, 0x0B, f.bits⟩
  | .movHint c p f => some ⟨c, p, 2, 0x0C, f.bits⟩
  | .duskMm c p f => some ⟨c, p, 3, 0x01, f.bits⟩
  | .dawnMm c p f => some ⟨c, p, 4, 0x01, f.bits⟩
  | .dawnMmt c p f => some ⟨c, p, 4, 0x02, f.bits⟩
  | .vecAdd c p f => some ⟨c, p, 5, 0x01, f.bits⟩
  | .vecSub c p f => some ⟨c, p, 5, 0x02, f.bits⟩
  | .vecMul c p f => some ⟨c, p, 5, 0x03, f.bits⟩
  | .vecFma c p f => some ⟨c, p, 5, 0x04, f.bits⟩
  | .vecMax c p f => some ⟨c, p, 5, 0x05, f.bits⟩
  | .vecMin c p f => some ⟨c, p, 5, 0x06, f.bits⟩
  | .vecAbs c p f => some ⟨c, p, 5, 0x07, f.bits⟩
  | .vecNeg c p f => some ⟨c, p, 5, 0x08, f.bits⟩
  | .vecLdexp c p f => some ⟨c, p, 5, 0x09, f.bits⟩
  | .vecCmp c p f => some ⟨c, p, 5, 0x0A, f.bits⟩
  | .vecSel c p f => some ⟨c, p, 5, 0x0B, f.bits⟩
  | .vecRnd c p f => some ⟨c, p, 5, 0x0C, f.bits⟩
  | .vecMov c p f => some ⟨c, p, 5, 0x0D, f.bits⟩
  | .vecDiv c p f => some ⟨c, p, 5, 0x10, f.bits⟩
  | .vecSqrt c p f => some ⟨c, p, 5, 0x11, f.bits⟩
  | .vecRsqrt c p f => some ⟨c, p, 5, 0x12, f.bits⟩
  | .vecExp2 c p f => some ⟨c, p, 5, 0x13, f.bits⟩
  | .vecLog2 c p f => some ⟨c, p, 5, 0x14, f.bits⟩
  | .vecRsum c p f => some ⟨c, p, 5, 0x18, f.bits⟩
  | .vecCsum c p f => some ⟨c, p, 5, 0x19, f.bits⟩
  | .vecRmax c p f => some ⟨c, p, 5, 0x1A, f.bits⟩
  | .vecCmax c p f => some ⟨c, p, 5, 0x1B, f.bits⟩
  | .vecAcc c p f => some ⟨c, p, 5, 0x20, f.bits⟩
  | .vecLd c p f => some ⟨c, p, 5, 0x21, f.bits⟩
  | .vecSt c p f => some ⟨c, p, 5, 0x22, f.bits⟩
  | .rowSoftmax c p f => some ⟨c, p, 6, 0x01, f.bits⟩
  | .rowSmbwd c p f => some ⟨c, p, 6, 0x02, f.bits⟩
  | .rowNorm c p f => some ⟨c, p, 6, 0x03, f.bits⟩
  | .rowRms c p f => some ⟨c, p, 6, 0x04, f.bits⟩
  | .rowNormbwd c p f => some ⟨c, p, 6, 0x05, f.bits⟩
  | .rowLse c p f => some ⟨c, p, 6, 0x06, f.bits⟩
  | .rowStst c p f => some ⟨c, p, 6, 0x07, f.bits⟩
  | .rowStld c p f => some ⟨c, p, 6, 0x08, f.bits⟩
  | .collSlot c p f => some ⟨c, p, 7, 0x01, f.bits⟩
  | .collCancel c p f => some ⟨c, p, 7, 0x02, f.bits⟩
  | .zenLd c p f => some ⟨c, p, 8, 0x01, f.bits⟩
  | .zenSt c p f => some ⟨c, p, 8, 0x02, f.bits⟩
  | .zenSetsc c p f => some ⟨c, p, 8, 0x03, f.bits⟩
  | .zenNsq c p f => some ⟨c, p, 8, 0x04, f.bits⟩
  | .zenAmax c p f => some ⟨c, p, 8, 0x05, f.bits⟩
  | .zenSgn c p f => some ⟨c, p, 8, 0x06, f.bits⟩
  | .zenLdlt c p f => some ⟨c, p, 8, 0x07, f.bits⟩
  | .zenNext c p f => some ⟨c, p, 8, 0x08, f.bits⟩
  | .chkVerdict c p f => some ⟨c, p, 9, 0x01, f.bits⟩
  | .chkRetract c p f => some ⟨c, p, 9, 0x02, f.bits⟩
  | .chkSample c p f => some ⟨c, p, 9, 0x03, f.bits⟩
  | .chkVlast c p f => some ⟨c, p, 9, 0x04, f.bits⟩
  | _ => none

/-- The 128-bit word (R274). -/
def InsnWord.word (w : InsnWord) : Nat :=
  w.cls * 2 ^ 124 + w.minor * 2 ^ 116 + w.pred.pneg.toNat * 2 ^ 115 + w.pred.psel.val * 2 ^ 112 + w.area

/-- Class of an instruction, 0 for another command. -/
def insnClass (i : Instr) : Nat := ((insnWord i).map (·.cls)).getD 0

/-- Minor opcode of an instruction, 0 for another command. -/
def insnMinor (i : Instr) : Nat := ((insnWord i).map (·.minor)).getD 0

/-- The minor opcodes that the instruction reference lists for a class (R275). -/
def minorListed (cls minor : Nat) : Bool :=
  match cls with
  | 0 => minor ≤ 8
  | 1 => minor ≤ 0x11 || (0x18 ≤ minor && minor ≤ 0x1B) || (0x20 ≤ minor && minor ≤ 0x2A)
      || (0x30 ≤ minor && minor ≤ 0x32) || (0x38 ≤ minor && minor ≤ 0x3B)
  | 2 => 1 ≤ minor && minor ≤ 0x0C
  | 3 => minor = 1
  | 4 => minor = 1 || minor = 2
  | 5 => (1 ≤ minor && minor ≤ 0x0D) || (0x10 ≤ minor && minor ≤ 0x14) || (0x18 ≤ minor && minor ≤ 0x1B)
      || (0x20 ≤ minor && minor ≤ 0x22)
  | 6 => 1 ≤ minor && minor ≤ 8
  | 7 => minor = 1 || minor = 2
  | 8 => 1 ≤ minor && minor ≤ 8
  | 9 => 1 ≤ minor && minor ≤ 4
  | _ => false

end Sys2Proof
end

