-- ==== Sys2Proof/Machine/Real.lean ====
section
/-! DEFINITION. Exact values: dyadic rationals, magnitudes known through their floors (all that a rounding to nearest
with ties away needs, R50), and the exact results of arithmetic with Inf and NaN (R62). -/

namespace Sys2Proof

/-- The dyadic rational m · 2^e. -/
structure Dy where
  m : Int
  e : Int
  deriving DecidableEq, Repr

/-- An integer as a dyadic. -/
def Dy.ofInt (i : Int) : Dy := ⟨i, 0⟩

/-- 2^n for an integer exponent that is not negative, else 1. -/
def pow2 (n : Int) : Nat := 2 ^ n.toNat

/-- The mantissa of `d` at exponent `e`, for e ≤ d.e. -/
def Dy.at (d : Dy) (e : Int) : Int := d.m * (pow2 (d.e - e) : Int)

def Dy.add (a b : Dy) : Dy :=
  let e := min a.e b.e
  ⟨a.at e + b.at e, e⟩

def Dy.neg (a : Dy) : Dy := ⟨-a.m, a.e⟩

def Dy.sub (a b : Dy) : Dy := a.add b.neg

def Dy.mul (a b : Dy) : Dy := ⟨a.m * b.m, a.e + b.e⟩

/-- Exact scaling by 2^k. -/
def Dy.scale (a : Dy) (k : Int) : Dy := if a.m = 0 then a else ⟨a.m, a.e + k⟩

def Dy.abs (a : Dy) : Dy := ⟨a.m.natAbs, a.e⟩

/-- −1, 0 or 1. -/
def Dy.sgn (a : Dy) : Int := Int.sign a.m

/-- a < b. -/
def Dy.lt (a b : Dy) : Bool := (a.sub b).m < 0

/-- a ≤ b. -/
def Dy.le (a b : Dy) : Bool := (a.sub b).m ≤ 0

/-- a = b as numbers. -/
def Dy.eqv (a b : Dy) : Bool := (a.sub b).m = 0

/-- ⌊log₂|a|⌋ of a non-zero dyadic. -/
def Dy.ex (a : Dy) : Int := (Nat.log2 a.m.natAbs : Int) + a.e

/-- A positive real: its exponent ⌊log₂ x⌋, and for every k the floor of x·2^k with whether x·2^k is an integer. -/
structure Mag where
  ex : Int
  fl : Int → Nat × Bool

/-- ⌊n · 2^k⌋ and whether it is exact. -/
def shiftFl (n : Nat) (k : Int) : Nat × Bool :=
  if 0 ≤ k then (n * 2 ^ k.toNat, true)
  else
    let d := 2 ^ (-k).toNat
    (n / d, n % d = 0)

/-- The magnitude of a non-zero dyadic. -/
def Dy.mag (a : Dy) : Mag := ⟨a.ex, fun k => shiftFl a.m.natAbs (a.e + k)⟩

/-- The largest of the 8 exponents from `top` down whose power of two is at most x. -/
def findEx (fl : Int → Nat × Bool) (top : Int) (fuel : Nat) : Int :=
  match fuel with
  | 0 => top
  | n + 1 => if (fl (-top)).1 = 0 then findEx fl (top - 1) n else top

/-- ⌊n · 2^k / d⌋ and whether it is exact. -/
def quotFl (n d : Nat) (k : Int) : Nat × Bool :=
  let a := if 0 ≤ k then n * 2 ^ k.toNat else n
  let b := if 0 ≤ k then d else d * 2 ^ (-k).toNat
  (a / b, a % b = 0)

/-- |a / b| for non-zero dyadics. -/
def Dy.quot (a b : Dy) : Mag :=
  let fl := fun k => quotFl a.m.natAbs b.m.natAbs (a.e - b.e + k)
  ⟨findEx fl (a.ex - b.ex + 1) 8, fl⟩

/-- The integer square root, one result bit at a time from bit `b − 1` down. -/
def isqrtAux (n r b : Nat) : Nat :=
  match b with
  | 0 => r
  | i + 1 =>
    let t := r + 2 ^ i
    isqrtAux n (if t * t ≤ n then t else r) i

/-- ⌊√n⌋. -/
def isqrt (n : Nat) : Nat := isqrtAux n 0 (Nat.log2 n / 2 + 1)

/-- √a of a positive dyadic. -/
def Dy.sqrt (a : Dy) : Mag :=
  ⟨a.ex / 2, fun k =>
    let q := shiftFl a.m.natAbs (a.e + 2 * k)
    let r := isqrt q.1
    (r, q.2 && r * r = q.1)⟩

/-- 1/√a of a positive dyadic. -/
def Dy.rsqrt (a : Dy) : Mag :=
  let fl := fun k =>
    let q := quotFl 1 a.m.natAbs (2 * k - a.e)
    let r := isqrt q.1
    (r, q.2 && r * r = q.1)
  ⟨findEx fl (-(a.ex / 2) + 2) 8, fl⟩

/-- n / √a of a non-zero dyadic n and a positive dyadic a. -/
def Dy.overSqrt (n a : Dy) : Mag :=
  let fl := fun k =>
    let q := quotFl (n.m.natAbs * n.m.natAbs) a.m.natAbs (2 * n.e + 2 * k - a.e)
    let r := isqrt q.1
    (r, q.2 && r * r = q.1)
  ⟨findEx fl (n.ex - a.ex / 2 + 2) 8, fl⟩

/-- A magnitude scaled by 2^s. -/
def Mag.scale (x : Mag) (s : Int) : Mag := ⟨x.ex + s, fun k => x.fl (k + s)⟩

/-- The value of an operand as a unit reads it (R61: −0 reads as +0). -/
inductive Val where
  | nan
  | inf (neg : Bool)
  | fin (d : Dy)
  deriving DecidableEq, Repr

/-- An exact result before rounding; a zero keeps the sign that IEEE 754-2019 gives it (only the scalar unit shows it,
R61). -/
inductive XR where
  | nan
  | inf (neg : Bool)
  | zero (neg : Bool)
  | num (neg : Bool) (m : Mag)

/-- A dyadic as an exact result; an exact zero is +0. -/
def Dy.toXR (d : Dy) : XR := if d.m = 0 then .zero false else .num (d.m < 0) d.mag

def Val.toXR : Val → XR
  | .nan => .nan
  | .inf n => .inf n
  | .fin d => d.toXR

def Val.isNan : Val → Bool
  | .nan => true
  | _ => false

def Val.isNeg : Val → Bool
  | .nan => false
  | .inf n => n
  | .fin d => d.m < 0

def Val.isZero : Val → Bool
  | .fin d => d.m = 0
  | _ => false

def Val.neg : Val → Val
  | .nan => .nan
  | .inf n => .inf (!n)
  | .fin d => .fin d.neg

def Val.abs : Val → Val
  | .nan => .nan
  | .inf _ => .inf false
  | .fin d => .fin d.abs

/-- Exact scaling by 2^k. -/
def Val.scale (v : Val) (k : Int) : Val :=
  match v with
  | .fin d => .fin (d.scale k)
  | o => o

/-- Exact sum as a value (R62). -/
def Val.add (a b : Val) : Val :=
  match a, b with
  | .nan, _ => .nan
  | _, .nan => .nan
  | .inf m, .inf n => if m = n then .inf m else .nan
  | .inf m, .fin _ => .inf m
  | .fin _, .inf n => .inf n
  | .fin x, .fin y => .fin (x.add y)

def Val.sub (a b : Val) : Val := a.add b.neg

/-- Exact product as a value (R62). -/
def Val.mul (a b : Val) : Val :=
  match a, b with
  | .nan, _ => .nan
  | _, .nan => .nan
  | .inf m, .inf n => .inf (m != n)
  | .inf m, .fin y => if y.m = 0 then .nan else .inf (m != (y.m < 0 : Bool))
  | .fin x, .inf n => if x.m = 0 then .nan else .inf ((x.m < 0 : Bool) != n)
  | .fin x, .fin y => .fin (x.mul y)

/-- Give an exact zero the sign `n`. -/
def XR.zeroSign (x : XR) (n : Bool) : XR :=
  match x with
  | .zero _ => .zero n
  | o => o

/-- A product with the sign of its zero (R61). -/
def Val.mulX (a b : Val) : XR := (a.mul b).toXR.zeroSign (a.isNeg != b.isNeg)

/-- A quotient (R62): the sign of a zero is the exclusive-or of the operand signs. -/
def Val.divX (a b : Val) : XR :=
  let n := a.isNeg != b.isNeg
  match a, b with
  | .nan, _ => .nan
  | _, .nan => .nan
  | .inf _, .inf _ => .nan
  | .inf _, .fin _ => .inf n
  | .fin _, .inf _ => .zero n
  | .fin x, .fin y =>
    if y.m = 0 then (if x.m = 0 then .nan else .inf (x.m < 0))
    else if x.m = 0 then .zero n
    else .num n (x.quot y)

/-- A square root (R62). -/
def Val.sqrtX : Val → XR
  | .nan => .nan
  | .inf n => if n then .nan else .inf false
  | .fin x => if x.m < 0 then .nan else if x.m = 0 then .zero false else .num false x.sqrt

/-- A reciprocal square root (R62). -/
def Val.rsqrtX : Val → XR
  | .nan => .nan
  | .inf n => if n then .nan else .zero false
  | .fin x => if x.m < 0 then .nan else if x.m = 0 then .inf false else .num false x.rsqrt

/-- The order of R63 on values that are not NaN: a < b. -/
def Val.lt (a b : Val) : Bool :=
  match a, b with
  | .nan, _ => false
  | _, .nan => false
  | .inf m, .inf n => m && !n
  | .inf m, .fin _ => m
  | .fin _, .inf n => !n
  | .fin x, .fin y => x.lt y

/-- Equality under R63. -/
def Val.eqv (a b : Val) : Bool :=
  match a, b with
  | .inf m, .inf n => m = n
  | .fin x, .fin y => x.eqv y
  | _, _ => false

/-- a ≤ b under R63. -/
def Val.le (a b : Val) : Bool := a.lt b || a.eqv b

/-- The maximum under R63. -/
def Val.max (a b : Val) : Val :=
  if a.isNan || b.isNan then .nan else if a.lt b then b else a

/-- The minimum under R63. -/
def Val.min (a b : Val) : Val :=
  if a.isNan || b.isNan then .nan else if b.lt a then b else a

/-- |x| ≥ n·2^s for an exact result. -/
def XR.absGe (x : XR) (n : Nat) (s : Int) : Bool :=
  match x with
  | .nan => false
  | .inf _ => true
  | .zero _ => n = 0
  | .num _ m => m.ex > s + (Nat.log2 n : Int) || (m.ex ≥ s + (Nat.log2 n : Int) && n ≤ (m.fl (-s)).1)

end Sys2Proof
end

