-- ==== Sys2Proof/Machine/Formats.lean ====
section
/-! DEFINITION. Number formats and the one conversion of the module (R36-R63, R82, R83): reading an element, rounding an
exact result into a format, and choosing a scale. -/

namespace Sys2Proof

/-- The code tables and converter controls an instruction uses (R88), or a partition's reference tables (R496):
TBL_CFG, the four tables of 16 INT8 entries, and CONV_CTL. -/
structure Tabs where
  cfg  : W64
  t0   : W128
  t1   : W128
  t2   : W128
  t3   : W128
  conv : W64
  deriving DecidableEq, Repr

/-- Width of slot k in bits (R85). -/
def Tabs.width (t : Tabs) (k : Nat) : Nat := fld t.cfg (2 * k + 1) (2 * k) + 1

/-- Entry c of slot k, a two's-complement INT8 (R45). -/
def Tabs.entry (t : Tabs) (k c : Nat) : Int :=
  let tab := match k with
    | 0 => t.t0
    | 1 => t.t1
    | 2 => t.t2
    | _ => t.t3
  signed 8 (tab.toNat / 2 ^ (8 * c))

/-- The parameters of a floating-point format (R40): exponent and mantissa widths, bias, and whether it has Inf. -/
structure FpPar where
  e    : Nat
  m    : Nat
  bias : Int
  inf  : Bool
  deriving DecidableEq, Repr

/-- The floating-point formats (R36, R40). -/
def fpPar (f : Nat) : Option FpPar :=
  if f = 0x10 then some ⟨4, 3, 7, false⟩
  else if f = 0x11 then some ⟨5, 2, 15, true⟩
  else if f = 0x12 then some ⟨6, 5, 31, true⟩
  else if f = 0x13 then some ⟨8, 7, 127, true⟩
  else if f = 0x14 then some ⟨5, 10, 15, true⟩
  else if f = 0x15 then some ⟨8, 23, 127, true⟩
  else if f = 0x16 then some ⟨11, 52, 1023, true⟩
  else none

def fmtBF16 : Nat := 0x13
def fmtFP16 : Nat := 0x14
def fmtFP32 : Nat := 0x15
def fmtFP64 : Nat := 0x16
def fmtE8M0 : Nat := 0x20

/-- INT1 to INT8 (R36). -/
def isInt (f : Nat) : Bool := f ≤ 7

/-- Code-table formats (R45). -/
def isTbl (f : Nat) : Bool := 0x18 ≤ f && f ≤ 0x1B

/-- A code that R37 does not reserve. -/
def fmtAssigned (f : Nat) : Bool := isInt f || (0x10 ≤ f && f ≤ 0x16) || isTbl f || f = fmtE8M0

/-- Formats of 8 bits or fewer to which the outlier path applies (R92). -/
def isNarrow8 (f : Nat) : Bool := isInt f || f = 0x10 || f = 0x11 || isTbl f

/-- Narrow formats of inter-module traffic (R24). -/
def isEdgeNarrow (f : Nat) : Bool := isInt f || f = 0x10 || f = 0x11 || f = 0x12 || isTbl f

/-- Width of an element in bits (R36, R85); 0 for a reserved code. -/
def fmtWidth (t : Tabs) (f : Nat) : Nat :=
  if isInt f then f + 1
  else if isTbl f then t.width (f - 0x18)
  else if f = fmtE8M0 then 8
  else match fpPar f with
    | some p => 1 + p.e + p.m
    | none => 0

/-- The bits of a floating-point format's largest finite value (R40): E4M3 0x7E, the others all but Inf. -/
def FpPar.maxBits (p : FpPar) : Nat :=
  if p.inf then (2 ^ p.e - 1) * 2 ^ p.m - 1 else 2 ^ (p.e + p.m) - 2

/-- The canonical NaN (R44): for floating point the quiet bit, for E4M3 0x7F, for E8M0 0xFF. -/
def canonNan (f : Nat) : Nat :=
  match fpPar f with
  | some p => if p.inf then (2 ^ p.e - 1) * 2 ^ p.m + 2 ^ (p.m - 1) else 2 ^ (p.e + p.m) - 1
  | none => 0xFF

/-- The exponent of the smallest normal. -/
def FpPar.emin (p : FpPar) : Int := 1 - p.bias

/-- The value of floating-point bits (R41). -/
def fpDecode (p : FpPar) (b : Nat) : Val :=
  let w := 1 + p.e + p.m
  let s : Bool := (b / 2 ^ (w - 1)) % 2 = 1
  let e := (b / 2 ^ p.m) % 2 ^ p.e
  let m := b % 2 ^ p.m
  let sg : Int := if s then -1 else 1
  if p.inf && e = 2 ^ p.e - 1 then (if m = 0 then .inf s else .nan)
  else if !p.inf && e = 2 ^ p.e - 1 && m = 2 ^ p.m - 1 then .nan
  else if e = 0 then (if m = 0 then .fin ⟨0, 0⟩ else .fin ⟨sg * m, p.emin - p.m⟩)
  else .fin ⟨sg * (2 ^ p.m + m : Nat), (e : Int) - p.bias - p.m⟩

/-- The value of a stored element (R38, R39, R41, R45, R47); −0 reads as +0 (R61). -/
def elemVal (t : Tabs) (f b : Nat) : Val :=
  if f = 0 then (if b % 2 = 0 then .fin ⟨-1, 0⟩ else .fin ⟨1, 0⟩)
  else if isInt f then .fin ⟨signed (f + 1) b, 0⟩
  else if isTbl f then .fin ⟨t.entry (f - 0x18) (b % 2 ^ t.width (f - 0x18)), -7⟩
  else if f = fmtE8M0 then (if b % 256 = 255 then .nan else .fin ⟨1, (b % 256 : Nat) - 127⟩)
  else match fpPar f with
    | some p => fpDecode p b
    | none => .nan

/-- The value of FP32 bits. -/
def f32Val (b : F32) : Val := fpDecode ⟨8, 23, 127, true⟩ b.toNat

/-- The value of FP64 bits. -/
def f64Val (b : W64) : Val := fpDecode ⟨11, 52, 1023, true⟩ b.toNat

/-- A converted element: its bits and what R70 counts for it. -/
structure Conv where
  bits : Nat
  sat  : Nat
  ovf  : Nat
  deriving DecidableEq, Repr

/-- A result of `bits` that counts nothing. -/
def Conv.plain (b : Nat) : Conv := ⟨b, 0, 0⟩

/-- The rounded magnitude of a positive real in a floating-point format as unsigned bits, before the range rule: the
quantum is 2^(max(exponent, emin) − m), a tie goes up (R50, R53). A value whose exponent alone is out of range is not
evaluated: far above it gives the bits after the largest finite, far below 0. -/
def FpPar.roundMag (p : FpPar) (x : Mag) : Nat :=
  if x.ex > (2 ^ p.e : Nat) then p.maxBits + 1
  else if x.ex < p.emin - p.m - 1 then 0
  else
    let e := max x.ex p.emin
    let r := ((x.fl (1 - (e - p.m))).1 + 1) / 2
    if r = 0 then 0 else (e - p.emin).toNat * 2 ^ p.m + r

/-- Conversion into a floating-point format (R53, R55, R57); `ovf` is the overflow mode (true: INF). -/
def fpConvert (f : Nat) (p : FpPar) (ovf : Bool) (x : XR) : Conv :=
  let sbit (n : Bool) := if n then 2 ^ (p.e + p.m) else 0
  match x with
  | .nan => .plain (canonNan f)
  | .inf n => if p.inf then .plain (sbit n + (p.maxBits + 1)) else ⟨sbit n + p.maxBits, 1, 0⟩
  | .zero _ => .plain 0
  | .num n m =>
    let b := p.roundMag m
    if b = 0 then .plain 0
    else if b > p.maxBits then
      if p.inf && ovf then ⟨sbit n + (p.maxBits + 1), 0, 1⟩ else ⟨sbit n + p.maxBits, 1, 0⟩
    else .plain (sbit n + b)

/-- Round an exact result to an integer, ties away (R50); magnitudes of 2^`lim` or more give 2^`lim`. -/
def roundInt (x : XR) (lim : Nat) : Int :=
  match x with
  | .num n m =>
    let r : Nat := if m.ex ≥ lim then 2 ^ lim else if m.ex < -1 then 0 else ((m.fl 1).1 + 1) / 2
    if n then -(r : Int) else r
  | .inf n => if n then -(2 ^ lim : Nat) else (2 ^ lim : Nat)
  | _ => 0

/-- Conversion into INTn (R57, R58, R64). -/
def intConvert (f : Nat) (x : XR) : Conv :=
  let n := f + 1
  match x with
  | .nan => .plain (if f = 0 then 1 else 0)
  | o =>
    if f = 0 then
      let neg : Bool := match o with
        | .num s _ => s
        | .inf s => s
        | _ => false
      ⟨if neg then 0 else 1, bnat (match o with
        | .inf _ => true
        | y => y.absGe 3 (-1)), 0⟩
    else
      let r := roundInt o 16
      let lo : Int := -(2 ^ (n - 1) : Nat)
      let hi : Int := (2 ^ (n - 1) : Nat) - 1
      let c := max lo (min hi r)
      ⟨unsigned n c, bnat (c != r), 0⟩

/-- Insert into a rising list without repeats. -/
def insertDistinct (x : Int) (l : List Int) : List Int :=
  match l with
  | [] => [x]
  | y :: r => if x < y then x :: y :: r else if x = y then y :: r else y :: insertDistinct x r

/-- The used entries of a slot (R45). -/
def Tabs.used (t : Tabs) (k : Nat) : List Int := (List.range (2 ^ t.width k)).map (t.entry k)

/-- The lowest used code that holds value v (R59). -/
def Tabs.codeOf (t : Tabs) (k : Nat) (v : Int) : Nat := ((t.used k).findIdx? (· = v)).getD 0

/-- Whether x lies at or beyond the midpoint of the adjacent table values a < b, a tie going to the larger magnitude and
between −v and +v to +v (R59). -/
def pastMid (x : XR) (a b : Int) : Bool :=
  let n := a + b
  match x with
  | .nan => false
  | .inf s => !s
  | .zero _ => n ≤ 0
  | .num s m =>
    if s then n < 0 && !((XR.num false m).absGe n.natAbs (-8))
    else n ≤ 0 || (XR.num false m).absGe n.natAbs (-8)

/-- The table value nearest to x among the rising values `best :: rest`. -/
def nearest (x : XR) (best : Int) (rest : List Int) : Int :=
  match rest with
  | [] => best
  | b :: r => if pastMid x best b then nearest x b r else best

/-- A positive real against v/128: `.lt`, `.eq` or `.gt`. -/
def magCmp (m : Mag) (v : Nat) : Ordering :=
  if m.ex ≥ 16 then .gt
  else if m.ex < -40 then (if v = 0 then .gt else .lt)
  else
    let q := m.fl 7
    if v < q.1 then .gt else if q.1 < v then .lt else if q.2 then .eq else .gt

/-- An exact result against the table value v/128 (R59). -/
def tabCmp (x : XR) (v : Int) : Ordering :=
  match x with
  | .nan => .eq
  | .inf n => if n then .lt else .gt
  | .zero _ => compare 0 v
  | .num n m =>
    if n then (if 0 ≤ v then .lt else (magCmp m v.natAbs).swap)
    else if v < 0 then .gt else magCmp m v.natAbs

/-- Conversion into a TBL slot (R57, R59, R64). -/
def tblConvert (t : Tabs) (k : Nat) (x : XR) : Conv :=
  let vs := (t.used k).foldl (fun l v => insertDistinct v l) []
  let lo := vs.headD 0
  let hi := vs.getLastD 0
  match x with
  | .nan => .plain 0
  | o => ⟨t.codeOf k (nearest o lo (vs.drop 1)), bnat (tabCmp o lo = .lt || tabCmp o hi = .gt), 0⟩

/-- Conversion into E8M0 (R57, R60). -/
def e8m0Convert (x : XR) : Conv :=
  match x with
  | .nan => .plain 0xFF
  | .inf _ => ⟨0xFE, 1, 0⟩
  | .zero _ => ⟨0, 1, 0⟩
  | .num _ m =>
    let k := if m.ex > 200 || m.ex < -200 then m.ex else if 3 ≤ (m.fl (1 - m.ex)).1 then m.ex + 1 else m.ex
    if k > 127 then ⟨0xFE, 1, 0⟩ else if k < -127 then ⟨0, 1, 0⟩ else .plain (k + 127).toNat

/-- The conversion of an exact result into format `f`, rounded once (R51-R60, R64). -/
def convert (t : Tabs) (ovf : Bool) (f : Nat) (x : XR) : Conv :=
  if isInt f then intConvert f x
  else if isTbl f then tblConvert t (f - 0x18) x
  else if f = fmtE8M0 then e8m0Convert x
  else match fpPar f with
    | some p => fpConvert f p ovf x
    | none => .plain 0

/-- Conversion into FP32. -/
def toF32 (ovf : Bool) (x : XR) : Conv := fpConvert fmtFP32 ⟨8, 23, 127, true⟩ ovf x

/-- maxfinite of R83. -/
def maxfinite (t : Tabs) (f : Nat) : Dy :=
  if f = 0 then ⟨1, 0⟩
  else if isInt f then ⟨(2 ^ f : Nat) - 1, 0⟩
  else if isTbl f then
    let v := (t.used (f - 0x18)).foldl (fun a e => max a e.natAbs) 0
    if v = 0 then ⟨1, -7⟩ else ⟨v, -7⟩
  else match fpPar f with
    | some p => (match fpDecode p p.maxBits with
      | .fin d => d
      | _ => ⟨1, 0⟩)
    | none => ⟨1, 127⟩

/-- choose_scale of R82 for a magnitude `amax` (R83: maxfinite as given). -/
def chooseScale (amax mf : Dy) : Int :=
  if amax.m = 0 then 0
  else
    let s := amax.ex - mf.ex
    let s := if mf.lt (amax.scale (-s)) then s + 1 else s
    min (max s (-127)) 127

/-- The larger of two magnitudes. -/
def Dy.max2 (a b : Dy) : Dy := if a.lt b then b else a

/-- The largest finite magnitude of a list of values (R84). -/
def amaxOf (l : List Val) : Dy :=
  l.foldl (fun a v => match v with
    | .fin d => a.max2 d.abs
    | _ => a) ⟨0, 0⟩

/-- The fields of the group code (R76). -/
structure Grp where
  rowscale : Bool
  share    : Nat
  dir      : Bool
  gsize    : Nat
  deriving DecidableEq, Repr

def Grp.ofCode (g : Nat) : Grp :=
  ⟨bitsOf g 7 7 = 1, bitsOf g 6 4, bitsOf g 3 3 = 1, bitsOf g 2 0⟩

/-- Block length S across (R76). -/
def Grp.s (g : Grp) : Nat := 2 ^ g.share

/-- Block length G along, 0 for none (R76). -/
def Grp.g (g : Grp) : Nat := 32 * g.gsize

/-- A group code without reserved codes and with none alone (R77). -/
def Grp.codeOk (g : Grp) : Bool :=
  g.share ≤ 5 && g.gsize ≤ 4 && (g.gsize != 0 || (g.share = 0 && !g.dir))

end Sys2Proof
end

