-- ==== Sys2Proof/Machine/RegMap.lean ====
section
/-! DEFINITION. The CSR map (R425): the block bases, every register's place, access codes and reset value (R6-R9), its
address and its fields. -/

namespace Sys2Proof

/-- The CSR blocks (R425). -/
inductive Blk where
  | panel | die | cell | hzn | stk | part | mgmt
  deriving DecidableEq, Repr

/-- Base of DIE[d]. -/
def dieBase (d : Nat) : Nat := 0x01000000 + d * 0x00100000
/-- Base of CELL[d.s]. -/
def cellBase (c : CellId) : Nat := 0x10000000 + c.die.val * 0x00800000 + c.slot.val * 0x00010000
/-- Base of HZN[h]. -/
def hznBase (h : Nat) : Nat := 0x20000000 + h * 0x01000000
/-- Base of STK[n]. -/
def stkBase (n : Nat) : Nat := 0x30000000 + n * 0x00100000
/-- Base of PART[p]. -/
def partBase (p : Nat) : Nat := 0x38000000 + p * 0x00010000
/-- Base of MGMT. -/
def mgmtBase : Nat := 0x40000000

/-- A register of a block: offset of its first instance, the (stride, count) of each index, the masks of its RW, W1C,
W1S, WO and non-reserved RO bits, its reset value with every "fuse" and "cfg" field 0 (R7, R9), whether it is a counter
(R70), and whether its own chapter lets only the management plane write it (R352, R411, R419). -/
structure RegRow where
  blk   : Blk
  off   : Nat
  dims  : List (Nat × Nat)
  rw    : Nat
  w1c   : Nat
  w1s   : Nat
  wo    : Nat
  ro    : Nat
  reset : Nat
  cnt   : Bool
  mgmt  : Bool
  deriving DecidableEq, Repr

/-- The registers of PANEL. -/
def panelRows : List RegRow := [
  ⟨.panel, 0x0, [], 0x0, 0x0, 0x0, 0x0, 0xFFFFFFFFFFFFFF00, 0x5A17102402410100, false, false⟩,
  ⟨.panel, 0x8, [], 0x0, 0x0, 0x0, 0x0, 0xFFFFFFFFFFFFFFFF, 0x0, false, false⟩,
  ⟨.panel, 0x10, [], 0xFFFFFFFF, 0x0, 0x0, 0x0, 0x0, 0x0, false, false⟩,
  ⟨.panel, 0x100, [], 0xFFFFFFFFFFFF, 0x0, 0x0, 0x0, 0x0, 0x4032000A1BE4, false, false⟩,
  ⟨.panel, 0x108, [], 0xFFFFFFFFFFFFFFFF, 0x0, 0x0, 0x0, 0x0, 0x0, true, false⟩,
  ⟨.panel, 0x110, [], 0xFFFFFFFFFFFFFFFF, 0x0, 0x0, 0x0, 0x0, 0x0, true, false⟩,
  ⟨.panel, 0x200, [], 0xFF00FF03FFFFFFFF, 0x0, 0x0, 0x0, 0x0, 0x640000000000, false, false⟩,
  ⟨.panel, 0x208, [], 0x0, 0x0, 0x0, 0x0, 0xFF800000FFFFFFFF, 0x0, false, false⟩,
  ⟨.panel, 0x210, [], 0x0, 0x0, 0x0, 0x0, 0xFFFFFFFFFFFFFFFF, 0x0, false, false⟩,
  ⟨.panel, 0x218, [], 0xFFFFFFFFFFFFFFFF, 0x0, 0x0, 0x0, 0x0, 0x0, true, false⟩,
  ⟨.panel, 0x220, [], 0xFFFFFFFFFFFFFFFF, 0x0, 0x0, 0x0, 0x0, 0x0, true, false⟩,
  ⟨.panel, 0x300, [], 0xFFFFFFFFFFFFFFFF, 0x0, 0x0, 0x0, 0x0, 0x100000000100000, false, false⟩,
  ⟨.panel, 0x308, [], 0xFFFFFFFFFFFFFFFF, 0x0, 0x0, 0x0, 0x0, 0x20000000010000, false, false⟩,
  ⟨.panel, 0x310, [], 0xFFFFFFFFFFFFFFFF, 0x0, 0x0, 0x0, 0x0, 0x40000000040000, false, false⟩,
  ⟨.panel, 0x318, [], 0xFFFFFFFFFFFFFFFF, 0x0, 0x0, 0x0, 0x0, 0x80000000080000, false, false⟩,
  ⟨.panel, 0x320, [], 0xFFFFFFFFFFFFFFFF, 0x0, 0x0, 0x0, 0x0, 0x10000000010000, false, false⟩,
  ⟨.panel, 0x340, [], 0xFFFFFFFFFFFFFFFF, 0x0, 0x0, 0x0, 0x0, 0x0, true, false⟩,
  ⟨.panel, 0x348, [], 0xFFFFFFFFFFFFFFFF, 0x0, 0x0, 0x0, 0x0, 0x0, true, false⟩,
  ⟨.panel, 0x350, [], 0xFFFFFFFFFFFFFFFF, 0x0, 0x0, 0x0, 0x0, 0x0, true, false⟩,
  ⟨.panel, 0x358, [], 0xFFFFFFFFFFFFFFFF, 0x0, 0x0, 0x0, 0x0, 0x0, true, false⟩,
  ⟨.panel, 0x360, [], 0xFFFFFFFFFFFFFFFF, 0x0, 0x0, 0x0, 0x0, 0x0, true, false⟩,
  ⟨.panel, 0x368, [], 0xFFFFFFFFFFFFFFFF, 0x0, 0x0, 0x0, 0x0, 0x0, true, false⟩,
  ⟨.panel, 0x400, [], 0x0, 0x0, 0x0, 0x0, 0xFFFFFFFFFFFF0001, 0x445C00000000, false, false⟩,
  ⟨.panel, 0x410, [], 0xFFFFFFFFFFFFFFFF, 0x0, 0x0, 0x0, 0x0, 0x0, true, false⟩
] ++ [
  ⟨.panel, 0x418, [], 0xFFFFFFFFFFFFFFFF, 0x0, 0x0, 0x0, 0x0, 0x0, true, false⟩,
  ⟨.panel, 0x400000, [(64, 1024)], 0xC0FFFFFFFFFFFFFF, 0x0, 0x0, 0x0, 0x3F00000000000000, 0x0, false, false⟩,
  ⟨.panel, 0x400008, [(64, 1024)], 0xFFFFFFFFFFFFFFFF, 0x0, 0x0, 0x0, 0x0, 0x0, false, false⟩,
  ⟨.panel, 0x400010, [(64, 1024)], 0xFFFFFFFFFFFFFFFF, 0x0, 0x0, 0x0, 0x0, 0x0, false, false⟩,
  ⟨.panel, 0x400018, [(64, 1024)], 0xFFFFFFFFFFFF, 0x0, 0x0, 0x0, 0x0, 0x0, false, false⟩,
  ⟨.panel, 0x400020, [(64, 1024)], 0xFFFF, 0x0, 0x0, 0x0, 0x0, 0x0, false, false⟩,
  ⟨.panel, 0x400028, [(64, 1024)], 0x0, 0x0, 0x0, 0x0, 0xFFFFFFFFFFFFFFFF, 0x0, false, false⟩,
  ⟨.panel, 0x400030, [(64, 1024)], 0xFFFFFFFFFFFFFFFF, 0x0, 0x0, 0x0, 0x0, 0x0, false, false⟩,
  ⟨.panel, 0x400038, [(64, 1024)], 0x0, 0x0, 0x0, 0x0, 0xFFFFFFFFFFFFFFFF, 0x0, false, false⟩,
  ⟨.panel, 0x500000, [(32, 4096)], 0xC0C0000000000000, 0x0, 0x0, 0x0, 0x3F000FFF00000000, 0x0, false, false⟩,
  ⟨.panel, 0x500008, [(32, 4096)], 0xFFFFFFFFFFFF, 0x0, 0x0, 0x0, 0x0, 0x0, false, false⟩,
  ⟨.panel, 0x500010, [(32, 4096)], 0xFFFFFFFFFFFF, 0x0, 0x0, 0x0, 0x0, 0x0, false, false⟩
]

/-- The registers of DIE. -/
def dieRows : List RegRow := [
  ⟨.die, 0x10, [], 0x0, 0x0, 0x0, 0x0, 0xFFFFFFFFFFFFFFFF, 0x0, false, false⟩,
  ⟨.die, 0x18, [], 0x0, 0x0, 0x0, 0x0, 0xFFFFFFFFFFFFFFFF, 0x0, false, false⟩,
  ⟨.die, 0x20, [], 0x0, 0x0, 0x0, 0x0, 0xF, 0x0, false, false⟩,
  ⟨.die, 0x40, [(8, 8)], 0x0, 0x0, 0x0, 0x0, 0xFFFFFFFFFFFFFFFF, 0x0, false, false⟩,
  ⟨.die, 0x200, [], 0xFFFFFFFFFFFFFFFF, 0x0, 0x0, 0x0, 0x0, 0x0, true, false⟩,
  ⟨.die, 0x208, [], 0xFFFFFFFFFFFFFFFF, 0x0, 0x0, 0x0, 0x0, 0x0, true, false⟩,
  ⟨.die, 0x210, [], 0xFFFFFFFFFFFFFFFF, 0x0, 0x0, 0x0, 0x0, 0x0, true, false⟩,
  ⟨.die, 0x218, [], 0xFFFFFFFFFFFFFFFF, 0x0, 0x0, 0x0, 0x0, 0x0, true, false⟩,
  ⟨.die, 0x220, [], 0xFFFFFFFFFFFFFFFF, 0x0, 0x0, 0x0, 0x0, 0x0, true, false⟩,
  ⟨.die, 0x228, [], 0xFFFFFFFFFFFFFFFF, 0x0, 0x0, 0x0, 0x0, 0x0, true, false⟩,
  ⟨.die, 0x230, [], 0xFFFFFFFFFFFFFFFF, 0x0, 0x0, 0x0, 0x0, 0x0, true, false⟩,
  ⟨.die, 0x300, [], 0xFFFFFFFFFFFFFFFF, 0x0, 0x0, 0x0, 0x0, 0x0, true, false⟩,
  ⟨.die, 0x308, [], 0xFFFFFFFFFFFFFFFF, 0x0, 0x0, 0x0, 0x0, 0x0, true, false⟩,
  ⟨.die, 0x400, [(64, 4)], 0x0, 0x0, 0x0, 0x0, 0xE3FC0000FFFFFFFF, 0x0, false, false⟩,
  ⟨.die, 0x408, [(64, 4)], 0xFFFFFFFFFFFFFFFF, 0x0, 0x0, 0x0, 0x0, 0x0, true, false⟩,
  ⟨.die, 0x410, [(64, 4)], 0xFFFFFFFFFFFFFFFF, 0x0, 0x0, 0x0, 0x0, 0x0, true, false⟩,
  ⟨.die, 0x418, [(64, 4)], 0xFFFFFFFFFFFFFFFF, 0x0, 0x0, 0x0, 0x0, 0x0, true, false⟩,
  ⟨.die, 0x420, [(64, 4)], 0xFFFFFFFFFFFFFFFF, 0x0, 0x0, 0x0, 0x0, 0x0, true, false⟩,
  ⟨.die, 0x428, [(64, 4)], 0xFFFFFFFFFFFFFFFF, 0x0, 0x0, 0x0, 0x0, 0x0, true, false⟩,
  ⟨.die, 0x80000, [(128, 1024)], 0x0, 0x0, 0x0, 0x0, 0xFFFFFFFFFFFFFFFF, 0x0, false, false⟩,
  ⟨.die, 0x80008, [(128, 1024)], 0x0, 0x0, 0x0, 0x0, 0xFFFFFFFFFFFFFFFF, 0x0, false, false⟩,
  ⟨.die, 0x80010, [(128, 1024)], 0x0, 0x0, 0x0, 0x0, 0xFFFFFFFFFFFFFFFF, 0x0, false, false⟩,
  ⟨.die, 0x80018, [(128, 1024)], 0x0, 0x0, 0x0, 0x0, 0xFFFFFFFFFFFFFFFF, 0x0, false, false⟩,
  ⟨.die, 0x80020, [(128, 1024)], 0x0, 0x0, 0x0, 0x0, 0xFFFFFFFFFFFFFFFF, 0x0, false, false⟩
] ++ [
  ⟨.die, 0x80028, [(128, 1024)], 0x0, 0x0, 0x0, 0x0, 0xFFFFFFFFFFFFFFFF, 0x0, false, false⟩,
  ⟨.die, 0x80030, [(128, 1024)], 0x0, 0x0, 0x0, 0x0, 0xFFFFFFFFFFFFFFFF, 0x0, false, false⟩,
  ⟨.die, 0x80038, [(128, 1024)], 0x0, 0x0, 0x0, 0x0, 0xFFFFFFFFFFFFFFFF, 0x0, false, false⟩,
  ⟨.die, 0x80040, [(128, 1024)], 0xFFFFFFF000000000, 0x0, 0x0, 0x0, 0x0, 0x1303F00000000000, false, false⟩,
  ⟨.die, 0x80048, [(128, 1024)], 0x0, 0x0, 0x0, 0x0, 0xFFFFFFFFFFFFFFF8, 0xF000, false, false⟩,
  ⟨.die, 0x80050, [(128, 1024)], 0x0, 0x0, 0x0, 0x0, 0xFFFFFFFFFFFFFFFF, 0x0, false, false⟩,
  ⟨.die, 0x80058, [(128, 1024)], 0x0, 0x0, 0x0, 0x0, 0xFFFFFFFFFFFFFFFF, 0x0, false, false⟩,
  ⟨.die, 0x80060, [(128, 1024)], 0x0, 0x0, 0x0, 0x0, 0xFFFFFFFFFFFFFFFF, 0x0, false, false⟩,
  ⟨.die, 0x80068, [(128, 1024)], 0xFFFFFFFFFFFFFFFF, 0x0, 0x0, 0x0, 0x0, 0x0, false, false⟩,
  ⟨.die, 0x80070, [(128, 1024)], 0xFFFFFFFFFFFFFFFF, 0x0, 0x0, 0x0, 0x0, 0x0, false, false⟩,
  ⟨.die, 0x80078, [(128, 1024)], 0xFFFFFFFFFFFFFFFF, 0x0, 0x0, 0x0, 0x0, 0x0, false, false⟩,
  ⟨.die, 0xC0000, [(128, 2048)], 0xFFFFFFFFF001FFFF, 0x0, 0x0, 0x0, 0x0, 0x57FFFF000000000, false, false⟩,
  ⟨.die, 0xC0008, [(128, 2048)], 0xFFFFFFFFFFFF, 0x0, 0x0, 0x0, 0x0, 0x0, false, false⟩,
  ⟨.die, 0xC0010, [(128, 2048)], 0xFFFFFFFFFFFF, 0x0, 0x0, 0x0, 0x0, 0x0, false, false⟩,
  ⟨.die, 0xC0018, [(128, 2048)], 0xFFFFFFFFFFFF, 0x0, 0x0, 0x0, 0x0, 0x0, false, false⟩,
  ⟨.die, 0xC0020, [(128, 2048)], 0xFFFFFFFFFFFF, 0x0, 0x0, 0x0, 0x0, 0x0, false, false⟩,
  ⟨.die, 0xC0028, [(128, 2048)], 0xFFFFFFFFFFFF, 0x0, 0x0, 0x0, 0x0, 0x0, false, false⟩,
  ⟨.die, 0xC0030, [(128, 2048)], 0xFFFFFFFFFFFF, 0x0, 0x0, 0x0, 0x0, 0x0, false, false⟩,
  ⟨.die, 0xC0038, [(128, 2048)], 0xFFFFFFFFFFFFFF00, 0x0, 0x0, 0x0, 0x1, 0x0, false, false⟩,
  ⟨.die, 0xC0040, [(128, 2048)], 0xFFFFFFFFFFFFFFFF, 0x0, 0x0, 0x0, 0x0, 0x0, false, false⟩,
  ⟨.die, 0xC0048, [(128, 2048)], 0xFFFFFFFFFFFFFFFF, 0x0, 0x0, 0x0, 0x0, 0x0, false, false⟩,
  ⟨.die, 0xC0050, [(128, 2048)], 0xFFFFFFFFFFFFFFFF, 0x0, 0x0, 0x0, 0x0, 0x0, false, false⟩,
  ⟨.die, 0xC0058, [(128, 2048)], 0xFFFFFFFFFFFFFFFF, 0x0, 0x0, 0x0, 0x0, 0x0, false, false⟩,
  ⟨.die, 0xC0060, [(128, 2048)], 0x0, 0x0, 0x0, 0x0, 0x0, 0x0, false, false⟩
] ++ [
  ⟨.die, 0xC0068, [(128, 2048)], 0x0, 0x0, 0x0, 0x0, 0x0, 0x0, false, false⟩,
  ⟨.die, 0xC0070, [(128, 2048)], 0x0, 0x0, 0x0, 0x0, 0x0, 0x0, false, false⟩,
  ⟨.die, 0xC0078, [(128, 2048)], 0x0, 0x0, 0x0, 0x0, 0x0, 0x0, false, false⟩
]

/-- The registers of CELL. -/
def cellRows : List RegRow := [
  ⟨.cell, 0x0, [], 0x0, 0x0, 0x0, 0x0, 0x1FFFFFFFFFF, 0x0, false, false⟩,
  ⟨.cell, 0x100, [], 0xFFFFFFFFFFFFFFFF, 0x0, 0x0, 0x0, 0x0, 0x0, true, false⟩,
  ⟨.cell, 0x108, [], 0xFFFFFFFFFFFFFFFF, 0x0, 0x0, 0x0, 0x0, 0x0, true, false⟩,
  ⟨.cell, 0x110, [], 0xFFFFFFFFFFFFFFFF, 0x0, 0x0, 0x0, 0x0, 0x0, true, false⟩,
  ⟨.cell, 0x118, [], 0xFFFFFFFFFFFFFFFF, 0x0, 0x0, 0x0, 0x0, 0x0, true, false⟩,
  ⟨.cell, 0x120, [], 0xFFFFFFFFFFFFFFFF, 0x0, 0x0, 0x0, 0x0, 0x0, true, false⟩,
  ⟨.cell, 0x128, [], 0xFFFFFFFFFFFFFFFF, 0x0, 0x0, 0x0, 0x0, 0x0, true, false⟩,
  ⟨.cell, 0x130, [], 0xFFFFFFFFFFFFFFFF, 0x0, 0x0, 0x0, 0x0, 0x0, true, false⟩,
  ⟨.cell, 0x140, [], 0xFF, 0x0, 0x0, 0x0, 0x0, 0x11, false, false⟩,
  ⟨.cell, 0x180, [], 0xFF, 0x0, 0x0, 0x0, 0x0, 0xFF, false, false⟩,
  ⟨.cell, 0x190, [], 0xFFFFFFFFFFFFFFFF, 0x0, 0x0, 0x0, 0x0, 0xFCF4EADED0BEA681, false, false⟩,
  ⟨.cell, 0x198, [], 0xFFFFFFFFFFFFFFFF, 0x0, 0x0, 0x0, 0x0, 0x7F503726190E0500, false, false⟩,
  ⟨.cell, 0x1A0, [], 0xFFFFFFFFFFFFFFFF, 0x0, 0x0, 0x0, 0x0, 0x0, false, false⟩,
  ⟨.cell, 0x1A8, [], 0xFFFFFFFFFFFFFFFF, 0x0, 0x0, 0x0, 0x0, 0x0, false, false⟩,
  ⟨.cell, 0x1B0, [], 0xFFFFFFFFFFFFFFFF, 0x0, 0x0, 0x0, 0x0, 0x0, false, false⟩,
  ⟨.cell, 0x1B8, [], 0xFFFFFFFFFFFFFFFF, 0x0, 0x0, 0x0, 0x0, 0x0, false, false⟩,
  ⟨.cell, 0x1C0, [], 0xFFFFFFFFFFFFFFFF, 0x0, 0x0, 0x0, 0x0, 0x0, false, false⟩,
  ⟨.cell, 0x1C8, [], 0xFFFFFFFFFFFFFFFF, 0x0, 0x0, 0x0, 0x0, 0x0, false, false⟩,
  ⟨.cell, 0x400, [], 0x0, 0x0, 0x0, 0x0, 0xFF, 0x0, false, false⟩,
  ⟨.cell, 0x408, [], 0xFFF, 0x0, 0x0, 0x0, 0x0, 0x40, false, false⟩,
  ⟨.cell, 0x410, [], 0xFFFFFFFFFFFFFFFF, 0x0, 0x0, 0x0, 0x0, 0x0, true, false⟩,
  ⟨.cell, 0x418, [], 0xFFFFFFFFFFFFFFFF, 0x0, 0x0, 0x0, 0x0, 0x0, true, false⟩,
  ⟨.cell, 0x420, [], 0xFFFFFFFFFFFFFFFF, 0x0, 0x0, 0x0, 0x0, 0x0, true, false⟩,
  ⟨.cell, 0x428, [], 0xFFFFFFFFFFFFFFFF, 0x0, 0x0, 0x0, 0x0, 0x0, true, false⟩
] ++ [
  ⟨.cell, 0x430, [], 0xFFFFFFFFFFFFFFFF, 0x0, 0x0, 0x0, 0x0, 0x0, true, false⟩,
  ⟨.cell, 0x438, [], 0xFFFFFFFFFFFFFFFF, 0x0, 0x0, 0x0, 0x0, 0x0, true, false⟩,
  ⟨.cell, 0x440, [], 0xFFFFFFFFFFFFFFFF, 0x0, 0x0, 0x0, 0x0, 0x0, true, false⟩,
  ⟨.cell, 0x448, [], 0xFFFFFFFFFFFFFFFF, 0x0, 0x0, 0x0, 0x0, 0x0, true, false⟩,
  ⟨.cell, 0x500, [], 0x0, 0x0, 0x0, 0x0, 0x3FF, 0x0, false, false⟩,
  ⟨.cell, 0x508, [], 0xFFF, 0x0, 0x0, 0x0, 0x0, 0x40, false, false⟩,
  ⟨.cell, 0x510, [], 0xFFFFFFFFFFFFFFFF, 0x0, 0x0, 0x0, 0x0, 0x0, true, false⟩,
  ⟨.cell, 0x518, [], 0xFFFFFFFFFFFFFFFF, 0x0, 0x0, 0x0, 0x0, 0x0, true, false⟩,
  ⟨.cell, 0x520, [], 0xFFFFFFFFFFFFFFFF, 0x0, 0x0, 0x0, 0x0, 0x0, true, false⟩,
  ⟨.cell, 0x528, [], 0xFFFFFFFFFFFFFFFF, 0x0, 0x0, 0x0, 0x0, 0x0, true, false⟩,
  ⟨.cell, 0x530, [], 0xFFFFFFFFFFFFFFFF, 0x0, 0x0, 0x0, 0x0, 0x0, true, false⟩,
  ⟨.cell, 0x538, [], 0xFFFFFFFFFFFFFFFF, 0x0, 0x0, 0x0, 0x0, 0x0, true, false⟩,
  ⟨.cell, 0x540, [], 0xFFFFFFFFFFFFFFFF, 0x0, 0x0, 0x0, 0x0, 0x0, true, false⟩,
  ⟨.cell, 0x548, [], 0xFFFFFFFFFFFFFFFF, 0x0, 0x0, 0x0, 0x0, 0x0, true, false⟩,
  ⟨.cell, 0x550, [], 0xFFFFFFFFFFFFFFFF, 0x0, 0x0, 0x0, 0x0, 0x0, true, false⟩,
  ⟨.cell, 0x558, [], 0xFFFFFFFFFFFFFFFF, 0x0, 0x0, 0x0, 0x0, 0x0, true, false⟩,
  ⟨.cell, 0x600, [], 0xFFFFFFFFFFFFFFFF, 0x0, 0x0, 0x0, 0x0, 0x0, true, false⟩,
  ⟨.cell, 0x608, [], 0xFFFFFFFFFFFFFFFF, 0x0, 0x0, 0x0, 0x0, 0x0, true, false⟩,
  ⟨.cell, 0x700, [], 0xFFFFFFFFFFFFFFFF, 0x0, 0x0, 0x0, 0x0, 0x0, true, false⟩,
  ⟨.cell, 0x708, [], 0xFFFFFFFFFFFFFFFF, 0x0, 0x0, 0x0, 0x0, 0x0, true, false⟩,
  ⟨.cell, 0x710, [], 0xFFFFFFFFFFFFFFFF, 0x0, 0x0, 0x0, 0x0, 0x0, true, false⟩,
  ⟨.cell, 0x718, [], 0xFFFFFFFFFFFFFFFF, 0x0, 0x0, 0x0, 0x0, 0x0, true, false⟩,
  ⟨.cell, 0x720, [], 0xFFFFFFFFFFFFFFFF, 0x0, 0x0, 0x0, 0x0, 0x0, true, false⟩,
  ⟨.cell, 0x780, [], 0xFFFFFFFFFFFFFFFF, 0x0, 0x0, 0x0, 0x0, 0x0, true, false⟩
] ++ [
  ⟨.cell, 0x788, [], 0xFFFFFFFFFFFFFFFF, 0x0, 0x0, 0x0, 0x0, 0x0, true, false⟩,
  ⟨.cell, 0x790, [], 0xFFFFFFFFFFFFFFFF, 0x0, 0x0, 0x0, 0x0, 0x0, true, false⟩,
  ⟨.cell, 0x798, [], 0xFFFFFFFFFFFFFFFF, 0x0, 0x0, 0x0, 0x0, 0x0, true, false⟩,
  ⟨.cell, 0x800, [], 0x0, 0x0, 0x0, 0x0, 0xFC3FFFFFFFFFFFFF, 0x0, false, false⟩,
  ⟨.cell, 0x808, [], 0xFFFFFFFFFFFFFFFF, 0x0, 0x0, 0x0, 0x0, 0x0, true, false⟩,
  ⟨.cell, 0x810, [], 0xFFFFFFFFFFFFFFFF, 0x0, 0x0, 0x0, 0x0, 0x0, true, false⟩,
  ⟨.cell, 0x818, [], 0xFFFFFFFFFFFFFFFF, 0x0, 0x0, 0x0, 0x0, 0x0, true, false⟩,
  ⟨.cell, 0x820, [], 0xFFFFFFFFFFFFFFFF, 0x0, 0x0, 0x0, 0x0, 0x0, true, false⟩,
  ⟨.cell, 0x828, [], 0xFFFFFFFFFFFFFFFF, 0x0, 0x0, 0x0, 0x0, 0x0, true, false⟩,
  ⟨.cell, 0x830, [], 0xFFFFFFFFFFFFFFFF, 0x0, 0x0, 0x0, 0x0, 0x0, true, false⟩,
  ⟨.cell, 0x838, [], 0x0, 0x0, 0x0, 0x0, 0xFFFFFFFFFFFFFFFF, 0x0, false, false⟩,
  ⟨.cell, 0x900, [(8, 8)], 0xFFFFFFFFFFFFFFFF, 0x0, 0x0, 0x0, 0x0, 0x0, true, false⟩,
  ⟨.cell, 0x940, [], 0xFFFFFFFFFFFFFFFF, 0x0, 0x0, 0x0, 0x0, 0x0, true, false⟩,
  ⟨.cell, 0x948, [], 0xFFFFFFFFFFFFFFFF, 0x0, 0x0, 0x0, 0x0, 0x0, true, false⟩,
  ⟨.cell, 0x950, [], 0xFFFFFFFFFFFFFFFF, 0x0, 0x0, 0x0, 0x0, 0x0, true, false⟩,
  ⟨.cell, 0x958, [], 0xFFFFFFFFFFFFFFFF, 0x0, 0x0, 0x0, 0x0, 0x0, true, false⟩,
  ⟨.cell, 0x960, [], 0xFFFFFFFFFFFFFFFF, 0x0, 0x0, 0x0, 0x0, 0x0, true, false⟩,
  ⟨.cell, 0x968, [], 0xFFFFFFFFFFFFFFFF, 0x0, 0x0, 0x0, 0x0, 0x0, true, false⟩,
  ⟨.cell, 0x970, [], 0xFFFFFFFFFFFFFFFF, 0x0, 0x0, 0x0, 0x0, 0x0, true, false⟩,
  ⟨.cell, 0x978, [], 0xFFFFFFFFFFFFFFFF, 0x0, 0x0, 0x0, 0x0, 0x0, true, false⟩,
  ⟨.cell, 0x980, [], 0x1FFFF, 0x0, 0x20000, 0x0, 0x0, 0x100A7, false, true⟩,
  ⟨.cell, 0x988, [], 0x0, 0x0, 0x0, 0x0, 0xFFFF0000FFFFFFFF, 0x0, false, false⟩,
  ⟨.cell, 0x990, [], 0x0, 0x8000000000000000, 0x0, 0x0, 0x400000007FFFFFFF, 0x0, false, false⟩,
  ⟨.cell, 0xA00, [(16, 48)], 0x0, 0x0, 0x0, 0x0, 0xFFFFFFFFFFFFFFFF, 0x0, false, true⟩
] ++ [
  ⟨.cell, 0xA08, [(16, 48)], 0x0, 0x0, 0x0, 0x0, 0xFFFF, 0x0, false, true⟩,
  ⟨.cell, 0xD00, [], 0x0, 0x0, 0x0, 0x0, 0x1, 0x0, false, false⟩,
  ⟨.cell, 0xD08, [], 0xFFFFFFFFFFFFFFFF, 0x0, 0x0, 0x0, 0x0, 0x0, true, false⟩,
  ⟨.cell, 0xE00, [], 0xFFFF, 0x0, 0x0, 0x0, 0x0, 0x0, false, false⟩,
  ⟨.cell, 0xE08, [], 0xFFFFFFFFFFFFFFFF, 0x0, 0x0, 0x0, 0x0, 0x0, false, false⟩
]

/-- The registers of HZN. -/
def hznRows : List RegRow := [
  ⟨.hzn, 0x400, [(64, 4)], 0x0, 0x0, 0x0, 0x0, 0xE3FC0000FFFFFFFF, 0x0, false, false⟩,
  ⟨.hzn, 0x408, [(64, 4)], 0xFFFFFFFFFFFFFFFF, 0x0, 0x0, 0x0, 0x0, 0x0, true, false⟩,
  ⟨.hzn, 0x410, [(64, 4)], 0xFFFFFFFFFFFFFFFF, 0x0, 0x0, 0x0, 0x0, 0x0, true, false⟩,
  ⟨.hzn, 0x418, [(64, 4)], 0xFFFFFFFFFFFFFFFF, 0x0, 0x0, 0x0, 0x0, 0x0, true, false⟩,
  ⟨.hzn, 0x420, [(64, 4)], 0xFFFFFFFFFFFFFFFF, 0x0, 0x0, 0x0, 0x0, 0x0, true, false⟩,
  ⟨.hzn, 0x428, [(64, 4)], 0xFFFFFFFFFFFFFFFF, 0x0, 0x0, 0x0, 0x0, 0x0, true, false⟩,
  ⟨.hzn, 0x1000, [(256, 8)], 0xFFFF3F, 0x0, 0x0, 0x0, 0x0, 0x0, false, false⟩,
  ⟨.hzn, 0x1008, [(256, 8)], 0x0, 0x0, 0x0, 0x0, 0xFFFF, 0x0, false, false⟩,
  ⟨.hzn, 0x1040, [(256, 8), (32, 4)], 0xFFFFFFFFFFFF, 0x0, 0x0, 0x0, 0x0, 0x0, false, false⟩,
  ⟨.hzn, 0x1048, [(256, 8), (32, 4)], 0xFFFFFFFF, 0x0, 0x0, 0x0, 0x0, 0x0, false, false⟩,
  ⟨.hzn, 0x1050, [(256, 8), (32, 4)], 0xFFFFFFFFFFFFFFFF, 0x0, 0x0, 0x0, 0x0, 0x0, false, false⟩,
  ⟨.hzn, 0x1058, [(256, 8), (32, 4)], 0xFFFFFFFFFFFFFFFF, 0x0, 0x0, 0x0, 0x0, 0x0, false, false⟩,
  ⟨.hzn, 0x1800, [(256, 8), (64, 4)], 0xFFFFFFFFFFFFFFFF, 0x0, 0x0, 0x0, 0x0, 0x0, true, false⟩,
  ⟨.hzn, 0x1808, [(256, 8), (64, 4)], 0xFFFFFFFFFFFFFFFF, 0x0, 0x0, 0x0, 0x0, 0x0, true, false⟩,
  ⟨.hzn, 0x1810, [(256, 8), (64, 4)], 0xFFFFFFFFFFFFFFFF, 0x0, 0x0, 0x0, 0x0, 0x0, true, false⟩,
  ⟨.hzn, 0x1818, [(256, 8), (64, 4)], 0xFFFFFFFFFFFFFFFF, 0x0, 0x0, 0x0, 0x0, 0x0, true, false⟩,
  ⟨.hzn, 0x1820, [(256, 8), (64, 4)], 0xFFFFFFFFFFFFFFFF, 0x0, 0x0, 0x0, 0x0, 0x0, true, false⟩,
  ⟨.hzn, 0x1828, [(256, 8), (64, 4)], 0xFFFFFFFFFFFFFFFF, 0x0, 0x0, 0x0, 0x0, 0x0, true, false⟩,
  ⟨.hzn, 0x1830, [(256, 8), (64, 4)], 0xFFFFFFFFFFFFFFFF, 0x0, 0x0, 0x0, 0x0, 0x0, true, false⟩,
  ⟨.hzn, 0x1838, [(256, 8), (64, 4)], 0xFFFFFFFFFFFFFFFF, 0x0, 0x0, 0x0, 0x0, 0x0, true, false⟩,
  ⟨.hzn, 0x400000, [(16, 16384)], 0xFFFFFFFFFFFFFFFF, 0x0, 0x0, 0x0, 0x0, 0x0, false, false⟩,
  ⟨.hzn, 0x400008, [(16, 16384)], 0xFFFFFFFFFFFFFFFF, 0x0, 0x0, 0x0, 0x0, 0x0, false, false⟩,
  ⟨.hzn, 0x800000, [(32, 4096)], 0x20000000FFFFFFFF, 0x0, 0x0, 0x0, 0xC3FC000000000000, 0x0, false, false⟩,
  ⟨.hzn, 0x800008, [(32, 4096)], 0xFFFFFFFFFFFFFFFF, 0x0, 0x0, 0x0, 0x0, 0x0, false, false⟩
] ++ [
  ⟨.hzn, 0x800010, [(32, 4096)], 0xFFFFFFFFFFFFFFFF, 0x0, 0x0, 0x0, 0x0, 0x0, false, false⟩
]

/-- The registers of STK. -/
def stkRows : List RegRow := [
  ⟨.stk, 0x100, [(8, 16)], 0x0, 0x0, 0x0, 0x0, 0xFFFFFFFFFFFFFFFF, 0x0, false, false⟩,
  ⟨.stk, 0x180, [], 0x0, 0x0, 0x0, 0x0, 0xFFFF, 0x0, false, false⟩,
  ⟨.stk, 0x188, [], 0x7F, 0x0, 0x0, 0x80, 0xFC00000000000000, 0x0, false, false⟩,
  ⟨.stk, 0x200, [], 0xFFFFFFFFFFFFFFFF, 0x0, 0x0, 0x0, 0x0, 0x0, true, false⟩,
  ⟨.stk, 0x208, [], 0xFFFFFFFFFFFFFFFF, 0x0, 0x0, 0x0, 0x0, 0x0, true, false⟩,
  ⟨.stk, 0x210, [], 0xFFFFFFFFFFFFFFFF, 0x0, 0x0, 0x0, 0x0, 0x0, true, false⟩,
  ⟨.stk, 0x1000, [(8, 136)], 0xFFFFFFFFFFFFFFFF, 0x0, 0x0, 0x0, 0x0, 0x0, true, false⟩
]

/-- The registers of PART. -/
def partRows : List RegRow := [
  ⟨.part, 0x10, [], 0x0, 0x0, 0x0, 0x0, 0xFFFFFFFFFFE007FF, 0x0, false, true⟩,
  ⟨.part, 0x18, [], 0x0, 0x0, 0x0, 0x0, 0xFFFFFFFFFFFFFFF8, 0x0, false, true⟩,
  ⟨.part, 0x40, [], 0x0, 0x0, 0x0, 0x0, 0x1F7, 0x0, false, true⟩,
  ⟨.part, 0x48, [], 0x0, 0x0, 0x0, 0x0, 0x3FFFFFF03FFFFFF, 0x0, false, true⟩,
  ⟨.part, 0x80, [(24, 4)], 0xC00000FFFFFFFFFF, 0x0, 0x0, 0x0, 0x0, 0x0, false, true⟩,
  ⟨.part, 0x88, [(24, 4)], 0xFFFFFFFFFFFFFFFF, 0x0, 0x0, 0x0, 0x0, 0x0, false, true⟩,
  ⟨.part, 0x90, [(24, 4)], 0xFFFFFFFFFFFFFFFF, 0x0, 0x0, 0x0, 0x0, 0x0, false, true⟩,
  ⟨.part, 0x100, [], 0x1, 0x0, 0x0, 0x0, 0x0, 0x0, false, false⟩,
  ⟨.part, 0x108, [], 0x1, 0x0, 0x0, 0x0, 0x0, 0x0, false, false⟩,
  ⟨.part, 0x110, [], 0x1, 0x0, 0x0, 0x0, 0x0, 0x0, false, false⟩,
  ⟨.part, 0x120, [], 0xFF, 0x0, 0x0, 0x0, 0x0, 0xFF, false, false⟩,
  ⟨.part, 0x130, [], 0xFFFFFFFFFFFFFFFF, 0x0, 0x0, 0x0, 0x0, 0xFCF4EADED0BEA681, false, false⟩,
  ⟨.part, 0x138, [], 0xFFFFFFFFFFFFFFFF, 0x0, 0x0, 0x0, 0x0, 0x7F503726190E0500, false, false⟩,
  ⟨.part, 0x140, [], 0xFFFFFFFFFFFFFFFF, 0x0, 0x0, 0x0, 0x0, 0x0, false, false⟩,
  ⟨.part, 0x148, [], 0xFFFFFFFFFFFFFFFF, 0x0, 0x0, 0x0, 0x0, 0x0, false, false⟩,
  ⟨.part, 0x150, [], 0xFFFFFFFFFFFFFFFF, 0x0, 0x0, 0x0, 0x0, 0x0, false, false⟩,
  ⟨.part, 0x158, [], 0xFFFFFFFFFFFFFFFF, 0x0, 0x0, 0x0, 0x0, 0x0, false, false⟩,
  ⟨.part, 0x160, [], 0xFFFFFFFFFFFFFFFF, 0x0, 0x0, 0x0, 0x0, 0x0, false, false⟩,
  ⟨.part, 0x168, [], 0xFFFFFFFFFFFFFFFF, 0x0, 0x0, 0x0, 0x0, 0x0, false, false⟩,
  ⟨.part, 0x180, [(8, 16)], 0xFFFFFFFFFFFFFFFF, 0x0, 0x0, 0x0, 0x0, 0x0, false, false⟩,
  ⟨.part, 0x200, [], 0x0, 0x8000000000000000, 0x0, 0x0, 0x7FFFFFFFFF9FFFFF, 0x0, false, false⟩,
  ⟨.part, 0x208, [], 0x0, 0x0, 0x0, 0x0, 0xFFFFFFFFFFFF, 0x0, false, false⟩,
  ⟨.part, 0x210, [], 0x0, 0x0, 0x0, 0x0, 0xFFFFFFFFFFFFFFFF, 0x0, false, false⟩,
  ⟨.part, 0x218, [], 0x0, 0x0, 0x0, 0x0, 0xFFFFFFFFFFFFFFFF, 0x0, false, false⟩
] ++ [
  ⟨.part, 0x220, [], 0x0, 0x0, 0x0, 0x0, 0xFFFFFFFFFFFFF, 0x0, false, false⟩,
  ⟨.part, 0x228, [], 0x0, 0x0, 0x0, 0x0, 0xFFFFFFFFFFFFFFFF, 0x0, false, false⟩,
  ⟨.part, 0x230, [], 0x0, 0x0, 0x0, 0x0, 0xFFFFFFFFFFFFFFFF, 0x0, false, false⟩,
  ⟨.part, 0x300, [], 0x7FFF3FFF, 0x0, 0x0, 0x0, 0x0, 0x0, false, false⟩,
  ⟨.part, 0x308, [], 0xFF00FFF3, 0x0, 0x0, 0x0, 0x0, 0x8004081, false, false⟩,
  ⟨.part, 0x310, [], 0xFFFFFFFFFFFFFFFF, 0x0, 0x0, 0x0, 0x0, 0x10080001008040, false, false⟩,
  ⟨.part, 0x320, [], 0x3FFFFFF, 0x0, 0x0, 0x0, 0x0, 0x2013403, false, false⟩,
  ⟨.part, 0x328, [], 0x3FFFFFF, 0x0, 0x0, 0x0, 0x0, 0x2013491, false, false⟩,
  ⟨.part, 0x330, [], 0x3FFFFFF, 0x0, 0x0, 0x0, 0x0, 0x2013403, false, false⟩,
  ⟨.part, 0x338, [], 0x3FFFFFF, 0x0, 0x0, 0x0, 0x0, 0x2013491, false, false⟩,
  ⟨.part, 0x340, [], 0x0, 0x0, 0x0, 0x0, 0xE0FFFFFFFFFFFFFF, 0x0, false, false⟩,
  ⟨.part, 0x348, [], 0x0, 0x0, 0x0, 0x3, 0xFC00000000000000, 0x0, false, false⟩,
  ⟨.part, 0x350, [], 0xFFFFFFFFFFFF, 0x0, 0x0, 0x0, 0x0, 0x0, false, false⟩,
  ⟨.part, 0x360, [], 0xFFFFFFFFFFFFFFFF, 0x0, 0x0, 0x0, 0x0, 0x0, true, false⟩,
  ⟨.part, 0x368, [], 0xFFFFFFFFFFFFFFFF, 0x0, 0x0, 0x0, 0x0, 0x0, true, false⟩,
  ⟨.part, 0x370, [], 0xFFFFFFFFFFFFFFFF, 0x0, 0x0, 0x0, 0x0, 0x0, true, false⟩,
  ⟨.part, 0x378, [], 0xFFFFFFFFFFFFFFFF, 0x0, 0x0, 0x0, 0x0, 0x0, true, false⟩,
  ⟨.part, 0x380, [], 0xFFFFFFFFFFFFFFFF, 0x0, 0x0, 0x0, 0x0, 0x0, true, false⟩,
  ⟨.part, 0x388, [], 0xFFFFFFFFFFFFFFFF, 0x0, 0x0, 0x0, 0x0, 0x0, true, false⟩,
  ⟨.part, 0x400, [], 0xFF, 0x0, 0x0, 0x0, 0x0, 0x0, false, false⟩,
  ⟨.part, 0x408, [], 0xFFFF7FFF, 0x0, 0x0, 0x0, 0x0, 0x0, false, false⟩,
  ⟨.part, 0x410, [], 0x7F, 0x0, 0x0, 0x0, 0x0, 0x0, false, false⟩,
  ⟨.part, 0x418, [], 0xFFFFFFFFFFFFFFFF, 0x0, 0x0, 0x0, 0x0, 0x0, false, false⟩,
  ⟨.part, 0x420, [], 0xFFFFFFFFFFFF, 0x0, 0x0, 0x0, 0x0, 0x0, false, false⟩
] ++ [
  ⟨.part, 0x428, [], 0x0, 0x0, 0x0, 0x0, 0xE00000000000FFFF, 0x0, false, false⟩,
  ⟨.part, 0x430, [], 0x0, 0x0, 0x0, 0x0, 0xFC00000000007FFF, 0x0, false, false⟩,
  ⟨.part, 0x438, [], 0xFFFFFFFFFFFF, 0x0, 0x0, 0x0, 0x0, 0x0, false, false⟩,
  ⟨.part, 0x440, [], 0xFFFFFFFFFFFF, 0x0, 0x0, 0x0, 0x0, 0x0, false, false⟩,
  ⟨.part, 0x448, [(8, 8)], 0xFFFFFFFFFFFFFFFF, 0x0, 0x0, 0x0, 0x0, 0x0, false, false⟩,
  ⟨.part, 0x490, [], 0xFFFFFFFFFFFFFFFF, 0x0, 0x0, 0x0, 0x0, 0x0, true, false⟩,
  ⟨.part, 0x498, [], 0xFFFFFFFFFFFFFFFF, 0x0, 0x0, 0x0, 0x0, 0x0, true, false⟩,
  ⟨.part, 0x4A0, [], 0xFFFFFFFFFFFFFFFF, 0x0, 0x0, 0x0, 0x0, 0x0, true, false⟩,
  ⟨.part, 0x4A8, [], 0xFFFFFFFFFFFFFFFF, 0x0, 0x0, 0x0, 0x0, 0x0, true, false⟩,
  ⟨.part, 0x4B0, [], 0xFFFFFFFFFFFFFFFF, 0x0, 0x0, 0x0, 0x0, 0x0, true, false⟩,
  ⟨.part, 0x4B8, [], 0xFFFFFFFFFFFFFFFF, 0x0, 0x0, 0x0, 0x0, 0x0, true, false⟩,
  ⟨.part, 0x4C0, [], 0xFFFFFFFFFFFFFFFF, 0x0, 0x0, 0x0, 0x0, 0x0, true, false⟩,
  ⟨.part, 0x4C8, [], 0xFFFFFFFFFFFFFFFF, 0x0, 0x0, 0x0, 0x0, 0x0, true, false⟩,
  ⟨.part, 0x4D0, [], 0xFFFFFFFFFFFFFFFF, 0x0, 0x0, 0x0, 0x0, 0x0, true, false⟩,
  ⟨.part, 0x500, [], 0x8000FFFFFFFF001F, 0x0, 0x0, 0x0, 0x0, 0x10000, false, false⟩,
  ⟨.part, 0x508, [(8, 8)], 0xFFFFFFFFFFFFFFFF, 0x0, 0x0, 0x0, 0x0, 0x0, false, false⟩,
  ⟨.part, 0x548, [], 0x0, 0x0, 0x20, 0x0, 0xFFFFFFFFFFFFFFDF, 0x0, false, false⟩,
  ⟨.part, 0x550, [], 0x0, 0x0, 0x0, 0x0, 0xC000FFFFFFFFFFFF, 0x0, false, false⟩,
  ⟨.part, 0x558, [], 0x0, 0x0, 0x0, 0x0, 0xFFFFFFFFFFFFFFFF, 0x0, false, false⟩,
  ⟨.part, 0x560, [], 0x0, 0x0, 0x0, 0x0, 0xFFFFFFFFFFFFFFFF, 0x0, false, false⟩,
  ⟨.part, 0x568, [], 0xFFFFFFFFFFFF, 0x0, 0x0, 0x0, 0x0, 0x0, false, false⟩,
  ⟨.part, 0x570, [], 0x0, 0x8000000000000000, 0x0, 0x0, 0xFFFFFFFFFFFF, 0x0, false, false⟩,
  ⟨.part, 0x580, [(8, 16)], 0x0, 0x0, 0x0, 0x0, 0xFFFFFFFFFFFFFFFF, 0x0, true, false⟩,
  ⟨.part, 0x600, [], 0xFFFFFFFFFFFFFFFF, 0x0, 0x0, 0x0, 0x0, 0x0, true, false⟩
] ++ [
  ⟨.part, 0x608, [], 0xFFFFFFFFFFFFFFFF, 0x0, 0x0, 0x0, 0x0, 0x0, true, false⟩,
  ⟨.part, 0x610, [(8, 8)], 0xFFFFFFFFFFFFFFFF, 0x0, 0x0, 0x0, 0x0, 0x0, true, false⟩,
  ⟨.part, 0x650, [], 0xFFFFFFFFFFFFFFFF, 0x0, 0x0, 0x0, 0x0, 0x0, true, false⟩,
  ⟨.part, 0x700, [], 0x0, 0x0, 0x0, 0x7, 0x0, 0x0, false, false⟩,
  ⟨.part, 0x708, [], 0x7F, 0x0, 0x0, 0x0, 0x0, 0x8, false, false⟩,
  ⟨.part, 0x710, [], 0xFFFFFFFFFFFFFFFF, 0x0, 0x0, 0x0, 0x0, 0x0, true, false⟩,
  ⟨.part, 0x800, [(8, 64)], 0xFFFFFFFFFFFF, 0x0, 0x0, 0x0, 0x0, 0x0, false, false⟩,
  ⟨.part, 0xA00, [], 0xFFFFF07, 0x0, 0x0, 0x0, 0x0, 0x4408004, false, false⟩,
  ⟨.part, 0xA08, [], 0x3FFFFFF0001FFFF, 0x0, 0x0, 0x0, 0x0, 0x0, false, false⟩,
  ⟨.part, 0xA10, [], 0x0, 0x0, 0x0, 0x0, 0x3FFFFFF0001FFFF, 0x0, false, false⟩,
  ⟨.part, 0xA40, [(16, 16)], 0x803FFFFFFFFFFFFF, 0x0, 0x0, 0x0, 0x0, 0x0, false, false⟩,
  ⟨.part, 0xA48, [(16, 16)], 0x3FFFFFF03FFFFFF, 0x0, 0x0, 0x0, 0x0, 0x0, false, false⟩,
  ⟨.part, 0xB40, [], 0xFFFFFFFFFFFFFFFF, 0x0, 0x0, 0x0, 0x0, 0x0, true, false⟩,
  ⟨.part, 0xB48, [], 0xFFFFFFFFFFFFFFFF, 0x0, 0x0, 0x0, 0x0, 0x0, true, false⟩,
  ⟨.part, 0xB50, [], 0xFFFFFFFFFFFFFFFF, 0x0, 0x0, 0x0, 0x0, 0x0, true, false⟩,
  ⟨.part, 0xB58, [], 0xFFFFFFFFFFFFFFFF, 0x0, 0x0, 0x0, 0x0, 0x0, true, false⟩,
  ⟨.part, 0xB60, [], 0xFFFFFFFFFFFFFFFF, 0x0, 0x0, 0x0, 0x0, 0x0, true, false⟩,
  ⟨.part, 0xB68, [], 0xFFFFFFFFFFFFFFFF, 0x0, 0x0, 0x0, 0x0, 0x0, true, false⟩,
  ⟨.part, 0xB70, [], 0xFFFFFFFFFFFFFFFF, 0x0, 0x0, 0x0, 0x0, 0x0, true, false⟩,
  ⟨.part, 0xC00, [(8, 4)], 0x3FFF3FFF, 0x0, 0x0, 0x0, 0x0, 0x0, false, false⟩,
  ⟨.part, 0xC20, [(16, 2)], 0xFFFFFFFFFFFFFFFF, 0x0, 0x0, 0x0, 0x0, 0x0, false, false⟩,
  ⟨.part, 0xC28, [(16, 2)], 0xFFFFFFFF, 0x0, 0x0, 0x0, 0x0, 0x0, false, false⟩,
  ⟨.part, 0xC40, [], 0xFF000000000000, 0x0, 0x0, 0x3, 0xFC00FF0000000038, 0x0, false, false⟩,
  ⟨.part, 0xC48, [], 0xFFFFFFFFFFFFFFFF, 0x0, 0x0, 0x0, 0x0, 0x0, false, false⟩
] ++ [
  ⟨.part, 0xC50, [], 0xFFFF, 0x0, 0x0, 0x0, 0x0, 0x3E8, false, false⟩,
  ⟨.part, 0xC80, [(32, 8)], 0xFFFFFFFF, 0x0, 0x0, 0x0, 0x0, 0x0, false, false⟩,
  ⟨.part, 0xC88, [(32, 8)], 0xFFFFFFFFFFFF, 0x0, 0x0, 0x0, 0x0, 0x0, false, false⟩,
  ⟨.part, 0xC90, [(32, 8)], 0xFFFFFFFFFFFFFFFF, 0x0, 0x0, 0x0, 0x0, 0x0, false, false⟩,
  ⟨.part, 0xC98, [(32, 8)], 0xFFFFFFFFFFFFFFFF, 0x0, 0x0, 0x0, 0x0, 0x0, false, false⟩,
  ⟨.part, 0xD80, [], 0xFFFFFFFFFFFFFFFF, 0x0, 0x0, 0x0, 0x0, 0x0, true, false⟩,
  ⟨.part, 0xD88, [], 0xFFFFFFFFFFFFFFFF, 0x0, 0x0, 0x0, 0x0, 0x0, true, false⟩,
  ⟨.part, 0xD90, [], 0xFFFFFFFFFFFFFFFF, 0x0, 0x0, 0x0, 0x0, 0x0, true, false⟩,
  ⟨.part, 0xD98, [], 0xFFFFFFFFFFFFFFFF, 0x0, 0x0, 0x0, 0x0, 0x0, true, false⟩,
  ⟨.part, 0xDA0, [], 0xFFFFFFFFFFFFFFFF, 0x0, 0x0, 0x0, 0x0, 0x0, true, false⟩,
  ⟨.part, 0xDA8, [], 0xFFFFFFFFFFFFFFFF, 0x0, 0x0, 0x0, 0x0, 0x0, true, false⟩,
  ⟨.part, 0xE00, [], 0xFFFFFFFFFFFFFFFF, 0x0, 0x0, 0x0, 0x0, 0x0, true, false⟩,
  ⟨.part, 0xE08, [], 0x0, 0x0, 0x0, 0x0, 0xF0000000FFFFFFFF, 0x0, false, false⟩,
  ⟨.part, 0xE10, [], 0xFFFFFFFFFFFFFFFF, 0x0, 0x0, 0x0, 0x0, 0x0, true, false⟩,
  ⟨.part, 0xE18, [], 0xFFFFFFFFFFFFFFFF, 0x0, 0x0, 0x0, 0x0, 0x0, true, false⟩,
  ⟨.part, 0xF00, [], 0x1F, 0x0, 0x0, 0x0, 0x0, 0xC, false, false⟩,
  ⟨.part, 0xF10, [], 0xFFFFFFFFFFFFFFFF, 0x0, 0x0, 0x0, 0x0, 0x0, true, false⟩,
  ⟨.part, 0xF18, [], 0xFFFFFFFFFFFFFFFF, 0x0, 0x0, 0x0, 0x0, 0x0, true, false⟩,
  ⟨.part, 0xF20, [], 0xFFFFFFFFFFFFFFFF, 0x0, 0x0, 0x0, 0x0, 0x0, true, false⟩,
  ⟨.part, 0xF28, [], 0xFFFFFFFFFFFFFFFF, 0x0, 0x0, 0x0, 0x0, 0x0, true, false⟩,
  ⟨.part, 0xF30, [], 0xFFFFFFFFFFFFFFFF, 0x0, 0x0, 0x0, 0x0, 0x0, true, false⟩,
  ⟨.part, 0xF38, [], 0xFFFFFFFFFFFFFFFF, 0x0, 0x0, 0x0, 0x0, 0x0, true, false⟩,
  ⟨.part, 0xF40, [(8, 5)], 0xFFFFFFFF, 0x0, 0x0, 0x0, 0x0, 0x0, false, false⟩,
  ⟨.part, 0xF80, [], 0x0, 0x0, 0x0, 0x0, 0xFFF0FF00FFFFFFFF, 0x0, false, false⟩
]

/-- The registers of MGMT. -/
def mgmtRows : List RegRow := [
  ⟨.mgmt, 0x100, [], 0xFFFFFFFFFFFFFFFF, 0x0, 0x0, 0x0, 0x0, 0x0, true, false⟩,
  ⟨.mgmt, 0x200, [], 0x0, 0x0, 0x0, 0xF0000000000FFFF, 0x0, 0x0, false, false⟩,
  ⟨.mgmt, 0x208, [], 0x0, 0x0, 0x0, 0x0, 0xFC00000000000000, 0x0, false, false⟩,
  ⟨.mgmt, 0x210, [], 0xF03, 0x0, 0x0, 0x0, 0x0, 0x403, false, false⟩,
  ⟨.mgmt, 0x300, [], 0x1FFFF, 0x0, 0x0, 0x0, 0x0, 0x445C, false, false⟩,
  ⟨.mgmt, 0x308, [], 0x0, 0x0, 0x0, 0xF00000000000FFFF, 0x0, 0x0, false, false⟩,
  ⟨.mgmt, 0x310, [], 0x0, 0x0, 0x0, 0x0, 0xC000000000000000, 0x0, false, false⟩,
  ⟨.mgmt, 0x318, [], 0x0, 0x0, 0x0, 0x0, 0xFF8000FFFFFFFFFF, 0x0, false, false⟩,
  ⟨.mgmt, 0x400, [], 0x0, 0x0, 0x0, 0x0, 0xFFFFF800FFFFFFFF, 0x0, false, false⟩,
  ⟨.mgmt, 0x408, [], 0x0, 0x0, 0x0, 0xF000000000000000, 0x0, 0x0, false, false⟩,
  ⟨.mgmt, 0x410, [], 0x0, 0x0, 0x0, 0x0, 0xC00FFFFF800007FF, 0x0, false, false⟩,
  ⟨.mgmt, 0x418, [], 0xFFFFFFFFFFFFFFFF, 0x0, 0x0, 0x0, 0x0, 0x0, true, false⟩,
  ⟨.mgmt, 0x420, [], 0xFFFFFFFFFFFFFFFF, 0x0, 0x0, 0x0, 0x0, 0x0, true, false⟩
]

/-- PANEL.ID (R4). -/
def R.PANEL_ID : Nat := 0x0

/-- PANEL.CELL_COUNT (R31). -/
def R.PANEL_CELL_COUNT : Nat := 0x8

/-- PANEL.MOD_ID (R370). -/
def R.PANEL_MOD_ID : Nat := 0x10

/-- PANEL.ASTP_CFG (R369). -/
def R.PANEL_ASTP_CFG : Nat := 0x100

/-- PANEL.ROCE_NAK_CNT (R387). -/
def R.PANEL_ROCE_NAK_CNT : Nat := 0x108

/-- PANEL.ROCE_CNP_CNT (R387). -/
def R.PANEL_ROCE_CNP_CNT : Nat := 0x110

/-- PANEL.PTP_CFG (R392). -/
def R.PANEL_PTP_CFG : Nat := 0x200

/-- PANEL.MER_STAT (R393). -/
def R.PANEL_MER_STAT : Nat := 0x208

/-- PANEL.MER_GM (R393). -/
def R.PANEL_MER_GM : Nat := 0x210

/-- PANEL.MER_STEP_CNT (R410). -/
def R.PANEL_MER_STEP_CNT : Nat := 0x218

/-- PANEL.MER_UNLOCK_CNT (R410). -/
def R.PANEL_MER_UNLOCK_CNT : Nat := 0x220

/-- PANEL.PLX_TOL0 (R432). -/
def R.PANEL_PLX_TOL0 : Nat := 0x300

/-- PANEL.PLX_TOL1 (R432). -/
def R.PANEL_PLX_TOL1 : Nat := 0x308

/-- PANEL.PLX_TOL2 (R432). -/
def R.PANEL_PLX_TOL2 : Nat := 0x310

/-- PANEL.PLX_TOL3 (R432). -/
def R.PANEL_PLX_TOL3 : Nat := 0x318

/-- PANEL.PLX_TOL4 (R432). -/
def R.PANEL_PLX_TOL4 : Nat := 0x320

/-- PANEL.PLX_NUM_CNT (R450). -/
def R.PANEL_PLX_NUM_CNT : Nat := 0x340

/-- PANEL.PLX_TRANS_CNT (R450). -/
def R.PANEL_PLX_TRANS_CNT : Nat := 0x348

/-- PANEL.PLX_INTER_CNT (R450). -/
def R.PANEL_PLX_INTER_CNT : Nat := 0x350

/-- PANEL.PLX_PERM_CNT (R450). -/
def R.PANEL_PLX_PERM_CNT : Nat := 0x358

/-- PANEL.PLX_UNRES_CNT (R450). -/
def R.PANEL_PLX_UNRES_CNT : Nat := 0x360

/-- PANEL.FLT_DROP_CNT (R450). -/
def R.PANEL_FLT_DROP_CNT : Nat := 0x368

/-- PANEL.PWR_STAT (R457). -/
def R.PANEL_PWR_STAT : Nat := 0x400

/-- PANEL.THR_CNT (R469). -/
def R.PANEL_THR_CNT : Nat := 0x410

/-- PANEL.THR_FAST_CNT (R469). -/
def R.PANEL_THR_FAST_CNT : Nat := 0x418

/-- PANEL.QPi_W0 (R420). -/
def R.PANEL_QPi_W0 (a : Nat) : Nat := 0x400000 + 64 * a

/-- PANEL.QPi_W1 (R420). -/
def R.PANEL_QPi_W1 (a : Nat) : Nat := 0x400008 + 64 * a

/-- PANEL.QPi_W2 (R420). -/
def R.PANEL_QPi_W2 (a : Nat) : Nat := 0x400010 + 64 * a

/-- PANEL.QPi_W3 (R420). -/
def R.PANEL_QPi_W3 (a : Nat) : Nat := 0x400018 + 64 * a

/-- PANEL.QPi_W4 (R420). -/
def R.PANEL_QPi_W4 (a : Nat) : Nat := 0x400020 + 64 * a

/-- PANEL.QPi_W5 (R420). -/
def R.PANEL_QPi_W5 (a : Nat) : Nat := 0x400028 + 64 * a

/-- PANEL.QPi_W6 (R420). -/
def R.PANEL_QPi_W6 (a : Nat) : Nat := 0x400030 + 64 * a

/-- PANEL.QPi_W7 (R420). -/
def R.PANEL_QPi_W7 (a : Nat) : Nat := 0x400038 + 64 * a

/-- PANEL.MRr_W0 (R420). -/
def R.PANEL_MRr_W0 (a : Nat) : Nat := 0x500000 + 32 * a

/-- PANEL.MRr_W1 (R420). -/
def R.PANEL_MRr_W1 (a : Nat) : Nat := 0x500008 + 32 * a

/-- PANEL.MRr_W2 (R420). -/
def R.PANEL_MRr_W2 (a : Nat) : Nat := 0x500010 + 32 * a

/-- DIE.SLOT_STATE0 (R28). -/
def R.DIE_SLOT_STATE0 (d : Nat) : Nat := dieBase d + 0x10

/-- DIE.SLOT_STATE1 (R28). -/
def R.DIE_SLOT_STATE1 (d : Nat) : Nat := dieBase d + 0x18

/-- DIE.SLOT_STATE2 (R28). -/
def R.DIE_SLOT_STATE2 (d : Nat) : Nat := dieBase d + 0x20

/-- DIE.LMAPj (R29). -/
def R.DIE_LMAPj (d : Nat) (a : Nat) : Nat := dieBase d + 0x40 + 8 * a

/-- DIE.ZEN_SAT_CNT (R240). -/
def R.DIE_ZEN_SAT_CNT (d : Nat) : Nat := dieBase d + 0x200

/-- DIE.ZEN_OVF_CNT (R240). -/
def R.DIE_ZEN_OVF_CNT (d : Nat) : Nat := dieBase d + 0x208

/-- DIE.ZEN_NAN_CNT (R240). -/
def R.DIE_ZEN_NAN_CNT (d : Nat) : Nat := dieBase d + 0x210

/-- DIE.ZEN_BUSY_CNT (R240). -/
def R.DIE_ZEN_BUSY_CNT (d : Nat) : Nat := dieBase d + 0x218

/-- DIE.ZEN_SW_CNT (R240). -/
def R.DIE_ZEN_SW_CNT (d : Nat) : Nat := dieBase d + 0x220

/-- DIE.ZEN_VIOL_CNT (R288). -/
def R.DIE_ZEN_VIOL_CNT (d : Nat) : Nat := dieBase d + 0x228

/-- DIE.ZEN_VEC_CNT (R240). -/
def R.DIE_ZEN_VEC_CNT (d : Nat) : Nat := dieBase d + 0x230

/-- DIE.HC_HIT_CNT (R335). -/
def R.DIE_HC_HIT_CNT (d : Nat) : Nat := dieBase d + 0x300

/-- DIE.HC_MISS_CNT (R335). -/
def R.DIE_HC_MISS_CNT (d : Nat) : Nat := dieBase d + 0x308

/-- DIE.SPAN_STATp (R364). -/
def R.DIE_SPAN_STATp (d : Nat) (a : Nat) : Nat := dieBase d + 0x400 + 64 * a

/-- DIE.SPAN_CRC_CNTp (R365). -/
def R.DIE_SPAN_CRC_CNTp (d : Nat) (a : Nat) : Nat := dieBase d + 0x408 + 64 * a

/-- DIE.SPAN_REPLAY_CNTp (R365). -/
def R.DIE_SPAN_REPLAY_CNTp (d : Nat) (a : Nat) : Nat := dieBase d + 0x410 + 64 * a

/-- DIE.SPAN_RETRAIN_CNTp (R365). -/
def R.DIE_SPAN_RETRAIN_CNTp (d : Nat) (a : Nat) : Nat := dieBase d + 0x418 + 64 * a

/-- DIE.SPAN_LANE_CNTp (R365). -/
def R.DIE_SPAN_LANE_CNTp (d : Nat) (a : Nat) : Nat := dieBase d + 0x420 + 64 * a

/-- DIE.SPAN_FLIT_CNTp (R365). -/
def R.DIE_SPAN_FLIT_CNTp (d : Nat) (a : Nat) : Nat := dieBase d + 0x428 + 64 * a

/-- DIE.ALM_W0 (R166). -/
def R.DIE_ALM_W0 (d : Nat) (a : Nat) : Nat := dieBase d + 0x80000 + 128 * a

/-- DIE.ALM_W1 (R166). -/
def R.DIE_ALM_W1 (d : Nat) (a : Nat) : Nat := dieBase d + 0x80008 + 128 * a

/-- DIE.ALM_W2 (R166). -/
def R.DIE_ALM_W2 (d : Nat) (a : Nat) : Nat := dieBase d + 0x80010 + 128 * a

/-- DIE.ALM_W3 (R166). -/
def R.DIE_ALM_W3 (d : Nat) (a : Nat) : Nat := dieBase d + 0x80018 + 128 * a

/-- DIE.ALM_W4 (R166). -/
def R.DIE_ALM_W4 (d : Nat) (a : Nat) : Nat := dieBase d + 0x80020 + 128 * a

/-- DIE.ALM_W5 (R166). -/
def R.DIE_ALM_W5 (d : Nat) (a : Nat) : Nat := dieBase d + 0x80028 + 128 * a

/-- DIE.ALM_W6 (R166). -/
def R.DIE_ALM_W6 (d : Nat) (a : Nat) : Nat := dieBase d + 0x80030 + 128 * a

/-- DIE.ALM_W7 (R166). -/
def R.DIE_ALM_W7 (d : Nat) (a : Nat) : Nat := dieBase d + 0x80038 + 128 * a

/-- DIE.ALM_W8 (R166). -/
def R.DIE_ALM_W8 (d : Nat) (a : Nat) : Nat := dieBase d + 0x80040 + 128 * a

/-- DIE.ALM_W9 (R166). -/
def R.DIE_ALM_W9 (d : Nat) (a : Nat) : Nat := dieBase d + 0x80048 + 128 * a

/-- DIE.ALM_W10 (R166). -/
def R.DIE_ALM_W10 (d : Nat) (a : Nat) : Nat := dieBase d + 0x80050 + 128 * a

/-- DIE.ALM_W11 (R166). -/
def R.DIE_ALM_W11 (d : Nat) (a : Nat) : Nat := dieBase d + 0x80058 + 128 * a

/-- DIE.ALM_W12 (R166). -/
def R.DIE_ALM_W12 (d : Nat) (a : Nat) : Nat := dieBase d + 0x80060 + 128 * a

/-- DIE.ALM_W13 (R166). -/
def R.DIE_ALM_W13 (d : Nat) (a : Nat) : Nat := dieBase d + 0x80068 + 128 * a

/-- DIE.ALM_W14 (R166). -/
def R.DIE_ALM_W14 (d : Nat) (a : Nat) : Nat := dieBase d + 0x80070 + 128 * a

/-- DIE.ALM_W15 (R166). -/
def R.DIE_ALM_W15 (d : Nat) (a : Nat) : Nat := dieBase d + 0x80078 + 128 * a

/-- DIE.ZDIR_W0 (R223). -/
def R.DIE_ZDIR_W0 (d : Nat) (a : Nat) : Nat := dieBase d + 0xC0000 + 128 * a

/-- DIE.ZDIR_W1 (R223). -/
def R.DIE_ZDIR_W1 (d : Nat) (a : Nat) : Nat := dieBase d + 0xC0008 + 128 * a

/-- DIE.ZDIR_W2 (R223). -/
def R.DIE_ZDIR_W2 (d : Nat) (a : Nat) : Nat := dieBase d + 0xC0010 + 128 * a

/-- DIE.ZDIR_W3 (R223). -/
def R.DIE_ZDIR_W3 (d : Nat) (a : Nat) : Nat := dieBase d + 0xC0018 + 128 * a

/-- DIE.ZDIR_W4 (R223). -/
def R.DIE_ZDIR_W4 (d : Nat) (a : Nat) : Nat := dieBase d + 0xC0020 + 128 * a

/-- DIE.ZDIR_W5 (R223). -/
def R.DIE_ZDIR_W5 (d : Nat) (a : Nat) : Nat := dieBase d + 0xC0028 + 128 * a

/-- DIE.ZDIR_W6 (R223). -/
def R.DIE_ZDIR_W6 (d : Nat) (a : Nat) : Nat := dieBase d + 0xC0030 + 128 * a

/-- DIE.ZDIR_W7 (R223). -/
def R.DIE_ZDIR_W7 (d : Nat) (a : Nat) : Nat := dieBase d + 0xC0038 + 128 * a

/-- DIE.ZDIR_W8 (R223). -/
def R.DIE_ZDIR_W8 (d : Nat) (a : Nat) : Nat := dieBase d + 0xC0040 + 128 * a

/-- DIE.ZDIR_W9 (R223). -/
def R.DIE_ZDIR_W9 (d : Nat) (a : Nat) : Nat := dieBase d + 0xC0048 + 128 * a

/-- DIE.ZDIR_W10 (R223). -/
def R.DIE_ZDIR_W10 (d : Nat) (a : Nat) : Nat := dieBase d + 0xC0050 + 128 * a

/-- DIE.ZDIR_W11 (R223). -/
def R.DIE_ZDIR_W11 (d : Nat) (a : Nat) : Nat := dieBase d + 0xC0058 + 128 * a

/-- DIE.ZDIR_W12 (R223). -/
def R.DIE_ZDIR_W12 (d : Nat) (a : Nat) : Nat := dieBase d + 0xC0060 + 128 * a

/-- DIE.ZDIR_W13 (R223). -/
def R.DIE_ZDIR_W13 (d : Nat) (a : Nat) : Nat := dieBase d + 0xC0068 + 128 * a

/-- DIE.ZDIR_W14 (R223). -/
def R.DIE_ZDIR_W14 (d : Nat) (a : Nat) : Nat := dieBase d + 0xC0070 + 128 * a

/-- DIE.ZDIR_W15 (R223). -/
def R.DIE_ZDIR_W15 (d : Nat) (a : Nat) : Nat := dieBase d + 0xC0078 + 128 * a

/-- CELL.ID (R32). -/
def R.CELL_ID (c : CellId) : Nat := cellBase c + 0x0

/-- CELL.SAT_CNT (R70). -/
def R.CELL_SAT_CNT (c : CellId) : Nat := cellBase c + 0x100

/-- CELL.OVF_CNT (R70). -/
def R.CELL_OVF_CNT (c : CellId) : Nat := cellBase c + 0x108

/-- CELL.NAN_CNT (R70). -/
def R.CELL_NAN_CNT (c : CellId) : Nat := cellBase c + 0x110

/-- CELL.OUTL_CNT (R96). -/
def R.CELL_OUTL_CNT (c : CellId) : Nat := cellBase c + 0x118

/-- CELL.PROMO_CNT (R96). -/
def R.CELL_PROMO_CNT (c : CellId) : Nat := cellBase c + 0x120

/-- CELL.TWIDE_CNT (R96). -/
def R.CELL_TWIDE_CNT (c : CellId) : Nat := cellBase c + 0x128

/-- CELL.ECLAMP_CNT (R96). -/
def R.CELL_ECLAMP_CNT (c : CellId) : Nat := cellBase c + 0x130

/-- CELL.CONV_CTL (R92). -/
def R.CELL_CONV_CTL (c : CellId) : Nat := cellBase c + 0x140

/-- CELL.TBL_CFG (R85). -/
def R.CELL_TBL_CFG (c : CellId) : Nat := cellBase c + 0x180

/-- CELL.TBL0_LO (R86). -/
def R.CELL_TBL0_LO (c : CellId) : Nat := cellBase c + 0x190

/-- CELL.TBL0_HI (R86). -/
def R.CELL_TBL0_HI (c : CellId) : Nat := cellBase c + 0x198

/-- CELL.TBL1_LO (R86). -/
def R.CELL_TBL1_LO (c : CellId) : Nat := cellBase c + 0x1A0

/-- CELL.TBL1_HI (R86). -/
def R.CELL_TBL1_HI (c : CellId) : Nat := cellBase c + 0x1A8

/-- CELL.TBL2_LO (R86). -/
def R.CELL_TBL2_LO (c : CellId) : Nat := cellBase c + 0x1B0

/-- CELL.TBL2_HI (R86). -/
def R.CELL_TBL2_HI (c : CellId) : Nat := cellBase c + 0x1B8

/-- CELL.TBL3_LO (R86). -/
def R.CELL_TBL3_LO (c : CellId) : Nat := cellBase c + 0x1C0

/-- CELL.TBL3_HI (R86). -/
def R.CELL_TBL3_HI (c : CellId) : Nat := cellBase c + 0x1C8

/-- CELL.DUSK_STAT (R118). -/
def R.CELL_DUSK_STAT (c : CellId) : Nat := cellBase c + 0x400

/-- CELL.DUSK_CTL (R118). -/
def R.CELL_DUSK_CTL (c : CellId) : Nat := cellBase c + 0x408

/-- CELL.DUSK_PASS_CNT (R120). -/
def R.CELL_DUSK_PASS_CNT (c : CellId) : Nat := cellBase c + 0x410

/-- CELL.DUSK_BUSY_CNT (R120). -/
def R.CELL_DUSK_BUSY_CNT (c : CellId) : Nat := cellBase c + 0x418

/-- CELL.DUSK_STALL_CNT (R120). -/
def R.CELL_DUSK_STALL_CNT (c : CellId) : Nat := cellBase c + 0x420

/-- CELL.DUSK_HAND_CNT (R120). -/
def R.CELL_DUSK_HAND_CNT (c : CellId) : Nat := cellBase c + 0x428

/-- CELL.DUSK_REDO_CNT (R120). -/
def R.CELL_DUSK_REDO_CNT (c : CellId) : Nat := cellBase c + 0x430

/-- CELL.DUSK_DISC_CNT (R120). -/
def R.CELL_DUSK_DISC_CNT (c : CellId) : Nat := cellBase c + 0x438

/-- CELL.DUSK_WRAP_CNT (R120). -/
def R.CELL_DUSK_WRAP_CNT (c : CellId) : Nat := cellBase c + 0x440

/-- CELL.DUSK_RAMP_CNT (R120). -/
def R.CELL_DUSK_RAMP_CNT (c : CellId) : Nat := cellBase c + 0x448

/-- CELL.DAWN_STAT (R147). -/
def R.CELL_DAWN_STAT (c : CellId) : Nat := cellBase c + 0x500

/-- CELL.DAWN_CTL (R146). -/
def R.CELL_DAWN_CTL (c : CellId) : Nat := cellBase c + 0x508

/-- CELL.DAWN_PASS_CNT (R148). -/
def R.CELL_DAWN_PASS_CNT (c : CellId) : Nat := cellBase c + 0x510

/-- CELL.DAWN_BUSY_CNT (R148). -/
def R.CELL_DAWN_BUSY_CNT (c : CellId) : Nat := cellBase c + 0x518

/-- CELL.DAWN_STALL_CNT (R148). -/
def R.CELL_DAWN_STALL_CNT (c : CellId) : Nat := cellBase c + 0x520

/-- CELL.DAWN_OUTL_CC_CNT (R148). -/
def R.CELL_DAWN_OUTL_CC_CNT (c : CellId) : Nat := cellBase c + 0x528

/-- CELL.DAWN_REDO_CNT (R148). -/
def R.CELL_DAWN_REDO_CNT (c : CellId) : Nat := cellBase c + 0x530

/-- CELL.DAWN_DISC_CNT (R148). -/
def R.CELL_DAWN_DISC_CNT (c : CellId) : Nat := cellBase c + 0x538

/-- CELL.DAWN_WRAP_CNT (R148). -/
def R.CELL_DAWN_WRAP_CNT (c : CellId) : Nat := cellBase c + 0x540

/-- CELL.DAWN_RAMP_CNT (R148). -/
def R.CELL_DAWN_RAMP_CNT (c : CellId) : Nat := cellBase c + 0x548

/-- CELL.DAWN_CHK_CC_CNT (R148). -/
def R.CELL_DAWN_CHK_CC_CNT (c : CellId) : Nat := cellBase c + 0x550

/-- CELL.DAWN_CHK_PRE_CNT (R148). -/
def R.CELL_DAWN_CHK_PRE_CNT (c : CellId) : Nat := cellBase c + 0x558

/-- CELL.SHED_CNT (R157). -/
def R.CELL_SHED_CNT (c : CellId) : Nat := cellBase c + 0x600

/-- CELL.SHED_ENT_CNT (R157). -/
def R.CELL_SHED_ENT_CNT (c : CellId) : Nat := cellBase c + 0x608

/-- CELL.VEC_INSN_CNT (R213). -/
def R.CELL_VEC_INSN_CNT (c : CellId) : Nat := cellBase c + 0x700

/-- CELL.VEC_BUSY_CNT (R213). -/
def R.CELL_VEC_BUSY_CNT (c : CellId) : Nat := cellBase c + 0x708

/-- CELL.VEC_WAIT_CNT (R213). -/
def R.CELL_VEC_WAIT_CNT (c : CellId) : Nat := cellBase c + 0x710

/-- CELL.VEC_INEX_CNT (R213). -/
def R.CELL_VEC_INEX_CNT (c : CellId) : Nat := cellBase c + 0x718

/-- CELL.VEC_STICKY_CNT (R213). -/
def R.CELL_VEC_STICKY_CNT (c : CellId) : Nat := cellBase c + 0x720

/-- CELL.ROW_CNT (R213). -/
def R.CELL_ROW_CNT (c : CellId) : Nat := cellBase c + 0x780

/-- CELL.ROW_BUSY_CNT (R213). -/
def R.CELL_ROW_BUSY_CNT (c : CellId) : Nat := cellBase c + 0x788

/-- CELL.ROW_MASK_CNT (R213). -/
def R.CELL_ROW_MASK_CNT (c : CellId) : Nat := cellBase c + 0x790

/-- CELL.ROW_PINF_CNT (R213). -/
def R.CELL_ROW_PINF_CNT (c : CellId) : Nat := cellBase c + 0x798

/-- CELL.SEQ_STAT (R278). -/
def R.CELL_SEQ_STAT (c : CellId) : Nat := cellBase c + 0x800

/-- CELL.SEQ_ISSUE_CNT (R288). -/
def R.CELL_SEQ_ISSUE_CNT (c : CellId) : Nat := cellBase c + 0x808

/-- CELL.SEQ_PRED_CNT (R288). -/
def R.CELL_SEQ_PRED_CNT (c : CellId) : Nat := cellBase c + 0x810

/-- CELL.SEQ_STALL_CNT (R288). -/
def R.CELL_SEQ_STALL_CNT (c : CellId) : Nat := cellBase c + 0x818

/-- CELL.SEQ_WAIT_CNT (R288). -/
def R.CELL_SEQ_WAIT_CNT (c : CellId) : Nat := cellBase c + 0x820

/-- CELL.SEQ_TLATE_CNT (R288). -/
def R.CELL_SEQ_TLATE_CNT (c : CellId) : Nat := cellBase c + 0x828

/-- CELL.VIOL_CNT (R288). -/
def R.CELL_VIOL_CNT (c : CellId) : Nat := cellBase c + 0x830

/-- CELL.VIOL_LAST (R287). -/
def R.CELL_VIOL_LAST (c : CellId) : Nat := cellBase c + 0x838

/-- CELL.SRAM_CONFm (R353). -/
def R.CELL_SRAM_CONFm (c : CellId) (a : Nat) : Nat := cellBase c + 0x900 + 8 * a

/-- CELL.SRAM_COLLIDE_CNT (R353). -/
def R.CELL_SRAM_COLLIDE_CNT (c : CellId) : Nat := cellBase c + 0x940

/-- CELL.SRAM_ESC_CNT (R353). -/
def R.CELL_SRAM_ESC_CNT (c : CellId) : Nat := cellBase c + 0x948

/-- CELL.ATOM_CNT (R353). -/
def R.CELL_ATOM_CNT (c : CellId) : Nat := cellBase c + 0x950

/-- CELL.ATOM_WRAP_CNT (R353). -/
def R.CELL_ATOM_WRAP_CNT (c : CellId) : Nat := cellBase c + 0x958

/-- CELL.ECC_CE_CNT (R353). -/
def R.CELL_ECC_CE_CNT (c : CellId) : Nat := cellBase c + 0x960

/-- CELL.ECC_UE_CNT (R353). -/
def R.CELL_ECC_UE_CNT (c : CellId) : Nat := cellBase c + 0x968

/-- CELL.BIST_FAIL_CNT (R353). -/
def R.CELL_BIST_FAIL_CNT (c : CellId) : Nat := cellBase c + 0x970

/-- CELL.SRAM_RPR_CNT (R353). -/
def R.CELL_SRAM_RPR_CNT (c : CellId) : Nat := cellBase c + 0x978

/-- CELL.BIST_CTL (R352). -/
def R.CELL_BIST_CTL (c : CellId) : Nat := cellBase c + 0x980

/-- CELL.BIST_STAT (R352). -/
def R.CELL_BIST_STAT (c : CellId) : Nat := cellBase c + 0x988

/-- CELL.ECC_LAST (R352). -/
def R.CELL_ECC_LAST (c : CellId) : Nat := cellBase c + 0x990

/-- CELL.SRAM_RPRb_A (R352). -/
def R.CELL_SRAM_RPRb_A (c : CellId) (a : Nat) : Nat := cellBase c + 0xA00 + 16 * a

/-- CELL.SRAM_RPRb_B (R352). -/
def R.CELL_SRAM_RPRb_B (c : CellId) (a : Nat) : Nat := cellBase c + 0xA08 + 16 * a

/-- CELL.CLK_STAT (R464). -/
def R.CELL_CLK_STAT (c : CellId) : Nat := cellBase c + 0xD00

/-- CELL.WAKE_CNT (R469). -/
def R.CELL_WAKE_CNT (c : CellId) : Nat := cellBase c + 0xD08

/-- CELL.DBG_SEL (R418). -/
def R.CELL_DBG_SEL (c : CellId) : Nat := cellBase c + 0xE00

/-- CELL.DBG_DATA (R418). -/
def R.CELL_DBG_DATA (c : CellId) : Nat := cellBase c + 0xE08

/-- HZN.SPAN_STATp (R364). -/
def R.HZN_SPAN_STATp (h : Nat) (a : Nat) : Nat := hznBase h + 0x400 + 64 * a

/-- HZN.SPAN_CRC_CNTp (R365). -/
def R.HZN_SPAN_CRC_CNTp (h : Nat) (a : Nat) : Nat := hznBase h + 0x408 + 64 * a

/-- HZN.SPAN_REPLAY_CNTp (R365). -/
def R.HZN_SPAN_REPLAY_CNTp (h : Nat) (a : Nat) : Nat := hznBase h + 0x410 + 64 * a

/-- HZN.SPAN_RETRAIN_CNTp (R365). -/
def R.HZN_SPAN_RETRAIN_CNTp (h : Nat) (a : Nat) : Nat := hznBase h + 0x418 + 64 * a

/-- HZN.SPAN_LANE_CNTp (R365). -/
def R.HZN_SPAN_LANE_CNTp (h : Nat) (a : Nat) : Nat := hznBase h + 0x420 + 64 * a

/-- HZN.SPAN_FLIT_CNTp (R365). -/
def R.HZN_SPAN_FLIT_CNTp (h : Nat) (a : Nat) : Nat := hznBase h + 0x428 + 64 * a

/-- HZN.ETH_CFGq (R367). -/
def R.HZN_ETH_CFGq (h : Nat) (a : Nat) : Nat := hznBase h + 0x1000 + 256 * a

/-- HZN.ETH_STATq (R367). -/
def R.HZN_ETH_STATq (h : Nat) (a : Nat) : Nat := hznBase h + 0x1008 + 256 * a

/-- HZN.ETH_MACqk (R367). -/
def R.HZN_ETH_MACqk (h : Nat) (a : Nat) (b : Nat) : Nat := hznBase h + 0x1040 + 256 * a + 32 * b

/-- HZN.ETH_IP4qk (R367). -/
def R.HZN_ETH_IP4qk (h : Nat) (a : Nat) (b : Nat) : Nat := hznBase h + 0x1048 + 256 * a + 32 * b

/-- HZN.ETH_IP6Hqk (R367). -/
def R.HZN_ETH_IP6Hqk (h : Nat) (a : Nat) (b : Nat) : Nat := hznBase h + 0x1050 + 256 * a + 32 * b

/-- HZN.ETH_IP6Lqk (R367). -/
def R.HZN_ETH_IP6Lqk (h : Nat) (a : Nat) (b : Nat) : Nat := hznBase h + 0x1058 + 256 * a + 32 * b

/-- HZN.ETH_TX_CNTqk (R387). -/
def R.HZN_ETH_TX_CNTqk (h : Nat) (a : Nat) (b : Nat) : Nat := hznBase h + 0x1800 + 256 * a + 64 * b

/-- HZN.ETH_RX_CNTqk (R387). -/
def R.HZN_ETH_RX_CNTqk (h : Nat) (a : Nat) (b : Nat) : Nat := hznBase h + 0x1808 + 256 * a + 64 * b

/-- HZN.ETH_DROP_CNTqk (R387). -/
def R.HZN_ETH_DROP_CNTqk (h : Nat) (a : Nat) (b : Nat) : Nat := hznBase h + 0x1810 + 256 * a + 64 * b

/-- HZN.ASTP_BAD_CNTqk (R387). -/
def R.HZN_ASTP_BAD_CNTqk (h : Nat) (a : Nat) (b : Nat) : Nat := hznBase h + 0x1818 + 256 * a + 64 * b

/-- HZN.ASTP_RETX_CNTqk (R387). -/
def R.HZN_ASTP_RETX_CNTqk (h : Nat) (a : Nat) (b : Nat) : Nat := hznBase h + 0x1820 + 256 * a + 64 * b

/-- HZN.ASTP_STRAY_CNTqk (R387). -/
def R.HZN_ASTP_STRAY_CNTqk (h : Nat) (a : Nat) (b : Nat) : Nat := hznBase h + 0x1828 + 256 * a + 64 * b

/-- HZN.ASTP_DUP_CNTqk (R387). -/
def R.HZN_ASTP_DUP_CNTqk (h : Nat) (a : Nat) (b : Nat) : Nat := hznBase h + 0x1830 + 256 * a + 64 * b

/-- HZN.ASTP_INCOMPL_CNTqk (R387). -/
def R.HZN_ASTP_INCOMPL_CNTqk (h : Nat) (a : Nat) (b : Nat) : Nat := hznBase h + 0x1838 + 256 * a + 64 * b

/-- HZN.EPHi_LO (R395). -/
def R.HZN_EPHi_LO (h : Nat) (a : Nat) : Nat := hznBase h + 0x400000 + 16 * a

/-- HZN.EPHi_HI (R395). -/
def R.HZN_EPHi_HI (h : Nat) (a : Nat) : Nat := hznBase h + 0x400008 + 16 * a

/-- HZN.PEERi_A (R396). -/
def R.HZN_PEERi_A (h : Nat) (a : Nat) : Nat := hznBase h + 0x800000 + 32 * a

/-- HZN.PEERi_B (R396). -/
def R.HZN_PEERi_B (h : Nat) (a : Nat) : Nat := hznBase h + 0x800008 + 32 * a

/-- HZN.PEERi_C (R396). -/
def R.HZN_PEERi_C (h : Nat) (a : Nat) : Nat := hznBase h + 0x800010 + 32 * a

/-- STK.CHMAPj (R356). -/
def R.STK_CHMAPj (n : Nat) (a : Nat) : Nat := stkBase n + 0x100 + 8 * a

/-- STK.SPARE (R356). -/
def R.STK_SPARE (n : Nat) : Nat := stkBase n + 0x180

/-- STK.REMAP_CTL (R356). -/
def R.STK_REMAP_CTL (n : Nat) : Nat := stkBase n + 0x188

/-- STK.ECC_CE_CNT (R365). -/
def R.STK_ECC_CE_CNT (n : Nat) : Nat := stkBase n + 0x200

/-- STK.ECC_UE_CNT (R365). -/
def R.STK_ECC_UE_CNT (n : Nat) : Nat := stkBase n + 0x208

/-- STK.REMAP_CNT (R365). -/
def R.STK_REMAP_CNT (n : Nat) : Nat := stkBase n + 0x210

/-- STK.CH_CE_CNTc (R365). -/
def R.STK_CH_CE_CNTc (n : Nat) (a : Nat) : Nat := stkBase n + 0x1000 + 8 * a

/-- PART.CAP0 (R412). -/
def R.PART_CAP0 (p : Nat) : Nat := partBase p + 0x10

/-- PART.CAP1 (R412). -/
def R.PART_CAP1 (p : Nat) : Nat := partBase p + 0x18

/-- PART.CAP2 (R412). -/
def R.PART_CAP2 (p : Nat) : Nat := partBase p + 0x40

/-- PART.CAP3 (R412). -/
def R.PART_CAP3 (p : Nat) : Nat := partBase p + 0x48

/-- PART.HOSTk_A (R419). -/
def R.PART_HOSTk_A (p : Nat) (a : Nat) : Nat := partBase p + 0x80 + 24 * a

/-- PART.HOSTk_B (R419). -/
def R.PART_HOSTk_B (p : Nat) (a : Nat) : Nat := partBase p + 0x88 + 24 * a

/-- PART.HOSTk_C (R419). -/
def R.PART_HOSTk_C (p : Nat) (a : Nat) : Nat := partBase p + 0x90 + 24 * a

/-- PART.NUM_MODE (R55). -/
def R.PART_NUM_MODE (p : Nat) : Nat := partBase p + 0x100

/-- PART.WIDE_MODE (R127). -/
def R.PART_WIDE_MODE (p : Nat) : Nat := partBase p + 0x108

/-- PART.ACC_MODE (R162). -/
def R.PART_ACC_MODE (p : Nat) : Nat := partBase p + 0x110

/-- PART.TBL_CFG (R496). -/
def R.PART_TBL_CFG (p : Nat) : Nat := partBase p + 0x120

/-- PART.TBL0_LO (R496). -/
def R.PART_TBL0_LO (p : Nat) : Nat := partBase p + 0x130

/-- PART.TBL0_HI (R496). -/
def R.PART_TBL0_HI (p : Nat) : Nat := partBase p + 0x138

/-- PART.TBL1_LO (R496). -/
def R.PART_TBL1_LO (p : Nat) : Nat := partBase p + 0x140

/-- PART.TBL1_HI (R496). -/
def R.PART_TBL1_HI (p : Nat) : Nat := partBase p + 0x148

/-- PART.TBL2_LO (R496). -/
def R.PART_TBL2_LO (p : Nat) : Nat := partBase p + 0x150

/-- PART.TBL2_HI (R496). -/
def R.PART_TBL2_HI (p : Nat) : Nat := partBase p + 0x158

/-- PART.TBL3_LO (R496). -/
def R.PART_TBL3_LO (p : Nat) : Nat := partBase p + 0x160

/-- PART.TBL3_HI (R496). -/
def R.PART_TBL3_HI (p : Nat) : Nat := partBase p + 0x168

/-- PART.CELLMAPj (R416). -/
def R.PART_CELLMAPj (p : Nat) (a : Nat) : Nat := partBase p + 0x180 + 8 * a

/-- PART.NAN_TRAP0 (R67). -/
def R.PART_NAN_TRAP0 (p : Nat) : Nat := partBase p + 0x200

/-- PART.NAN_TRAP1 (R67). -/
def R.PART_NAN_TRAP1 (p : Nat) : Nat := partBase p + 0x208

/-- PART.NAN_TRAP2 (R67). -/
def R.PART_NAN_TRAP2 (p : Nat) : Nat := partBase p + 0x210

/-- PART.NAN_TRAP3 (R67). -/
def R.PART_NAN_TRAP3 (p : Nat) : Nat := partBase p + 0x218

/-- PART.NAN_TRAP4 (R67). -/
def R.PART_NAN_TRAP4 (p : Nat) : Nat := partBase p + 0x220

/-- PART.NAN_TRAP5 (R67). -/
def R.PART_NAN_TRAP5 (p : Nat) : Nat := partBase p + 0x228

/-- PART.NAN_TRAP6 (R67). -/
def R.PART_NAN_TRAP6 (p : Nat) : Nat := partBase p + 0x230

/-- PART.ALM_RANGE (R165). -/
def R.PART_ALM_RANGE (p : Nat) : Nat := partBase p + 0x300

/-- PART.ALM_POLICY (R178). -/
def R.PART_ALM_POLICY (p : Nat) : Nat := partBase p + 0x308

/-- PART.ALM_POLICY_C (R178). -/
def R.PART_ALM_POLICY_C (p : Nat) : Nat := partBase p + 0x310

/-- PART.LADDER0 (R177). -/
def R.PART_LADDER0 (p : Nat) : Nat := partBase p + 0x320

/-- PART.LADDER1 (R177). -/
def R.PART_LADDER1 (p : Nat) : Nat := partBase p + 0x328

/-- PART.LADDER2 (R177). -/
def R.PART_LADDER2 (p : Nat) : Nat := partBase p + 0x330

/-- PART.LADDER3 (R177). -/
def R.PART_LADDER3 (p : Nat) : Nat := partBase p + 0x338

/-- PART.ALM_STEP (R173). -/
def R.PART_ALM_STEP (p : Nat) : Nat := partBase p + 0x340

/-- PART.ALM_CKPT (R185). -/
def R.PART_ALM_CKPT (p : Nat) : Nat := partBase p + 0x348

/-- PART.ALM_CKPT_ADDR (R185). -/
def R.PART_ALM_CKPT_ADDR (p : Nat) : Nat := partBase p + 0x350

/-- PART.ALM_STORM_CNT (R188). -/
def R.PART_ALM_STORM_CNT (p : Nat) : Nat := partBase p + 0x360

/-- PART.ALM_UP_CNT (R188). -/
def R.PART_ALM_UP_CNT (p : Nat) : Nat := partBase p + 0x368

/-- PART.ALM_DOWN_CNT (R188). -/
def R.PART_ALM_DOWN_CNT (p : Nat) : Nat := partBase p + 0x370

/-- PART.ALM_COLD_CNT (R188). -/
def R.PART_ALM_COLD_CNT (p : Nat) : Nat := partBase p + 0x378

/-- PART.ALM_LOST_CNT (R188). -/
def R.PART_ALM_LOST_CNT (p : Nat) : Nat := partBase p + 0x380

/-- PART.ALM_DISC_CNT (R188). -/
def R.PART_ALM_DISC_CNT (p : Nat) : Nat := partBase p + 0x388

/-- PART.ZEN_SHARE (R219). -/
def R.PART_ZEN_SHARE (p : Nat) : Nat := partBase p + 0x400

/-- PART.ZEN_RANGE (R221). -/
def R.PART_ZEN_RANGE (p : Nat) : Nat := partBase p + 0x408

/-- PART.ZEN_CTL (R225). -/
def R.PART_ZEN_CTL (p : Nat) : Nat := partBase p + 0x410

/-- PART.ZEN_SEED (R225). -/
def R.PART_ZEN_SEED (p : Nat) : Nat := partBase p + 0x418

/-- PART.ZEN_STEP (R225). -/
def R.PART_ZEN_STEP (p : Nat) : Nat := partBase p + 0x420

/-- PART.ZEN_STAT (R225). -/
def R.PART_ZEN_STAT (p : Nat) : Nat := partBase p + 0x428

/-- PART.ZEN_BIND (R225). -/
def R.PART_ZEN_BIND (p : Nat) : Nat := partBase p + 0x430

/-- PART.ZEN_PC1 (R225). -/
def R.PART_ZEN_PC1 (p : Nat) : Nat := partBase p + 0x438

/-- PART.ZEN_PC2 (R225). -/
def R.PART_ZEN_PC2 (p : Nat) : Nat := partBase p + 0x440

/-- PART.ZEN_HPj (R225). -/
def R.PART_ZEN_HPj (p : Nat) (a : Nat) : Nat := partBase p + 0x448 + 8 * a

/-- PART.ZEN_BLK1_CNT (R240). -/
def R.PART_ZEN_BLK1_CNT (p : Nat) : Nat := partBase p + 0x490

/-- PART.ZEN_BLK2_CNT (R240). -/
def R.PART_ZEN_BLK2_CNT (p : Nat) : Nat := partBase p + 0x498

/-- PART.ZEN_FROZEN_CNT (R240). -/
def R.PART_ZEN_FROZEN_CNT (p : Nat) : Nat := partBase p + 0x4A0

/-- PART.ZEN_SKIP_CNT (R240). -/
def R.PART_ZEN_SKIP_CNT (p : Nat) : Nat := partBase p + 0x4A8

/-- PART.ZEN_SEAL_CNT (R240). -/
def R.PART_ZEN_SEAL_CNT (p : Nat) : Nat := partBase p + 0x4B0

/-- PART.ZEN_SR_CNT (R240). -/
def R.PART_ZEN_SR_CNT (p : Nat) : Nat := partBase p + 0x4B8

/-- PART.ZEN_LIFT_CNT (R240). -/
def R.PART_ZEN_LIFT_CNT (p : Nat) : Nat := partBase p + 0x4C0

/-- PART.ZEN_LFAIL_CNT (R240). -/
def R.PART_ZEN_LFAIL_CNT (p : Nat) : Nat := partBase p + 0x4C8

/-- PART.ZEN_FB_CNT (R240). -/
def R.PART_ZEN_FB_CNT (p : Nat) : Nat := partBase p + 0x4D0

/-- PART.VRD_CFG (R241). -/
def R.PART_VRD_CFG (p : Nat) : Nat := partBase p + 0x500

/-- PART.VRD_EXPECTj (R241). -/
def R.PART_VRD_EXPECTj (p : Nat) (a : Nat) : Nat := partBase p + 0x508 + 8 * a

/-- PART.VRD_OWN (R256). -/
def R.PART_VRD_OWN (p : Nat) : Nat := partBase p + 0x548

/-- PART.VRD_STAT (R256). -/
def R.PART_VRD_STAT (p : Nat) : Nat := partBase p + 0x550

/-- PART.VRD_LAST (R256). -/
def R.PART_VRD_LAST (p : Nat) : Nat := partBase p + 0x558

/-- PART.VRD_NSQ (R256). -/
def R.PART_VRD_NSQ (p : Nat) : Nat := partBase p + 0x560

/-- PART.VRD_APPLIED (R256). -/
def R.PART_VRD_APPLIED (p : Nat) : Nat := partBase p + 0x568

/-- PART.VRD_UNC (R254). -/
def R.PART_VRD_UNC (p : Nat) : Nat := partBase p + 0x570

/-- PART.VRD_CNTs (R256). -/
def R.PART_VRD_CNTs (p : Nat) (a : Nat) : Nat := partBase p + 0x580 + 8 * a

/-- PART.VRD_CLEAN_CNT (R258). -/
def R.PART_VRD_CLEAN_CNT (p : Nat) : Nat := partBase p + 0x600

/-- PART.VRD_DIRTY_CNT (R258). -/
def R.PART_VRD_DIRTY_CNT (p : Nat) : Nat := partBase p + 0x608

/-- PART.VRD_BITk_CNT (R258). -/
def R.PART_VRD_BITk_CNT (p : Nat) (a : Nat) : Nat := partBase p + 0x610 + 8 * a

/-- PART.VRD_STRAY_CNT (R258). -/
def R.PART_VRD_STRAY_CNT (p : Nat) : Nat := partBase p + 0x650

/-- PART.RUN_CTL (R282). -/
def R.PART_RUN_CTL (p : Nat) : Nat := partBase p + 0x700

/-- PART.BAR_CFG (R283). -/
def R.PART_BAR_CFG (p : Nat) : Nat := partBase p + 0x708

/-- PART.LAUNCH_MISS_CNT (R288). -/
def R.PART_LAUNCH_MISS_CNT (p : Nat) : Nat := partBase p + 0x710

/-- PART.BARk (R283). -/
def R.PART_BARk (p : Nat) (a : Nat) : Nat := partBase p + 0x800 + 8 * a

/-- PART.TIER_CFG (R325). -/
def R.PART_TIER_CFG (p : Nat) : Nat := partBase p + 0xA00

/-- PART.TIER_QUOTA (R327). -/
def R.PART_TIER_QUOTA (p : Nat) : Nat := partBase p + 0xA08

/-- PART.TIER_USE (R327). -/
def R.PART_TIER_USE (p : Nat) : Nat := partBase p + 0xA10

/-- PART.RFENCEk_A (R328). -/
def R.PART_RFENCEk_A (p : Nat) (a : Nat) : Nat := partBase p + 0xA40 + 16 * a

/-- PART.RFENCEk_B (R328). -/
def R.PART_RFENCEk_B (p : Nat) (a : Nat) : Nat := partBase p + 0xA48 + 16 * a

/-- PART.TIER_MOVE_CNT (R335). -/
def R.PART_TIER_MOVE_CNT (p : Nat) : Nat := partBase p + 0xB40

/-- PART.TIER_ABANDON_CNT (R335). -/
def R.PART_TIER_ABANDON_CNT (p : Nat) : Nat := partBase p + 0xB48

/-- PART.TIER_DEFER_CNT (R335). -/
def R.PART_TIER_DEFER_CNT (p : Nat) : Nat := partBase p + 0xB50

/-- PART.TIER_HINT_IGN_CNT (R335). -/
def R.PART_TIER_HINT_IGN_CNT (p : Nat) : Nat := partBase p + 0xB58

/-- PART.TIER_EMPTY_CNT (R335). -/
def R.PART_TIER_EMPTY_CNT (p : Nat) : Nat := partBase p + 0xB60

/-- PART.TIER_NOTREADY_CNT (R335). -/
def R.PART_TIER_NOTREADY_CNT (p : Nat) : Nat := partBase p + 0xB68

/-- PART.TIER_SPILL_RAW_CNT (R335). -/
def R.PART_TIER_SPILL_RAW_CNT (p : Nat) : Nat := partBase p + 0xB70

/-- PART.EPH_RANGEh (R400). -/
def R.PART_EPH_RANGEh (p : Nat) (a : Nat) : Nat := partBase p + 0xC00 + 8 * a

/-- PART.TT_EPOCHt (R400). -/
def R.PART_TT_EPOCHt (p : Nat) (a : Nat) : Nat := partBase p + 0xC20 + 16 * a

/-- PART.TT_CFGt (R400). -/
def R.PART_TT_CFGt (p : Nat) (a : Nat) : Nat := partBase p + 0xC28 + 16 * a

/-- PART.TT_CTL (R400). -/
def R.PART_TT_CTL (p : Nat) : Nat := partBase p + 0xC40

/-- PART.TT_SWAT (R400). -/
def R.PART_TT_SWAT (p : Nat) : Nat := partBase p + 0xC48

/-- PART.EPH_WAKE (R400). -/
def R.PART_EPH_WAKE (p : Nat) : Nat := partBase p + 0xC50

/-- PART.ELAUNCHj_0 (R408). -/
def R.PART_ELAUNCHj_0 (p : Nat) (a : Nat) : Nat := partBase p + 0xC80 + 32 * a

/-- PART.ELAUNCHj_1 (R408). -/
def R.PART_ELAUNCHj_1 (p : Nat) (a : Nat) : Nat := partBase p + 0xC88 + 32 * a

/-- PART.ELAUNCHj_2 (R408). -/
def R.PART_ELAUNCHj_2 (p : Nat) (a : Nat) : Nat := partBase p + 0xC90 + 32 * a

/-- PART.ELAUNCHj_3 (R408). -/
def R.PART_ELAUNCHj_3 (p : Nat) (a : Nat) : Nat := partBase p + 0xC98 + 32 * a

/-- PART.EPH_RSV_CNT (R410). -/
def R.PART_EPH_RSV_CNT (p : Nat) : Nat := partBase p + 0xD80

/-- PART.EPH_LATE_CNT (R410). -/
def R.PART_EPH_LATE_CNT (p : Nat) : Nat := partBase p + 0xD88

/-- PART.EPH_SWITCH_CNT (R410). -/
def R.PART_EPH_SWITCH_CNT (p : Nat) : Nat := partBase p + 0xD90

/-- PART.EPH_LOST_CNT (R410). -/
def R.PART_EPH_LOST_CNT (p : Nat) : Nat := partBase p + 0xD98

/-- PART.EPH_WAKE_LATE_CNT (R410). -/
def R.PART_EPH_WAKE_LATE_CNT (p : Nat) : Nat := partBase p + 0xDA0

/-- PART.EPH_BUMP_CNT (R410). -/
def R.PART_EPH_BUMP_CNT (p : Nat) : Nat := partBase p + 0xDA8

/-- PART.CSR_VIOL_CNT (R426). -/
def R.PART_CSR_VIOL_CNT (p : Nat) : Nat := partBase p + 0xE00

/-- PART.CSR_VIOL_LAST (R426). -/
def R.PART_CSR_VIOL_LAST (p : Nat) : Nat := partBase p + 0xE08

/-- PART.CONFLICT_CNT (R426). -/
def R.PART_CONFLICT_CNT (p : Nat) : Nat := partBase p + 0xE10

/-- PART.CAP_CLIP_CNT (R426). -/
def R.PART_CAP_CLIP_CNT (p : Nat) : Nat := partBase p + 0xE18

/-- PART.PLX_CFG (R427). -/
def R.PART_PLX_CFG (p : Nat) : Nat := partBase p + 0xF00

/-- PART.PLX_SAMPLE_CNT (R450). -/
def R.PART_PLX_SAMPLE_CNT (p : Nat) : Nat := partBase p + 0xF10

/-- PART.PLX_SOFT_CNT (R450). -/
def R.PART_PLX_SOFT_CNT (p : Nat) : Nat := partBase p + 0xF18

/-- PART.PLX_HARD_CNT (R450). -/
def R.PART_PLX_HARD_CNT (p : Nat) : Nat := partBase p + 0xF20

/-- PART.PLX_SATSOFT_CNT (R450). -/
def R.PART_PLX_SATSOFT_CNT (p : Nat) : Nat := partBase p + 0xF28

/-- PART.PLX_STALE_CNT (R450). -/
def R.PART_PLX_STALE_CNT (p : Nat) : Nat := partBase p + 0xF30

/-- PART.PLX_DROP_CNT (R450). -/
def R.PART_PLX_DROP_CNT (p : Nat) : Nat := partBase p + 0xF38

/-- PART.PLX_MAXQk (R450). -/
def R.PART_PLX_MAXQk (p : Nat) (a : Nat) : Nat := partBase p + 0xF40 + 8 * a

/-- PART.FLT_LAST (R446). -/
def R.PART_FLT_LAST (p : Nat) : Nat := partBase p + 0xF80

/-- MGMT.CSR_VIOL_CNT (R426). -/
def R.MGMT_CSR_VIOL_CNT : Nat := mgmtBase + 0x100

/-- MGMT.SVC_CMD (R447). -/
def R.MGMT_SVC_CMD : Nat := mgmtBase + 0x200

/-- MGMT.SVC_STAT (R447). -/
def R.MGMT_SVC_STAT : Nat := mgmtBase + 0x208

/-- MGMT.FLT_POLICY (R441). -/
def R.MGMT_FLT_POLICY : Nat := mgmtBase + 0x210

/-- MGMT.PWR_CFG (R456). -/
def R.MGMT_PWR_CFG : Nat := mgmtBase + 0x300

/-- MGMT.RST_CMD (R467). -/
def R.MGMT_RST_CMD : Nat := mgmtBase + 0x308

/-- MGMT.RST_STAT (R467). -/
def R.MGMT_RST_STAT : Nat := mgmtBase + 0x310

/-- MGMT.BOOT_STAT (R460). -/
def R.MGMT_BOOT_STAT : Nat := mgmtBase + 0x318

/-- MGMT.FW_STAT (R476). -/
def R.MGMT_FW_STAT : Nat := mgmtBase + 0x400

/-- MGMT.FW_CTL (R476). -/
def R.MGMT_FW_CTL : Nat := mgmtBase + 0x408

/-- MGMT.ID_STAT (R479). -/
def R.MGMT_ID_STAT : Nat := mgmtBase + 0x410

/-- MGMT.FW_FAIL_CNT (R482). -/
def R.MGMT_FW_FAIL_CNT : Nat := mgmtBase + 0x418

/-- MGMT.ID_REFUSE_CNT (R482). -/
def R.MGMT_ID_REFUSE_CNT : Nat := mgmtBase + 0x420

/-- PANEL.ID.VENDOR [63:48]. -/
def F.PANEL_ID_VENDOR : Nat × Nat := (63, 48)

/-- PANEL.ID.PART [47:32]. -/
def F.PANEL_ID_PART : Nat × Nat := (47, 32)

/-- PANEL.ID.MEM_TIB [31:24]. -/
def F.PANEL_ID_MEM_TIB : Nat × Nat := (31, 24)

/-- PANEL.ID.STEP_LETTER [23:16]. -/
def F.PANEL_ID_STEP_LETTER : Nat × Nat := (23, 16)

/-- PANEL.ID.STEP_DIGIT [15:8]. -/
def F.PANEL_ID_STEP_DIGIT : Nat × Nat := (15, 8)

/-- PANEL.CELL_COUNT.RETIRED [63:48]. -/
def F.PANEL_CELL_COUNT_RETIRED : Nat × Nat := (63, 48)

/-- PANEL.CELL_COUNT.FENCED [47:32]. -/
def F.PANEL_CELL_COUNT_FENCED : Nat × Nat := (47, 32)

/-- PANEL.CELL_COUNT.SPARE [31:16]. -/
def F.PANEL_CELL_COUNT_SPARE : Nat × Nat := (31, 16)

/-- PANEL.CELL_COUNT.ACTIVE [15:0]. -/
def F.PANEL_CELL_COUNT_ACTIVE : Nat × Nat := (15, 0)

/-- PANEL.MOD_ID.MOD_ID [31:0]. -/
def F.PANEL_MOD_ID_MOD_ID : Nat × Nat := (31, 0)

/-- PANEL.ASTP_CFG.WIN [47:40]. -/
def F.PANEL_ASTP_CFG_WIN : Nat × Nat := (47, 40)

/-- PANEL.ASTP_CFG.RTO [39:32]. -/
def F.PANEL_ASTP_CFG_RTO : Nat × Nat := (39, 32)

/-- PANEL.ASTP_CFG.STMO [31:16]. -/
def F.PANEL_ASTP_CFG_STMO : Nat × Nat := (31, 16)

/-- PANEL.ASTP_CFG.UDP_PORT [15:0]. -/
def F.PANEL_ASTP_CFG_UDP_PORT : Nat × Nat := (15, 0)

/-- PANEL.PTP_CFG.DOMAIN [63:56]. -/
def F.PANEL_PTP_CFG_DOMAIN : Nat × Nat := (63, 56)

/-- PANEL.PTP_CFG.HOLD_MAX [47:40]. -/
def F.PANEL_PTP_CFG_HOLD_MAX : Nat × Nat := (47, 40)

/-- PANEL.PTP_CFG.TRANSPORT [33:32]. -/
def F.PANEL_PTP_CFG_TRANSPORT : Nat × Nat := (33, 32)

/-- PANEL.PTP_CFG.PORTS [31:0]. -/
def F.PANEL_PTP_CFG_PORTS : Nat × Nat := (31, 0)

/-- PANEL.MER_STAT.STATE [63:62]. -/
def F.PANEL_MER_STAT_STATE : Nat × Nat := (63, 62)

/-- PANEL.MER_STAT.PORT [61:57]. -/
def F.PANEL_MER_STAT_PORT : Nat × Nat := (61, 57)

/-- PANEL.MER_STAT.SUB [56:55]. -/
def F.PANEL_MER_STAT_SUB : Nat × Nat := (56, 55)

/-- PANEL.MER_STAT.OFFSET [31:0]. -/
def F.PANEL_MER_STAT_OFFSET : Nat × Nat := (31, 0)

/-- PANEL.PLX_TOL0.HARD [63:32]. -/
def F.PANEL_PLX_TOL0_HARD : Nat × Nat := (63, 32)

/-- PANEL.PLX_TOL0.SOFT [31:0]. -/
def F.PANEL_PLX_TOL0_SOFT : Nat × Nat := (31, 0)

/-- PANEL.PLX_TOL1.HARD [63:32]. -/
def F.PANEL_PLX_TOL1_HARD : Nat × Nat := (63, 32)

/-- PANEL.PLX_TOL1.SOFT [31:0]. -/
def F.PANEL_PLX_TOL1_SOFT : Nat × Nat := (31, 0)

/-- PANEL.PLX_TOL2.HARD [63:32]. -/
def F.PANEL_PLX_TOL2_HARD : Nat × Nat := (63, 32)

/-- PANEL.PLX_TOL2.SOFT [31:0]. -/
def F.PANEL_PLX_TOL2_SOFT : Nat × Nat := (31, 0)

/-- PANEL.PLX_TOL3.HARD [63:32]. -/
def F.PANEL_PLX_TOL3_HARD : Nat × Nat := (63, 32)

/-- PANEL.PLX_TOL3.SOFT [31:0]. -/
def F.PANEL_PLX_TOL3_SOFT : Nat × Nat := (31, 0)

/-- PANEL.PLX_TOL4.HARD [63:32]. -/
def F.PANEL_PLX_TOL4_HARD : Nat × Nat := (63, 32)

/-- PANEL.PLX_TOL4.SOFT [31:0]. -/
def F.PANEL_PLX_TOL4_SOFT : Nat × Nat := (31, 0)

/-- PANEL.PWR_STAT.PIN [63:48]. -/
def F.PANEL_PWR_STAT_PIN : Nat × Nat := (63, 48)

/-- PANEL.PWR_STAT.PEFF [47:32]. -/
def F.PANEL_PWR_STAT_PEFF : Nat × Nat := (47, 32)

/-- PANEL.PWR_STAT.VIN [31:24]. -/
def F.PANEL_PWR_STAT_VIN : Nat × Nat := (31, 24)

/-- PANEL.PWR_STAT.FSTEP [23:18]. -/
def F.PANEL_PWR_STAT_FSTEP : Nat × Nat := (23, 18)

/-- PANEL.PWR_STAT.THERM [17:17]. -/
def F.PANEL_PWR_STAT_THERM : Nat × Nat := (17, 17)

/-- PANEL.PWR_STAT.ILIM [16:16]. -/
def F.PANEL_PWR_STAT_ILIM : Nat × Nat := (16, 16)

/-- PANEL.PWR_STAT.MODE [0:0]. -/
def F.PANEL_PWR_STAT_MODE : Nat × Nat := (0, 0)

/-- PANEL.QPi_W0.STATE [63:62]. -/
def F.PANEL_QPi_W0_STATE : Nat × Nat := (63, 62)

/-- PANEL.QPi_W0.PART [61:56]. -/
def F.PANEL_QPi_W0_PART : Nat × Nat := (61, 56)

/-- PANEL.QPi_W0.MTU [55:54]. -/
def F.PANEL_QPi_W0_MTU : Nat × Nat := (55, 54)

/-- PANEL.QPi_W0.RNR [53:49]. -/
def F.PANEL_QPi_W0_RNR : Nat × Nat := (53, 49)

/-- PANEL.QPi_W0.V6 [48:48]. -/
def F.PANEL_QPi_W0_V6 : Nat × Nat := (48, 48)

/-- PANEL.QPi_W0.DQPN [47:24]. -/
def F.PANEL_QPi_W0_DQPN : Nat × Nat := (47, 24)

/-- PANEL.QPi_W0.EPSN [23:0]. -/
def F.PANEL_QPi_W0_EPSN : Nat × Nat := (23, 0)

/-- PANEL.QPi_W3.RING [47:0]. -/
def F.PANEL_QPi_W3_RING : Nat × Nat := (47, 0)

/-- PANEL.QPi_W4.SLOTS [15:0]. -/
def F.PANEL_QPi_W4_SLOTS : Nat × Nat := (15, 0)

/-- PANEL.MRr_W0.STATE [63:62]. -/
def F.PANEL_MRr_W0_STATE : Nat × Nat := (63, 62)

/-- PANEL.MRr_W0.PART [61:56]. -/
def F.PANEL_MRr_W0_PART : Nat × Nat := (61, 56)

/-- PANEL.MRr_W0.RIGHTS [55:54]. -/
def F.PANEL_MRr_W0_RIGHTS : Nat × Nat := (55, 54)

/-- PANEL.MRr_W0.GEN [43:32]. -/
def F.PANEL_MRr_W0_GEN : Nat × Nat := (43, 32)

/-- PANEL.MRr_W1.BASE [47:0]. -/
def F.PANEL_MRr_W1_BASE : Nat × Nat := (47, 0)

/-- PANEL.MRr_W2.LEN [47:0]. -/
def F.PANEL_MRr_W2_LEN : Nat × Nat := (47, 0)

/-- DIE.SLOT_STATE2.S [3:0]. -/
def F.DIE_SLOT_STATE2_S : Nat × Nat := (3, 0)

/-- DIE.SPAN_STATp.STATE [63:62]. -/
def F.DIE_SPAN_STATp_STATE : Nat × Nat := (63, 62)

/-- DIE.SPAN_STATp.DEGR [61:61]. -/
def F.DIE_SPAN_STATp_DEGR : Nat × Nat := (61, 61)

/-- DIE.SPAN_STATp.SPTX [57:54]. -/
def F.DIE_SPAN_STATp_SPTX : Nat × Nat := (57, 54)

/-- DIE.SPAN_STATp.SPRX [53:50]. -/
def F.DIE_SPAN_STATp_SPRX : Nat × Nat := (53, 50)

/-- DIE.SPAN_STATp.CREDIT [31:0]. -/
def F.DIE_SPAN_STATp_CREDIT : Nat × Nat := (31, 0)

/-- DIE.ALM_W8.VALID [63:63]. -/
def F.DIE_ALM_W8_VALID : Nat × Nat := (63, 63)

/-- DIE.ALM_W8.PIN [62:62]. -/
def F.DIE_ALM_W8_PIN : Nat × Nat := (62, 62)

/-- DIE.ALM_W8.PFMT [61:56]. -/
def F.DIE_ALM_W8_PFMT : Nat × Nat := (61, 56)

/-- DIE.ALM_W8.LADDER [55:54]. -/
def F.DIE_ALM_W8_LADDER : Nat × Nat := (55, 54)

/-- DIE.ALM_W8.START_POS [53:52]. -/
def F.DIE_ALM_W8_START_POS : Nat × Nat := (53, 52)

/-- DIE.ALM_W8.H [51:49]. -/
def F.DIE_ALM_W8_H : Nat × Nat := (51, 49)

/-- DIE.ALM_W8.WIN [48:45]. -/
def F.DIE_ALM_W8_WIN : Nat × Nat := (48, 45)

/-- DIE.ALM_W8.COLD_INIT [44:44]. -/
def F.DIE_ALM_W8_COLD_INIT : Nat × Nat := (44, 44)

/-- DIE.ALM_W8.S_INIT [43:36]. -/
def F.DIE_ALM_W8_S_INIT : Nat × Nat := (43, 36)

/-- DIE.ALM_W9.S [63:16]. -/
def F.DIE_ALM_W9_S : Nat × Nat := (63, 16)

/-- DIE.ALM_W9.HPTR [15:12]. -/
def F.DIE_ALM_W9_HPTR : Nat × Nat := (15, 12)

/-- DIE.ALM_W9.T [11:3]. -/
def F.DIE_ALM_W9_T : Nat × Nat := (11, 3)

/-- DIE.ZDIR_W0.VALID [63:63]. -/
def F.DIE_ZDIR_W0_VALID : Nat × Nat := (63, 63)

/-- DIE.ZDIR_W0.FROZEN [62:62]. -/
def F.DIE_ZDIR_W0_FROZEN : Nat × Nat := (62, 62)

/-- DIE.ZDIR_W0.FZNORM [61:61]. -/
def F.DIE_ZDIR_W0_FZNORM : Nat × Nat := (61, 61)

/-- DIE.ZDIR_W0.GFX [60:60]. -/
def F.DIE_ZDIR_W0_GFX : Nat × Nat := (60, 60)

/-- DIE.ZDIR_W0.WFMT [59:54]. -/
def F.DIE_ZDIR_W0_WFMT : Nat × Nat := (59, 54)

/-- DIE.ZDIR_W0.MFMT [53:48]. -/
def F.DIE_ZDIR_W0_MFMT : Nat × Nat := (53, 48)

/-- DIE.ZDIR_W0.VFMT [47:42]. -/
def F.DIE_ZDIR_W0_VFMT : Nat × Nat := (47, 42)

/-- DIE.ZDIR_W0.QFMT [41:36]. -/
def F.DIE_ZDIR_W0_QFMT : Nat × Nat := (41, 36)

/-- DIE.ZDIR_W0.QGRP [35:28]. -/
def F.DIE_ZDIR_W0_QGRP : Nat × Nat := (35, 28)

/-- DIE.ZDIR_W0.COUNT [16:0]. -/
def F.DIE_ZDIR_W0_COUNT : Nat × Nat := (16, 0)

/-- DIE.ZDIR_W1.ADDR [47:0]. -/
def F.DIE_ZDIR_W1_ADDR : Nat × Nat := (47, 0)

/-- DIE.ZDIR_W2.ADDR [47:0]. -/
def F.DIE_ZDIR_W2_ADDR : Nat × Nat := (47, 0)

/-- DIE.ZDIR_W3.ADDR [47:0]. -/
def F.DIE_ZDIR_W3_ADDR : Nat × Nat := (47, 0)

/-- DIE.ZDIR_W4.ADDR [47:0]. -/
def F.DIE_ZDIR_W4_ADDR : Nat × Nat := (47, 0)

/-- DIE.ZDIR_W5.ADDR [47:0]. -/
def F.DIE_ZDIR_W5_ADDR : Nat × Nat := (47, 0)

/-- DIE.ZDIR_W6.ADDR [47:0]. -/
def F.DIE_ZDIR_W6_ADDR : Nat × Nat := (47, 0)

/-- DIE.ZDIR_W7.PINDEX [63:24]. -/
def F.DIE_ZDIR_W7_PINDEX : Nat × Nat := (63, 24)

/-- DIE.ZDIR_W7.MSCALE [23:16]. -/
def F.DIE_ZDIR_W7_MSCALE : Nat × Nat := (23, 16)

/-- DIE.ZDIR_W7.VSCALE [15:8]. -/
def F.DIE_ZDIR_W7_VSCALE : Nat × Nat := (15, 8)

/-- DIE.ZDIR_W7.FB [0:0]. -/
def F.DIE_ZDIR_W7_FB : Nat × Nat := (0, 0)

/-- CELL.ID.OWNED [40:40]. -/
def F.CELL_ID_OWNED : Nat × Nat := (40, 40)

/-- CELL.ID.PART [39:34]. -/
def F.CELL_ID_PART : Nat × Nat := (39, 34)

/-- CELL.ID.STATE [33:32]. -/
def F.CELL_ID_STATE : Nat × Nat := (33, 32)

/-- CELL.ID.LOGICAL [31:16]. -/
def F.CELL_ID_LOGICAL : Nat × Nat := (31, 16)

/-- CELL.ID.SLOT [15:8]. -/
def F.CELL_ID_SLOT : Nat × Nat := (15, 8)

/-- CELL.ID.DIE [7:0]. -/
def F.CELL_ID_DIE : Nat × Nat := (7, 0)

/-- CELL.CONV_CTL.OTHR_B [7:5]. -/
def F.CELL_CONV_CTL_OTHR_B : Nat × Nat := (7, 5)

/-- CELL.CONV_CTL.OUTL_EN_B [4:4]. -/
def F.CELL_CONV_CTL_OUTL_EN_B : Nat × Nat := (4, 4)

/-- CELL.CONV_CTL.OTHR_A [3:1]. -/
def F.CELL_CONV_CTL_OTHR_A : Nat × Nat := (3, 1)

/-- CELL.CONV_CTL.OUTL_EN_A [0:0]. -/
def F.CELL_CONV_CTL_OUTL_EN_A : Nat × Nat := (0, 0)

/-- CELL.TBL_CFG.W3 [7:6]. -/
def F.CELL_TBL_CFG_W3 : Nat × Nat := (7, 6)

/-- CELL.TBL_CFG.W2 [5:4]. -/
def F.CELL_TBL_CFG_W2 : Nat × Nat := (5, 4)

/-- CELL.TBL_CFG.W1 [3:2]. -/
def F.CELL_TBL_CFG_W1 : Nat × Nat := (3, 2)

/-- CELL.TBL_CFG.W0 [1:0]. -/
def F.CELL_TBL_CFG_W0 : Nat × Nat := (1, 0)

/-- CELL.DUSK_STAT.FA1 [7:6]. -/
def F.CELL_DUSK_STAT_FA1 : Nat × Nat := (7, 6)

/-- CELL.DUSK_STAT.FA0 [5:4]. -/
def F.CELL_DUSK_STAT_FA0 : Nat × Nat := (5, 4)

/-- CELL.DUSK_STAT.INFLIGHT [3:2]. -/
def F.CELL_DUSK_STAT_INFLIGHT : Nat × Nat := (3, 2)

/-- CELL.DUSK_STAT.COLS [1:0]. -/
def F.CELL_DUSK_STAT_COLS : Nat × Nat := (1, 0)

/-- CELL.DUSK_CTL.GATE_IDLE [11:0]. -/
def F.CELL_DUSK_CTL_GATE_IDLE : Nat × Nat := (11, 0)

/-- CELL.DAWN_STAT.CHK [9:9]. -/
def F.CELL_DAWN_STAT_CHK : Nat × Nat := (9, 9)

/-- CELL.DAWN_STAT.OUTL [8:8]. -/
def F.CELL_DAWN_STAT_OUTL : Nat × Nat := (8, 8)

/-- CELL.DAWN_STAT.BA1 [7:6]. -/
def F.CELL_DAWN_STAT_BA1 : Nat × Nat := (7, 6)

/-- CELL.DAWN_STAT.BA0 [5:4]. -/
def F.CELL_DAWN_STAT_BA0 : Nat × Nat := (5, 4)

/-- CELL.DAWN_STAT.INFLIGHT [3:2]. -/
def F.CELL_DAWN_STAT_INFLIGHT : Nat × Nat := (3, 2)

/-- CELL.DAWN_STAT.COLS [1:0]. -/
def F.CELL_DAWN_STAT_COLS : Nat × Nat := (1, 0)

/-- CELL.DAWN_CTL.GATE_IDLE [11:0]. -/
def F.CELL_DAWN_CTL_GATE_IDLE : Nat × Nat := (11, 0)

/-- CELL.SEQ_STAT.STATE [63:61]. -/
def F.CELL_SEQ_STAT_STATE : Nat × Nat := (63, 61)

/-- CELL.SEQ_STAT.CAUSE [60:58]. -/
def F.CELL_SEQ_STAT_CAUSE : Nat × Nat := (60, 58)

/-- CELL.SEQ_STAT.WBAR [53:48]. -/
def F.CELL_SEQ_STAT_WBAR : Nat × Nat := (53, 48)

/-- CELL.SEQ_STAT.PC [47:0]. -/
def F.CELL_SEQ_STAT_PC : Nat × Nat := (47, 0)

/-- CELL.VIOL_LAST.CAUSE [63:60]. -/
def F.CELL_VIOL_LAST_CAUSE : Nat × Nat := (63, 60)

/-- CELL.VIOL_LAST.CLASS [59:56]. -/
def F.CELL_VIOL_LAST_CLASS : Nat × Nat := (59, 56)

/-- CELL.VIOL_LAST.MINOR [55:48]. -/
def F.CELL_VIOL_LAST_MINOR : Nat × Nat := (55, 48)

/-- CELL.VIOL_LAST.PC [47:0]. -/
def F.CELL_VIOL_LAST_PC : Nat × Nat := (47, 0)

/-- CELL.BIST_CTL.FULL [17:17]. -/
def F.CELL_BIST_CTL_FULL : Nat × Nat := (17, 17)

/-- CELL.BIST_CTL.EN [16:16]. -/
def F.CELL_BIST_CTL_EN : Nat × Nat := (16, 16)

/-- CELL.BIST_CTL.PACE [15:0]. -/
def F.CELL_BIST_CTL_PACE : Nat × Nat := (15, 0)

/-- CELL.BIST_STAT.FULL_OK [63:63]. -/
def F.CELL_BIST_STAT_FULL_OK : Nat × Nat := (63, 63)

/-- CELL.BIST_STAT.BANK [62:57]. -/
def F.CELL_BIST_STAT_BANK : Nat × Nat := (62, 57)

/-- CELL.BIST_STAT.ROW [56:48]. -/
def F.CELL_BIST_STAT_ROW : Nat × Nat := (56, 48)

/-- CELL.BIST_STAT.PASSES [31:0]. -/
def F.CELL_BIST_STAT_PASSES : Nat × Nat := (31, 0)

/-- CELL.ECC_LAST.VALID [63:63]. -/
def F.CELL_ECC_LAST_VALID : Nat × Nat := (63, 63)

/-- CELL.ECC_LAST.UE [62:62]. -/
def F.CELL_ECC_LAST_UE : Nat × Nat := (62, 62)

/-- CELL.ECC_LAST.SYND [30:23]. -/
def F.CELL_ECC_LAST_SYND : Nat × Nat := (30, 23)

/-- CELL.ECC_LAST.OFFSET [22:0]. -/
def F.CELL_ECC_LAST_OFFSET : Nat × Nat := (22, 0)

/-- CELL.SRAM_RPRb_B.ST [15:0]. -/
def F.CELL_SRAM_RPRb_B_ST : Nat × Nat := (15, 0)

/-- CELL.CLK_STAT.RUN [0:0]. -/
def F.CELL_CLK_STAT_RUN : Nat × Nat := (0, 0)

/-- CELL.DBG_SEL.FILE [15:13]. -/
def F.CELL_DBG_SEL_FILE : Nat × Nat := (15, 13)

/-- CELL.DBG_SEL.INDEX [12:0]. -/
def F.CELL_DBG_SEL_INDEX : Nat × Nat := (12, 0)

/-- HZN.SPAN_STATp.STATE [63:62]. -/
def F.HZN_SPAN_STATp_STATE : Nat × Nat := (63, 62)

/-- HZN.SPAN_STATp.DEGR [61:61]. -/
def F.HZN_SPAN_STATp_DEGR : Nat × Nat := (61, 61)

/-- HZN.SPAN_STATp.SPTX [57:54]. -/
def F.HZN_SPAN_STATp_SPTX : Nat × Nat := (57, 54)

/-- HZN.SPAN_STATp.SPRX [53:50]. -/
def F.HZN_SPAN_STATp_SPRX : Nat × Nat := (53, 50)

/-- HZN.SPAN_STATp.CREDIT [31:0]. -/
def F.HZN_SPAN_STATp_CREDIT : Nat × Nat := (31, 0)

/-- HZN.ETH_CFGq.VID [23:12]. -/
def F.HZN_ETH_CFGq_VID : Nat × Nat := (23, 12)

/-- HZN.ETH_CFGq.PCP [11:9]. -/
def F.HZN_ETH_CFGq_PCP : Nat × Nat := (11, 9)

/-- HZN.ETH_CFGq.TAG [8:8]. -/
def F.HZN_ETH_CFGq_TAG : Nat × Nat := (8, 8)

/-- HZN.ETH_CFGq.MEDIA [5:4]. -/
def F.HZN_ETH_CFGq_MEDIA : Nat × Nat := (5, 4)

/-- HZN.ETH_CFGq.MODE [3:2]. -/
def F.HZN_ETH_CFGq_MODE : Nat × Nat := (3, 2)

/-- HZN.ETH_CFGq.ROCE [1:1]. -/
def F.HZN_ETH_CFGq_ROCE : Nat × Nat := (1, 1)

/-- HZN.ETH_CFGq.EN [0:0]. -/
def F.HZN_ETH_CFGq_EN : Nat × Nat := (0, 0)

/-- HZN.ETH_STATq.FECU [15:8]. -/
def F.HZN_ETH_STATq_FECU : Nat × Nat := (15, 8)

/-- HZN.ETH_STATq.FLUSH [7:4]. -/
def F.HZN_ETH_STATq_FLUSH : Nat × Nat := (7, 4)

/-- HZN.ETH_STATq.UP [3:0]. -/
def F.HZN_ETH_STATq_UP : Nat × Nat := (3, 0)

/-- HZN.ETH_MACqk.MAC [47:0]. -/
def F.HZN_ETH_MACqk_MAC : Nat × Nat := (47, 0)

/-- HZN.ETH_IP4qk.IP4 [31:0]. -/
def F.HZN_ETH_IP4qk_IP4 : Nat × Nat := (31, 0)

/-- HZN.PEERi_A.STATE [63:62]. -/
def F.HZN_PEERi_A_STATE : Nat × Nat := (63, 62)

/-- HZN.PEERi_A.V6 [61:61]. -/
def F.HZN_PEERi_A_V6 : Nat × Nat := (61, 61)

/-- HZN.PEERi_A.PART [57:52]. -/
def F.HZN_PEERi_A_PART : Nat × Nat := (57, 52)

/-- HZN.PEERi_A.MISS [51:50]. -/
def F.HZN_PEERi_A_MISS : Nat × Nat := (51, 50)

/-- HZN.PEERi_A.MODID [31:0]. -/
def F.HZN_PEERi_A_MODID : Nat × Nat := (31, 0)

/-- STK.SPARE.SP [15:0]. -/
def F.STK_SPARE_SP : Nat × Nat := (15, 0)

/-- STK.REMAP_CTL.STATUS [63:62]. -/
def F.STK_REMAP_CTL_STATUS : Nat × Nat := (63, 62)

/-- STK.REMAP_CTL.WHY [61:58]. -/
def F.STK_REMAP_CTL_WHY : Nat × Nat := (61, 58)

/-- STK.REMAP_CTL.GO [7:7]. -/
def F.STK_REMAP_CTL_GO : Nat × Nat := (7, 7)

/-- STK.REMAP_CTL.LOG [6:0]. -/
def F.STK_REMAP_CTL_LOG : Nat × Nat := (6, 0)

/-- PART.CAP0.STACK [63:38]. -/
def F.PART_CAP0_STACK : Nat × Nat := (63, 38)

/-- PART.CAP0.ONCHIP [37:21]. -/
def F.PART_CAP0_ONCHIP : Nat × Nat := (37, 21)

/-- PART.CAP0.CELLS [10:0]. -/
def F.PART_CAP0_CELLS : Nat × Nat := (10, 0)

/-- PART.CAP1.EPH [63:50]. -/
def F.PART_CAP1_EPH : Nat × Nat := (63, 50)

/-- PART.CAP1.SLOT [49:42]. -/
def F.PART_CAP1_SLOT : Nat × Nat := (49, 42)

/-- PART.CAP1.ZEN [41:34]. -/
def F.PART_CAP1_ZEN : Nat × Nat := (41, 34)

/-- PART.CAP1.NBAR [33:27]. -/
def F.PART_CAP1_NBAR : Nat × Nat := (33, 27)

/-- PART.CAP1.QP [26:16]. -/
def F.PART_CAP1_QP : Nat × Nat := (26, 16)

/-- PART.CAP1.MR [15:3]. -/
def F.PART_CAP1_MR : Nat × Nat := (15, 3)

/-- PART.CAP2.INF [8:8]. -/
def F.PART_CAP2_INF : Nat × Nat := (8, 8)

/-- PART.CAP2.PRESETS [7:4]. -/
def F.PART_CAP2_PRESETS : Nat × Nat := (7, 4)

/-- PART.CAP2.PLACES [2:0]. -/
def F.PART_CAP2_PLACES : Nat × Nat := (2, 0)

/-- PART.CAP3.PCOUNT [57:32]. -/
def F.PART_CAP3_PCOUNT : Nat × Nat := (57, 32)

/-- PART.CAP3.PBASE [25:0]. -/
def F.PART_CAP3_PBASE : Nat × Nat := (25, 0)

/-- PART.HOSTk_A.EN [63:63]. -/
def F.PART_HOSTk_A_EN : Nat × Nat := (63, 63)

/-- PART.HOSTk_A.V6 [62:62]. -/
def F.PART_HOSTk_A_V6 : Nat × Nat := (62, 62)

/-- PART.HOSTk_A.PLEN [39:32]. -/
def F.PART_HOSTk_A_PLEN : Nat × Nat := (39, 32)

/-- PART.HOSTk_A.IP4 [31:0]. -/
def F.PART_HOSTk_A_IP4 : Nat × Nat := (31, 0)

/-- PART.NUM_MODE.OVF [0:0]. -/
def F.PART_NUM_MODE_OVF : Nat × Nat := (0, 0)

/-- PART.WIDE_MODE.F64X [0:0]. -/
def F.PART_WIDE_MODE_F64X : Nat × Nat := (0, 0)

/-- PART.ACC_MODE.INT32C [0:0]. -/
def F.PART_ACC_MODE_INT32C : Nat × Nat := (0, 0)

/-- PART.TBL_CFG.W [7:0]. -/
def F.PART_TBL_CFG_W : Nat × Nat := (7, 0)

/-- PART.NAN_TRAP0.VALID [63:63]. -/
def F.PART_NAN_TRAP0_VALID : Nat × Nat := (63, 63)

/-- PART.NAN_TRAP0.CELL [62:52]. -/
def F.PART_NAN_TRAP0_CELL : Nat × Nat := (62, 52)

/-- PART.NAN_TRAP0.DIE [51:48]. -/
def F.PART_NAN_TRAP0_DIE : Nat × Nat := (51, 48)

/-- PART.NAN_TRAP0.FMT_R [47:42]. -/
def F.PART_NAN_TRAP0_FMT_R : Nat × Nat := (47, 42)

/-- PART.NAN_TRAP0.FMT_A [41:36]. -/
def F.PART_NAN_TRAP0_FMT_A : Nat × Nat := (41, 36)

/-- PART.NAN_TRAP0.FMT_B [35:30]. -/
def F.PART_NAN_TRAP0_FMT_B : Nat × Nat := (35, 30)

/-- PART.NAN_TRAP0.SRC [29:26]. -/
def F.PART_NAN_TRAP0_SRC : Nat × Nat := (29, 26)

/-- PART.NAN_TRAP0.KIND [25:24]. -/
def F.PART_NAN_TRAP0_KIND : Nat × Nat := (25, 24)

/-- PART.NAN_TRAP0.OPND [23:23]. -/
def F.PART_NAN_TRAP0_OPND : Nat × Nat := (23, 23)

/-- PART.NAN_TRAP0.KIDX [20:0]. -/
def F.PART_NAN_TRAP0_KIDX : Nat × Nat := (20, 0)

/-- PART.NAN_TRAP1.PC [47:0]. -/
def F.PART_NAN_TRAP1_PC : Nat × Nat := (47, 0)

/-- PART.NAN_TRAP4.ELEM [51:0]. -/
def F.PART_NAN_TRAP4_ELEM : Nat × Nat := (51, 0)

/-- PART.ALM_RANGE.COUNT [30:16]. -/
def F.PART_ALM_RANGE_COUNT : Nat × Nat := (30, 16)

/-- PART.ALM_RANGE.BASE [13:0]. -/
def F.PART_ALM_RANGE_BASE : Nat × Nat := (13, 0)

/-- PART.ALM_POLICY.MOVE_HOLD [31:24]. -/
def F.PART_ALM_POLICY_MOVE_HOLD : Nat × Nat := (31, 24)

/-- PART.ALM_POLICY.STORM_Q [15:8]. -/
def F.PART_ALM_POLICY_STORM_Q : Nat × Nat := (15, 8)

/-- PART.ALM_POLICY.STORM_HOLD [7:4]. -/
def F.PART_ALM_POLICY_STORM_HOLD : Nat × Nat := (7, 4)

/-- PART.ALM_POLICY.PRESET [1:0]. -/
def F.PART_ALM_POLICY_PRESET : Nat × Nat := (1, 0)

/-- PART.ALM_POLICY_C.UP_SAT [63:48]. -/
def F.PART_ALM_POLICY_C_UP_SAT : Nat × Nat := (63, 48)

/-- PART.ALM_POLICY_C.UP_OUTL [47:32]. -/
def F.PART_ALM_POLICY_C_UP_OUTL : Nat × Nat := (47, 32)

/-- PART.ALM_POLICY_C.UP_SHED [31:16]. -/
def F.PART_ALM_POLICY_C_UP_SHED : Nat × Nat := (31, 16)

/-- PART.ALM_POLICY_C.DOWN_OUTL [15:8]. -/
def F.PART_ALM_POLICY_C_DOWN_OUTL : Nat × Nat := (15, 8)

/-- PART.ALM_POLICY_C.DOWN_QUIET [7:0]. -/
def F.PART_ALM_POLICY_C_DOWN_QUIET : Nat × Nat := (7, 0)

/-- PART.LADDER0.TOP [25:24]. -/
def F.PART_LADDER0_TOP : Nat × Nat := (25, 24)

/-- PART.LADDER0.RUNG3 [23:18]. -/
def F.PART_LADDER0_RUNG3 : Nat × Nat := (23, 18)

/-- PART.LADDER0.RUNG2 [17:12]. -/
def F.PART_LADDER0_RUNG2 : Nat × Nat := (17, 12)

/-- PART.LADDER0.RUNG1 [11:6]. -/
def F.PART_LADDER0_RUNG1 : Nat × Nat := (11, 6)

/-- PART.LADDER0.RUNG0 [5:0]. -/
def F.PART_LADDER0_RUNG0 : Nat × Nat := (5, 0)

/-- PART.LADDER1.TOP [25:24]. -/
def F.PART_LADDER1_TOP : Nat × Nat := (25, 24)

/-- PART.LADDER1.RUNG3 [23:18]. -/
def F.PART_LADDER1_RUNG3 : Nat × Nat := (23, 18)

/-- PART.LADDER1.RUNG2 [17:12]. -/
def F.PART_LADDER1_RUNG2 : Nat × Nat := (17, 12)

/-- PART.LADDER1.RUNG1 [11:6]. -/
def F.PART_LADDER1_RUNG1 : Nat × Nat := (11, 6)

/-- PART.LADDER1.RUNG0 [5:0]. -/
def F.PART_LADDER1_RUNG0 : Nat × Nat := (5, 0)

/-- PART.LADDER2.TOP [25:24]. -/
def F.PART_LADDER2_TOP : Nat × Nat := (25, 24)

/-- PART.LADDER2.RUNG3 [23:18]. -/
def F.PART_LADDER2_RUNG3 : Nat × Nat := (23, 18)

/-- PART.LADDER2.RUNG2 [17:12]. -/
def F.PART_LADDER2_RUNG2 : Nat × Nat := (17, 12)

/-- PART.LADDER2.RUNG1 [11:6]. -/
def F.PART_LADDER2_RUNG1 : Nat × Nat := (11, 6)

/-- PART.LADDER2.RUNG0 [5:0]. -/
def F.PART_LADDER2_RUNG0 : Nat × Nat := (5, 0)

/-- PART.LADDER3.TOP [25:24]. -/
def F.PART_LADDER3_TOP : Nat × Nat := (25, 24)

/-- PART.LADDER3.RUNG3 [23:18]. -/
def F.PART_LADDER3_RUNG3 : Nat × Nat := (23, 18)

/-- PART.LADDER3.RUNG2 [17:12]. -/
def F.PART_LADDER3_RUNG2 : Nat × Nat := (17, 12)

/-- PART.LADDER3.RUNG1 [11:6]. -/
def F.PART_LADDER3_RUNG1 : Nat × Nat := (11, 6)

/-- PART.LADDER3.RUNG0 [5:0]. -/
def F.PART_LADDER3_RUNG0 : Nat × Nat := (5, 0)

/-- PART.ALM_STEP.OPEN [63:63]. -/
def F.PART_ALM_STEP_OPEN : Nat × Nat := (63, 63)

/-- PART.ALM_STEP.PEND [62:62]. -/
def F.PART_ALM_STEP_PEND : Nat × Nat := (62, 62)

/-- PART.ALM_STEP.STORM [61:61]. -/
def F.PART_ALM_STEP_STORM : Nat × Nat := (61, 61)

/-- PART.ALM_STEP.FHOLD [55:48]. -/
def F.PART_ALM_STEP_FHOLD : Nat × Nat := (55, 48)

/-- PART.ALM_STEP.COUNT [47:0]. -/
def F.PART_ALM_STEP_COUNT : Nat × Nat := (47, 0)

/-- PART.ALM_CKPT.STATUS [63:62]. -/
def F.PART_ALM_CKPT_STATUS : Nat × Nat := (63, 62)

/-- PART.ALM_CKPT.FAIL [61:58]. -/
def F.PART_ALM_CKPT_FAIL : Nat × Nat := (61, 58)

/-- PART.ALM_CKPT.OP [1:0]. -/
def F.PART_ALM_CKPT_OP : Nat × Nat := (1, 0)

/-- PART.ALM_CKPT_ADDR.ADDR [47:0]. -/
def F.PART_ALM_CKPT_ADDR_ADDR : Nat × Nat := (47, 0)

/-- PART.ZEN_SHARE.SHARE [7:0]. -/
def F.PART_ZEN_SHARE_SHARE : Nat × Nat := (7, 0)

/-- PART.ZEN_RANGE.COUNT [31:16]. -/
def F.PART_ZEN_RANGE_COUNT : Nat × Nat := (31, 16)

/-- PART.ZEN_RANGE.BASE [14:0]. -/
def F.PART_ZEN_RANGE_BASE : Nat × Nat := (14, 0)

/-- PART.ZEN_CTL.EN [6:6]. -/
def F.PART_ZEN_CTL_EN : Nat × Nat := (6, 6)

/-- PART.ZEN_CTL.DONE_BAR [5:0]. -/
def F.PART_ZEN_CTL_DONE_BAR : Nat × Nat := (5, 0)

/-- PART.ZEN_STEP.STEP [47:0]. -/
def F.PART_ZEN_STEP_STEP : Nat × Nat := (47, 0)

/-- PART.ZEN_STAT.PHASE [63:61]. -/
def F.PART_ZEN_STAT_PHASE : Nat × Nat := (63, 61)

/-- PART.ZEN_STAT.DIES [15:0]. -/
def F.PART_ZEN_STAT_DIES : Nat × Nat := (15, 0)

/-- PART.ZEN_BIND.STATE [63:62]. -/
def F.PART_ZEN_BIND_STATE : Nat × Nat := (63, 62)

/-- PART.ZEN_BIND.STATUS [61:58]. -/
def F.PART_ZEN_BIND_STATUS : Nat × Nat := (61, 58)

/-- PART.ZEN_BIND.ENTRY [14:0]. -/
def F.PART_ZEN_BIND_ENTRY : Nat × Nat := (14, 0)

/-- PART.ZEN_PC1.PC [47:0]. -/
def F.PART_ZEN_PC1_PC : Nat × Nat := (47, 0)

/-- PART.ZEN_PC2.PC [47:0]. -/
def F.PART_ZEN_PC2_PC : Nat × Nat := (47, 0)

/-- PART.VRD_CFG.EN [63:63]. -/
def F.PART_VRD_CFG_EN : Nat × Nat := (63, 63)

/-- PART.VRD_CFG.GROUP [47:32]. -/
def F.PART_VRD_CFG_GROUP : Nat × Nat := (47, 32)

/-- PART.VRD_CFG.MEMBERS [31:16]. -/
def F.PART_VRD_CFG_MEMBERS : Nat × Nat := (31, 16)

/-- PART.VRD_CFG.NSTREAM [4:0]. -/
def F.PART_VRD_CFG_NSTREAM : Nat × Nat := (4, 0)

/-- PART.VRD_EXPECTj.EXP_HI [63:32]. -/
def F.PART_VRD_EXPECTj_EXP_HI : Nat × Nat := (63, 32)

/-- PART.VRD_EXPECTj.EXP_LO [31:0]. -/
def F.PART_VRD_EXPECTj_EXP_LO : Nat × Nat := (31, 0)

/-- PART.VRD_OWN.BITS_HI [63:6]. -/
def F.PART_VRD_OWN_BITS_HI : Nat × Nat := (63, 6)

/-- PART.VRD_OWN.RETR [5:5]. -/
def F.PART_VRD_OWN_RETR : Nat × Nat := (5, 5)

/-- PART.VRD_OWN.BITS_LO [4:0]. -/
def F.PART_VRD_OWN_BITS_LO : Nat × Nat := (4, 0)

/-- PART.VRD_STAT.PHASE [63:62]. -/
def F.PART_VRD_STAT_PHASE : Nat × Nat := (63, 62)

/-- PART.VRD_STAT.STEP [47:0]. -/
def F.PART_VRD_STAT_STEP : Nat × Nat := (47, 0)

/-- PART.VRD_APPLIED.COUNT [47:0]. -/
def F.PART_VRD_APPLIED_COUNT : Nat × Nat := (47, 0)

/-- PART.VRD_UNC.VALID [63:63]. -/
def F.PART_VRD_UNC_VALID : Nat × Nat := (63, 63)

/-- PART.VRD_UNC.ADDR [47:0]. -/
def F.PART_VRD_UNC_ADDR : Nat × Nat := (47, 0)

/-- PART.VRD_CNTs.RECV [63:32]. -/
def F.PART_VRD_CNTs_RECV : Nat × Nat := (63, 32)

/-- PART.VRD_CNTs.SENT [31:0]. -/
def F.PART_VRD_CNTs_SENT : Nat × Nat := (31, 0)

/-- PART.RUN_CTL.ABORT [2:2]. -/
def F.PART_RUN_CTL_ABORT : Nat × Nat := (2, 2)

/-- PART.RUN_CTL.RESUME [1:1]. -/
def F.PART_RUN_CTL_RESUME : Nat × Nat := (1, 1)

/-- PART.RUN_CTL.STOP [0:0]. -/
def F.PART_RUN_CTL_STOP : Nat × Nat := (0, 0)

/-- PART.BAR_CFG.NBAR [6:0]. -/
def F.PART_BAR_CFG_NBAR : Nat × Nat := (6, 0)

/-- PART.BARk.VALUE [47:0]. -/
def F.PART_BARk_VALUE : Nat × Nat := (47, 0)

/-- PART.TIER_CFG.WIN [27:24]. -/
def F.PART_TIER_CFG_WIN : Nat × Nat := (27, 24)

/-- PART.TIER_CFG.MINB [23:16]. -/
def F.PART_TIER_CFG_MINB : Nat × Nat := (23, 16)

/-- PART.TIER_CFG.WSHARE [15:8]. -/
def F.PART_TIER_CFG_WSHARE : Nat × Nat := (15, 8)

/-- PART.TIER_CFG.ALLOC [2:2]. -/
def F.PART_TIER_CFG_ALLOC : Nat × Nat := (2, 2)

/-- PART.TIER_CFG.PLACE [1:0]. -/
def F.PART_TIER_CFG_PLACE : Nat × Nat := (1, 0)

/-- PART.TIER_QUOTA.STACK [57:32]. -/
def F.PART_TIER_QUOTA_STACK : Nat × Nat := (57, 32)

/-- PART.TIER_QUOTA.ONCHIP [16:0]. -/
def F.PART_TIER_QUOTA_ONCHIP : Nat × Nat := (16, 0)

/-- PART.TIER_USE.STACK [57:32]. -/
def F.PART_TIER_USE_STACK : Nat × Nat := (57, 32)

/-- PART.TIER_USE.ONCHIP [16:0]. -/
def F.PART_TIER_USE_ONCHIP : Nat × Nat := (16, 0)

/-- PART.RFENCEk_A.ARM [63:63]. -/
def F.PART_RFENCEk_A_ARM : Nat × Nat := (63, 63)

/-- PART.RFENCEk_A.BAR [53:48]. -/
def F.PART_RFENCEk_A_BAR : Nat × Nat := (53, 48)

/-- PART.RFENCEk_A.TARGET [47:0]. -/
def F.PART_RFENCEk_A_TARGET : Nat × Nat := (47, 0)

/-- PART.RFENCEk_B.COUNT [57:32]. -/
def F.PART_RFENCEk_B_COUNT : Nat × Nat := (57, 32)

/-- PART.RFENCEk_B.BASE [25:0]. -/
def F.PART_RFENCEk_B_BASE : Nat × Nat := (25, 0)

/-- PART.EPH_RANGEh.N [29:16]. -/
def F.PART_EPH_RANGEh_N : Nat × Nat := (29, 16)

/-- PART.EPH_RANGEh.BASE [13:0]. -/
def F.PART_EPH_RANGEh_BASE : Nat × Nat := (13, 0)

/-- PART.TT_CFGt.PERIOD [31:0]. -/
def F.PART_TT_CFGt_PERIOD : Nat × Nat := (31, 0)

/-- PART.TT_CTL.STATUS [63:62]. -/
def F.PART_TT_CTL_STATUS : Nat × Nat := (63, 62)

/-- PART.TT_CTL.FAIL [61:58]. -/
def F.PART_TT_CTL_FAIL : Nat × Nat := (61, 58)

/-- PART.TT_CTL.RET_CLEAN [55:48]. -/
def F.PART_TT_CTL_RET_CLEAN : Nat × Nat := (55, 48)

/-- PART.TT_CTL.CLEAN [47:40]. -/
def F.PART_TT_CTL_CLEAN : Nat × Nat := (47, 40)

/-- PART.TT_CTL.VALID1 [5:5]. -/
def F.PART_TT_CTL_VALID1 : Nat × Nat := (5, 5)

/-- PART.TT_CTL.VALID0 [4:4]. -/
def F.PART_TT_CTL_VALID0 : Nat × Nat := (4, 4)

/-- PART.TT_CTL.ACTIVE [3:3]. -/
def F.PART_TT_CTL_ACTIVE : Nat × Nat := (3, 3)

/-- PART.TT_CTL.SWITCH [1:1]. -/
def F.PART_TT_CTL_SWITCH : Nat × Nat := (1, 1)

/-- PART.TT_CTL.COMMIT [0:0]. -/
def F.PART_TT_CTL_COMMIT : Nat × Nat := (0, 0)

/-- PART.EPH_WAKE.LEAD [15:0]. -/
def F.PART_EPH_WAKE_LEAD : Nat × Nat := (15, 0)

/-- PART.ELAUNCHj_0.COUNT [31:16]. -/
def F.PART_ELAUNCHj_0_COUNT : Nat × Nat := (31, 16)

/-- PART.ELAUNCHj_0.FIRST [15:0]. -/
def F.PART_ELAUNCHj_0_FIRST : Nat × Nat := (15, 0)

/-- PART.ELAUNCHj_1.PC [47:0]. -/
def F.PART_ELAUNCHj_1_PC : Nat × Nat := (47, 0)

/-- PART.CSR_VIOL_LAST.CAUSE [63:60]. -/
def F.PART_CSR_VIOL_LAST_CAUSE : Nat × Nat := (63, 60)

/-- PART.CSR_VIOL_LAST.ADDR [31:0]. -/
def F.PART_CSR_VIOL_LAST_ADDR : Nat × Nat := (31, 0)

/-- PART.PLX_CFG.LOG2N [4:0]. -/
def F.PART_PLX_CFG_LOG2N : Nat × Nat := (4, 0)

/-- PART.PLX_MAXQk.MAXQ [31:0]. -/
def F.PART_PLX_MAXQk_MAXQ : Nat × Nat := (31, 0)

/-- PART.FLT_LAST.KIND [63:56]. -/
def F.PART_FLT_LAST_KIND : Nat × Nat := (63, 56)

/-- PART.FLT_LAST.CLASS [55:52]. -/
def F.PART_FLT_LAST_CLASS : Nat × Nat := (55, 52)

/-- PART.FLT_LAST.ACTION [47:40]. -/
def F.PART_FLT_LAST_ACTION : Nat × Nat := (47, 40)

/-- PART.FLT_LAST.RECID [31:0]. -/
def F.PART_FLT_LAST_RECID : Nat × Nat := (31, 0)

/-- MGMT.SVC_CMD.CMD [59:56]. -/
def F.MGMT_SVC_CMD_CMD : Nat × Nat := (59, 56)

/-- MGMT.SVC_CMD.DIE [15:8]. -/
def F.MGMT_SVC_CMD_DIE : Nat × Nat := (15, 8)

/-- MGMT.SVC_CMD.SLOT [7:0]. -/
def F.MGMT_SVC_CMD_SLOT : Nat × Nat := (7, 0)

/-- MGMT.SVC_STAT.STATE [63:62]. -/
def F.MGMT_SVC_STAT_STATE : Nat × Nat := (63, 62)

/-- MGMT.SVC_STAT.WHY [61:58]. -/
def F.MGMT_SVC_STAT_WHY : Nat × Nat := (61, 58)

/-- MGMT.FLT_POLICY.TRANS_LIMIT [11:8]. -/
def F.MGMT_FLT_POLICY_TRANS_LIMIT : Nat × Nat := (11, 8)

/-- MGMT.FLT_POLICY.AUTOSPARE [1:1]. -/
def F.MGMT_FLT_POLICY_AUTOSPARE : Nat × Nat := (1, 1)

/-- MGMT.FLT_POLICY.AUTOFENCE [0:0]. -/
def F.MGMT_FLT_POLICY_AUTOFENCE : Nat × Nat := (0, 0)

/-- MGMT.PWR_CFG.MODE [16:16]. -/
def F.MGMT_PWR_CFG_MODE : Nat × Nat := (16, 16)

/-- MGMT.PWR_CFG.CAP [15:0]. -/
def F.MGMT_PWR_CFG_CAP : Nat × Nat := (15, 0)

/-- MGMT.RST_CMD.KIND [63:60]. -/
def F.MGMT_RST_CMD_KIND : Nat × Nat := (63, 60)

/-- MGMT.RST_CMD.UNIT [15:8]. -/
def F.MGMT_RST_CMD_UNIT : Nat × Nat := (15, 8)

/-- MGMT.RST_CMD.SUB [7:0]. -/
def F.MGMT_RST_CMD_SUB : Nat × Nat := (7, 0)

/-- MGMT.RST_STAT.STATE [63:62]. -/
def F.MGMT_RST_STAT_STATE : Nat × Nat := (63, 62)

/-- MGMT.BOOT_STAT.PHASE [63:60]. -/
def F.MGMT_BOOT_STAT_PHASE : Nat × Nat := (63, 60)

/-- MGMT.BOOT_STAT.FAIL [59:56]. -/
def F.MGMT_BOOT_STAT_FAIL : Nat × Nat := (59, 56)

/-- MGMT.BOOT_STAT.NOTIME [55:55]. -/
def F.MGMT_BOOT_STAT_NOTIME : Nat × Nat := (55, 55)

/-- MGMT.BOOT_STAT.ITEM [39:32]. -/
def F.MGMT_BOOT_STAT_ITEM : Nat × Nat := (39, 32)

/-- MGMT.BOOT_STAT.MS [31:0]. -/
def F.MGMT_BOOT_STAT_MS : Nat × Nat := (31, 0)

/-- MGMT.FW_STAT.SVN_FUSE [63:56]. -/
def F.MGMT_FW_STAT_SVN_FUSE : Nat × Nat := (63, 56)

/-- MGMT.FW_STAT.SVN_RUN [55:48]. -/
def F.MGMT_FW_STAT_SVN_RUN : Nat × Nat := (55, 48)

/-- MGMT.FW_STAT.SLOT [47:47]. -/
def F.MGMT_FW_STAT_SLOT : Nat × Nat := (47, 47)

/-- MGMT.FW_STAT.FALLBACK [46:46]. -/
def F.MGMT_FW_STAT_FALLBACK : Nat × Nat := (46, 46)

/-- MGMT.FW_STAT.OK_A [45:45]. -/
def F.MGMT_FW_STAT_OK_A : Nat × Nat := (45, 45)

/-- MGMT.FW_STAT.OK_B [44:44]. -/
def F.MGMT_FW_STAT_OK_B : Nat × Nat := (44, 44)

/-- MGMT.FW_STAT.BUSY [43:43]. -/
def F.MGMT_FW_STAT_BUSY : Nat × Nat := (43, 43)

/-- MGMT.FW_STAT.FW_RUN [31:0]. -/
def F.MGMT_FW_STAT_FW_RUN : Nat × Nat := (31, 0)

/-- MGMT.FW_CTL.CMD [63:60]. -/
def F.MGMT_FW_CTL_CMD : Nat × Nat := (63, 60)

/-- MGMT.ID_STAT.STATE [63:62]. -/
def F.MGMT_ID_STAT_STATE : Nat × Nat := (63, 62)

/-- MGMT.ID_STAT.CHUNK [51:42]. -/
def F.MGMT_ID_STAT_CHUNK : Nat × Nat := (51, 42)

/-- MGMT.ID_STAT.LEAF [41:31]. -/
def F.MGMT_ID_STAT_LEAF : Nat × Nat := (41, 31)

/-- MGMT.ID_STAT.LEFT [10:0]. -/
def F.MGMT_ID_STAT_LEFT : Nat × Nat := (10, 0)

/-- The block and offset of a CSR address (R425), none outside every block or beyond the instances. -/
def csrBlock (a : Nat) : Option (Blk × Nat × Nat) :=
  if a < 0x01000000 then some (.panel, 0, a)
  else if a < 0x02000000 then some (.die, (a - 0x01000000) / 0x00100000, a % 0x00100000)
  else if a < 0x10000000 then none
  else if a < 0x18000000 then
    if (a % 0x00800000) / 0x00010000 < 66 then some (.cell, (a - 0x10000000) / 0x00010000, a % 0x00010000) else none
  else if a < 0x20000000 then none
  else if a < 0x24000000 then some (.hzn, (a - 0x20000000) / 0x01000000, a % 0x01000000)
  else if a < 0x30000000 then none
  else if a < 0x32000000 then some (.stk, (a - 0x30000000) / 0x00100000, a % 0x00100000)
  else if a < 0x38000000 then none
  else if a < 0x38400000 then some (.part, (a - 0x38000000) / 0x00010000, a % 0x00010000)
  else if a < 0x40000000 then none
  else if a < 0x41000000 then some (.mgmt, 0, a % 0x01000000)
  else none

/-- Whether `x` is reached from 0 with the strides and counts of `dims`. -/
def dimsHit (dims : List (Nat × Nat)) (x : Nat) : Bool :=
  match dims with
  | [] => x = 0
  | [(st, n)] => x % st = 0 && x / st < n
  | (st, n) :: rest => x / st < n && dimsHit rest (x % st)

/-- Whether a register row holds offset `o` of its block. -/
def RegRow.hit (r : RegRow) (o : Nat) : Bool := r.off ≤ o && dimsHit r.dims (o - r.off)

/-- The rows of a block. -/
def blkRows : Blk → List RegRow
  | .panel => panelRows
  | .die => dieRows
  | .cell => cellRows
  | .hzn => hznRows
  | .stk => stkRows
  | .part => partRows
  | .mgmt => mgmtRows

/-- The register at a CSR address; none for a hole and outside every block. -/
def regAt (a : Nat) : Option RegRow :=
  match csrBlock a with
  | none => none
  | some (b, _, o) => (blkRows b).find? (·.hit o)

/-- The reset value of a CSR address: the Reset column, "fuse" and "cfg" fields 0 (R9), and 0 where no register lies
(R8). -/
def csrReset (a : Nat) : W64 :=
  match regAt a with
  | none => 0
  | some r => BitVec.ofNat 64 r.reset

end Sys2Proof
end

