-- ==== Sys2Proof/Machine/SMap.lean ====
section
/-! DEFINITION. Reading and writing of sparse maps: one canonical form, so that equal contents are equal data. -/

namespace Sys2Proof.SMap

variable {α : Type}

/-- The value listed for key `k`, or the default. -/
def get (m : SMap α) (dflt : α) (k : Nat) : α :=
  match m with
  | [] => dflt
  | (j, v) :: rest => if k = j then v else get rest dflt k

/-- Remove every entry of key `k`. -/
def erase (m : SMap α) (k : Nat) : SMap α :=
  match m with
  | [] => []
  | (j, v) :: rest => if k = j then erase rest k else (j, v) :: erase rest k

/-- Insert or replace key `k`, keeping keys in rising order. -/
def insert (m : SMap α) (k : Nat) (x : α) : SMap α :=
  match m with
  | [] => [(k, x)]
  | (j, v) :: rest =>
    if k < j then (k, x) :: (j, v) :: rest
    else if k = j then (k, x) :: rest
    else (j, v) :: insert rest k x

/-- Write key `k`: writing the default removes the entry. -/
def set [DecidableEq α] (m : SMap α) (dflt : α) (k : Nat) (x : α) : SMap α :=
  if x = dflt then erase m k else insert m k x

/-- The canonical form: keys strictly rising, no entry equal to its default. -/
def wf [DecidableEq α] (m : SMap α) (dflt : Nat → α) : Bool :=
  match m with
  | [] => true
  | [(k, v)] => v ≠ dflt k
  | (k, v) :: (j, w) :: rest => v ≠ dflt k && k < j && wf ((j, w) :: rest) dflt

end Sys2Proof.SMap
end

