-- ==== Sys2Proof/Machine/State.lean ====
section
/-! DEFINITION. The state of the module as plain data: every register in one CSR file, the contexts of cells and Zenith
units, memory, and the state of every unit that the spec names. -/

namespace Sys2Proof.Machine

/-- The register files of a program context (R270): s0-s31, d0-d15, p0-p7. -/
structure RegFile where
  scal : SMap W64
  desc : SMap Desc
  pred : BitVec 8
  deriving DecidableEq, Repr

/-- After reset every scalar register and descriptor is 0, p0-p6 are 0 and p7 is 1 (R270). -/
def RegFile.reset : RegFile := ⟨[], [], 0x80⟩

/-- An entry of an accumulator bank (R153): the integer N, the anchor, and the flags. An INT32 bank keeps its integer in
`n` (R116). -/
structure AccEnt where
  n      : Int
  anch   : Int
  pinf   : Bool
  ninf   : Bool
  nanf   : Bool
  sticky : Bool
  deriving DecidableEq, Repr

/-- The empty entry. -/
def AccEnt.zero : AccEnt := ⟨0, 0, false, false, false, false⟩

/-- What a bank's entries hold: 192-bit exact, 384-bit exact (FP64 passes), or INT32 (R153, R116). -/
inductive BankForm where
  | exact | exact384 | int32
  deriving DecidableEq, Repr

/-- An accumulator bank: 1,024 entries, entry 32i + j for (i, j). Its state is in DUSK_STAT or DAWN_STAT. -/
structure Bank where
  form : BankForm
  ents : SMap AccEnt
  deriving DecidableEq, Repr

def Bank.zero : Bank := ⟨.exact, []⟩

/-- An entry of the statistics store (R206): 64 bits and a tag (0 EMPTY, 1 SMAX, 2 NORM, 3 RMS). -/
structure StatEnt where
  v   : W64
  tag : Nat
  deriving DecidableEq, Repr

def StatEnt.zero : StatEnt := ⟨0, 0⟩

/-- A NaN event as the trap records it (R67, R497). -/
structure NanEvt where
  src  : Nat
  kind : Nat
  fmtR : Nat
  fmtA : Nat
  fmtB : Nat
  opnd : Nat
  kidx : Nat
  elem : Nat
  opA  : Nat
  opB  : Nat
  deriving DecidableEq, Repr

/-- The event that a trap recorded (R66): the cc, its rank among the events of that cc, and its context. -/
structure TrapRec where
  cc   : Nat
  rank : Nat
  ctx  : Ctx
  deriving DecidableEq, Repr

/-- An issued instruction (R260, R262): its number in the context's program order, unit, word address, the registers as
they stood at issue, the code tables and converter controls at issue (R88) and the overflow, accumulation and FP64 modes at issue (R56, R162,
R127). -/
structure Job where
  seq  : Nat
  unit : UnitId
  ins  : Instr
  pc   : Nat
  regs : RegFile
  tabs : Tabs
  ovf  : Bool
  i32  : Bool
  f64x : Bool
  deriving DecidableEq, Repr

/-- An accepted, unretired instruction (R261) with what its retirement brings: the values for its destination scalar and
predicates, its NaN events (the first and their number), the bank that it reads and releases or returns (R199), whether
its retirement waits for an event of its own (an armed action, a contribution), and the cc its engine works on it. -/
structure Flight where
  job   : Job
  rd    : Option (Nat × W64)
  pd    : List (Nat × Bool)
  nan   : Option NanEvt
  nans  : Nat
  hold  : Bool
  bank  : Option (Nat × Bool)
  cc    : Nat
  deriving DecidableEq, Repr

/-- Outlier decision for a group of a line (R93). -/
inductive Grp128 where
  | plain
  | divert (ks : List Nat)
  | promote
  deriving DecidableEq, Repr

/-- What a pre-scan fixes for one operand (R89, R90, R154): the tensor scale, the row scale and E_line of each line, the
bound of each rescale interval of each line, and the outlier decision of each group of each line. -/
structure ScanOp where
  stns  : Int
  srow  : List Int
  eline : List Int
  eint  : List (List Int)
  outl  : List (List Grp128)
  deriving DecidableEq, Repr

/-- The operand of an array pass at acceptance (R103, R168, R169, R183): operand format, tensor scale, slot (global index)
when tracked, and H + XH when the slot is in cold scaling. -/
structure PassOp where
  fmt  : Nat
  stns : Int
  slot : Option Nat
  cold : Option Nat
  deriving DecidableEq, Repr

/-- An array pass accepted and not retired. `bank` is 0 fa0, 1 fa1, 2 ba0, 3 ba1; `handed` marks a Dusk pass handed to the
Dawn array (R104); `attempt` counts repeats (R91); the scans are present once the pre-scan is done; `wide` marks a wide
tile (R95); `entered` is the pass's number on the Dawn array, once it is there (R141, R143); `sample` its sample record
(R429); `step` the step open at its acceptance (R171). -/
structure Pass where
  job     : Job
  bank    : Nat
  a       : PassOp
  b       : PassOp
  handed  : Bool
  attempt : Nat
  scanA   : Option ScanOp
  scanB   : Option ScanOp
  wide    : Bool
  entered : Option Nat
  sample  : Option Nat
  step    : Nat
  deriving DecidableEq, Repr

/-- An action of a collective unit armed on an Ephemeris entry (R306, R404): the entry as an ENT, the instruction, the time
of arming, the timetable, whether its slot has begun and its transfer has been performed, whether it moved to a reserve,
the entry that it stands at, and the status it has completed with (R307). -/
structure Armed where
  ent     : Nat
  job     : Job
  at_     : Nat
  tt      : Nat
  began   : Bool
  doneTx  : Bool
  reserve : Bool
  now     : Nat
  status  : Option Nat
  deriving DecidableEq, Repr

/-- A sample record of the Parallax check (R429): the pass as it retired, its partition, its result, the CRC-32C of each
line of each operand, whether the pass saturated, overflowed or clamped an element, and where the check stands (0 pass in
flight, 1 check, 2 replay, 3 other cell), with the score, entry and recomputed value of the comparison (R431, R437). -/
structure Sample where
  pass   : Pass
  part   : Nat
  result : Bank
  crcA   : List Nat
  crcB   : List Nat
  drift  : Bool
  phase  : Nat
  row    : Nat
  qmax   : Nat
  qi     : Nat
  qj     : Nat
  vchk   : W64
  deriving DecidableEq, Repr

/-- A wait that a cell is in (R285, R286): a counter with its count, or a time. -/
inductive Wait where
  | bar (k : Nat) (count : Nat)
  | time (t : Nat)
  deriving DecidableEq, Repr

/-- Where the SRAM tester of a cell stands (R348, R349): whether it tests a row, the bank and row, whether a full pass runs,
whether every row of it so far ended with a working row or spare (R352), and the valid bits of the shadow buffer. While a valid bit
is set, the bytes and marks that the state holds for the word are those of the shadow, which every access meets (log entry 73). -/
structure Tester where
  busy : Bool
  bank : Nat
  row  : Nat
  full : Bool
  ok   : Bool
  valid : BitVec 8
  deriving DecidableEq, Repr

/-- Words that a sequencer holds (R267): the address and bytes of a line, or of one word, and the words of it that were read
as uncorrectable (R269). -/
structure Line where
  base  : Nat
  bytes : List Byte
  bad   : List Nat
  deriving DecidableEq, Repr

/-- The context of a cell, or of a partition on a Zenith unit (which uses the register files, tiles, PC and waiting
instructions only). `held` is the instruction that waits to issue, where one does (R260, R263, R264). -/
structure CellCtx where
  regs     : RegFile
  tiles    : SMap (List F32)
  banks    : SMap Bank
  stats    : SMap StatEnt
  zpc      : Nat
  line     : Option Line
  held     : Option Instr
  seqno    : Nat
  waiting  : List Job
  flight   : List Flight
  arrives  : List (Nat × Nat)
  dusk     : List Pass
  dawn     : List Pass
  dawnNo   : Nat
  markDusk : Bool
  markDawn : Bool
  passes   : Nat
  samples  : SMap (Option Sample)
  armed    : List Armed
  haltBar  : Option Nat
  wait     : Option Wait
  vdone    : Bool
  stopReq  : Nat
  idleDusk : Nat
  idleDawn : Nat
  idle     : Nat
  tester   : Tester
  trans    : List Nat
  deriving DecidableEq, Repr

def Tester.reset : Tester := ⟨false, 0, 0, false, true, 0⟩

/-- The context after reset (R270, R111, R138, R206). -/
def CellCtx.reset : CellCtx :=
  ⟨.reset, [], [], [], 0, none, none, 0, [], [], [], [], [], 0, false, false, 0, [], [], none, none, false, 0, 0, 0, 0, .reset, []⟩

/-- A parameter block in work on a Zenith unit (R227): its directory entry, the element offset of its last load or store,
and the store scales that zen.setsc set. -/
structure ZBlk where
  entry : Nat
  off   : Nat
  msc   : Option Int
  vsc   : Option Int
  deriving DecidableEq, Repr

/-- A pass of a partition on the Zenith unit of one die (R226): which pass, the block in work, the entries still to run,
the norm accumulator with its Inf and NaN marks (R230), and what the pass holds from its start: rule parameters (R227),
reference tables (R496), overflow mode (R56), seed and step (R235). -/
structure ZRun where
  pass : Nat
  blk  : Option ZBlk
  todo : List Nat
  acc  : Nat
  ainf : Bool
  anan : Bool
  hp   : List W64
  tabs : Tabs
  ovf  : Bool
  seed : W64
  step : Nat
  done : Bool
  deriving DecidableEq, Repr

def ZRun.idle : ZRun := ⟨0, none, [], 0, false, false, [], ⟨0, 0, 0, 0, 0, 0⟩, false, 0, 0, true⟩

/-- The slices of a Zenith unit (R219): the partition that runs in the current slice, the partition served last, the
number of the next slice in its frame, the slices each partition has used in the frame, and the shares of the frame. -/
structure ZSlice where
  cur   : Option Nat
  last  : Option Nat
  idx   : Nat
  used  : SMap Nat
  share : SMap Nat
  deriving DecidableEq, Repr

def ZSlice.reset : ZSlice := ⟨none, none, 0, [], []⟩

/-- A Comet move (R319): the engine's die and the lines written in COPY since their last copy. -/
structure Move where
  die   : Nat
  dirty : List Nat
  deriving DecidableEq, Repr

/-- A move requested and not started (R324, R325): the page, the logical cell that it is to follow, and whether it is a service
move that empties a slot. -/
structure MoveReq where
  page : Nat
  top  : Nat
  service : Bool
  deriving DecidableEq, Repr

/-- An old frame whose move has committed and whose invalidations are not all acknowledged (R316, R319), with the die of the
engine that runs the move. -/
structure Fwd where
  page  : Nat
  frame : Nat
  part  : Nat
  die   : Nat
  deriving DecidableEq, Repr

/-- A frame claimed by a TAKE (R330), with the partition whose token it holds. -/
structure Claim where
  frame : Nat
  part  : Nat
  deriving DecidableEq, Repr

/-- State of the tiers beside the directory and the frames: moves in progress by page (R319), requests by die, and at 16 + die those that wait for the next window end (R324),
forwarding frames, claimed frames, bytes written to a page by each logical cell in the current window, keyed die · 2²⁶ + page (R325), pages that
a bank atomic reached in it (R321), home cache sets keyed die · 1,024 + set, most recently used first (R316), and the
completion fences that have passed and those whose counter ceased to be present before they passed, as 16p + k (R328),
and the value of PART.TIER_CFG in force of each partition (R325). -/
structure Tiers where
  moves  : SMap Move
  reqs   : SMap (List MoveReq)
  fwds   : List Fwd
  claims : List Claim
  wbytes : SMap (SMap Nat)
  watom  : List Nat
  hcache : SMap (List Nat)
  passed : List Nat
  dead   : List Nat
  cfg    : SMap W64
  deriving DecidableEq, Repr

def Tiers.reset : Tiers := ⟨[], [], [], [], [], [], [], [], [], []⟩

/-- The states of a page (R312). -/
inductive PageState where
  | free | homed | copy | switch
  deriving DecidableEq, Repr

/-- A home directory entry (R312). `home` and `dest` are frame locations (R313). -/
structure DirEntry where
  st    : PageState
  owner : Nat
  pin   : Bool
  spill : Bool
  gen   : Nat
  home  : Nat
  dest  : Nat
  deriving DecidableEq, Repr

def DirEntry.free : DirEntry := ⟨.free, 0, false, false, 0, 0, 0⟩

/-- Why a step stops for good: no reason exists. No rule of the spec stops the module; a command that cannot be performed
is refused by the module's own rules (a violation, a busy status, a held access), which is a next state. No meaning faults,
so there is nothing here to be safe or unsafe. -/
inductive Fault where
  deriving DecidableEq, Repr

/-- Why the model does not perform a command. -/
inductive Refusal where
  /-- Raised only by an arm of the dispatcher whose command has no meaning; every command has one, so none raises it. Safe: it
  only stops. -/
  | notModelled (mnemonic : String)
  deriving DecidableEq, Repr

/-- The Parallax part of a fault record (R443). -/
structure Plx where
  fmtA    : Nat
  fmtB    : Nat
  arr     : Nat
  row     : Nat
  k       : Nat
  i       : Nat
  j       : Nat
  anch    : Int
  qmax    : Nat
  vchk    : W64
  entP    : AccEnt
  outcome : Nat
  other   : Nat
  crcA    : Nat
  crcB    : Nat
  capA    : List Byte
  capB    : List Byte
  deriving DecidableEq, Repr

/-- A Fault Signature Record (R442, R443). Severity is the CPER code; `part` is 255 where no partition is named. The
fields from `recId` on are filled when Lodestar writes the record. `unit` and `loc` are the parts of LOC in the table's
order: the unit number, then slot, bank and row, and so on. `event` tells the events of one kind apart (kind 0x08: 0 lane
replaced, 1 link degraded, 2 link down; kind 0x0C: 0 fenced, 1 rejoined, 2 retired). `utc` is the UTC offset in seconds that PTP
had brought at the event. -/
structure Fsr where
  kind    : Nat
  event   : Nat
  cls     : Nat
  action  : Nat
  part    : Nat
  unit    : Nat
  loc     : List Nat
  sev     : Nat
  time    : W64
  step    : W64
  utc     : Int
  plx     : Option Plx
  recId   : Nat
  panelId : W64
  modId   : Nat
  fw      : Nat
  deriving DecidableEq, Repr

/-- A report of a pass to a slot that belongs to a later step than the one shown in words 10 to 12 (R170, R171). -/
structure AlmRep where
  slot : Nat
  step : Nat
  amax : Nat
  conv : Nat
  sat  : Nat
  outl : Nat
  shed : Nat
  deriving DecidableEq, Repr

/-- The Almanac of a partition beside its registers and slots (R165-R187): the contributions issued, the steps closed and
ended, the final verdict whose step end has not been made, the reports held for a later step, the slot words 8 in force
where a write is pending, the ladders and policy registers in force, the checkpoint
operation that is pending (0 none, 1 save, 2 restore), and the mode codes that a lowered cap has forbidden (R415): OVF, PRESET and PLACE
at bits 0 to 2. -/
structure AlmSt where
  contrib : Nat
  closed  : Nat
  ended   : Nat
  verdict : Option W64
  held    : List AlmRep
  conf    : SMap (Option W64)
  lads    : List W64
  pol     : W64
  polC    : W64
  op      : Nat
  force   : Nat
  deriving DecidableEq, Repr

/-- The reset values of the ladders and of the policy (R177, R178). -/
def AlmSt.reset : AlmSt :=
  ⟨0, 0, 0, none, [], [], [0x2013403, 0x2013491, 0x2013403, 0x2013491], 0x8004081, 0x0010080001008040, 0, 0⟩

/-- The step verdict of a partition beside its registers (R243-R255): contributions that wait for the step before to end, whether
the step's own contribution has issued, whether pass one of the step has finished, the member's record, the records that it has
taken, each with the start of the round in which it was received (0 for the panel), the primary VXCH entries whose records it
holds (Horizon die · 16,384 + entry), whether the late record of R255 stands for the member's own, whether the step's seal has
been made, and whether the final verdict was clean. -/
structure VrdSt where
  queued  : Nat
  issued  : Bool
  oneDone : Bool
  own     : Option VerdictRec
  recs    : List (Nat × VerdictRec)
  rounds  : List Nat
  late    : Bool
  sealed  : Bool
  clean   : Bool
  deriving DecidableEq, Repr

def VrdSt.reset : VrdSt := ⟨0, false, false, none, [], [], false, false, false⟩

/-- A verdict chain in its last occurrence (R255, R405, R409): its primary entry as an ENT, the timetable, the start of that
occurrence, the entry that it stands at, whether a record has been sent in it, whether one has been received, and whether it
has ended. -/
structure Chain where
  ent  : Nat
  tt   : Nat
  at_  : Nat
  now  : Nat
  sent : Bool
  got  : Bool
  past : Bool
  deriving DecidableEq, Repr

/-- The timetables of a partition beside their registers: the switches that are due, each a switch time with the timetable that it
leaves (R406), the verdict chains, and the events performed: the ENT of each with the start of its last occurrence (R408). -/
structure TtSt where
  sw     : List (Nat × Nat)
  chains : List Chain
  fired  : List (Nat × Nat)
  deriving DecidableEq, Repr

def TtSt.reset : TtSt := ⟨[], [], []⟩

/-- A RESP frame of a session (R371, R373, R375): its SEQ, the request's MSGID, whether it is the first and the last of its
message, the response's status, detail, UE flag and data bytes, the data that this frame carries, when it was last sent, and how often it
has been retransmitted; none while it waits for credit. -/
structure TxFrame where
  seq    : Nat
  msgid  : BitVec 16
  first  : Bool
  last   : Bool
  status : Nat
  detail : Nat
  ue     : Bool
  bytes  : Nat
  data   : List Byte
  at_    : Nat
  tries  : Option Nat
  deriving DecidableEq, Repr

/-- A kept RESP (R374): the first SEQ of its request and its frames. -/
structure Kept where
  req    : Nat
  frames : List TxFrame
  deriving DecidableEq, Repr

/-- A control session (R372-R374): its partition and endpoint, the sub-port it was last heard on, the SEQ accepted, the LIMIT
sent, the SEQ that the host has acknowledged, the next SEQ to send, the LIMIT received, the frames not acknowledged, the
kept RESPs, whether it closes, the time it was last heard, a BIND whose RESP waits for the bind (request SEQ and MSGID), and the
requests accepted that wait for one before them, or for a page that moves (R320, R374). -/
structure Session where
  part   : Fin 64
  ip     : IpAddr
  port   : Nat
  sub    : SubPort
  ack    : Nat
  limit  : Nat
  acked  : Nat
  next   : Nat
  credit : Nat
  queue  : List TxFrame
  kept   : List Kept
  closing : Bool
  heard  : Nat
  bind   : Option (Nat × BitVec 16)
  later  : List AstpReq
  deriving DecidableEq, Repr

/-- A frame that the module sends (R368, R371, R379, R391): a RESP, an ACK and an answer without a session of a partition;
TENSOR, VERDICT and FAREWELL with the partition that sends; an answer to ARP and to a neighbour solicitation, to the MAC and address
that asked; a request of the module's own for the MAC of an address; an echo reply; the packets of the RoCEv2 responder; and a
Delay_Req of a PTP domain. -/
inductive Frame where
  | resp (ip : IpAddr) (port session part : Nat) (f : TxFrame) (ack limit : Nat)
  | ack (ip : IpAddr) (port session part ack limit : Nat)
  | noSession (ip : IpAddr) (port session part : Nat) (msgid : BitVec 16) (status : Nat)
  | tensor (ip : IpAddr) (part : Nat) (f : TensorFrame)
  | verdict (ip : IpAddr) (part ent : Nat) (r : VerdictRec)
  | farewell (ip : IpAddr) (part reason : Nat) (time : W64)
  | arp (dst : BitVec 48) (peer ip : IpAddr)
  | neighbour (dst : BitVec 48) (peer ip : IpAddr)
  | arpAsk (ip : IpAddr)
  | neighbourAsk (ip : IpAddr)
  | echo (peer ip : IpAddr) (data : List Byte)
  | readResp (ip : IpAddr) (dqpn psn : Nat) (data : List Byte)
  | roceAck (ip : IpAddr) (dqpn psn : Nat)
  | roceNak (ip : IpAddr) (dqpn psn syndrome : Nat)
  | delayReq (domain : Nat)
  deriving DecidableEq, Repr

/-- A frame in the queue of a sub-port (R385, R402): the time before which it does not start, and for a frame of a slot the partition
and primary ENT of its action. -/
structure Queued where
  sub   : SubPort
  at_   : Nat
  own   : Option (Nat × Nat)
  frame : Frame
  deriving DecidableEq, Repr

/-- A frame that has left a sub-port with what its headers take from the registers at that moment (R367-R370): the MAC addresses, the
VLAN tag, the source address, UDP_PORT and MOD_ID. The destination is none where the model holds no MAC address for it. -/
structure Sent where
  sub     : SubPort
  dst     : Option (BitVec 48)
  mac     : BitVec 48
  tag     : Option Nat
  src     : IpAddr
  udpPort : Nat
  srcMod  : BitVec 32
  frame   : Frame
  deriving DecidableEq, Repr

/-- A peer MAC address that the module holds, with the time it was resolved (R368). -/
structure MacEnt where
  sub : SubPort
  ip  : IpAddr
  mac : BitVec 48
  time : Nat
  deriving DecidableEq, Repr

/-- The network beside its registers: sessions by id, staged tensor frames by partition · 65,536 + ENT, transfers completed
(key and STEP, R378), peer MAC addresses, the addresses whose MAC the module has asked for, the queues of the sub-ports, the frames that
have left the module, in order, the time at which each sub-port has sent what it has started (sub-port k of port q of Horizon die h
at 32h + 4q + k). -/
structure NetSt where
  sess  : SMap (Option Session)
  stage : SMap (List TensorFrame)
  done  : List (Nat × Nat)
  macs  : List MacEnt
  asked : List (SubPort × IpAddr)
  wait  : List Queued
  out   : List Sent
  busy  : SMap Nat
  later : List Instr
  deriving DecidableEq, Repr

def NetSt.reset : NetSt := ⟨[], [], [], [], [], [], [], [], []⟩

/-- The PTP instance beside its registers (R391, R393): the last Announce of each master on each sub-port, that of the selected
source, consecutive offsets within and beyond ±20 ns, the time of entry into HOLDOVER, the measured path delay of each sub-port, and
the UTC offset in seconds that the last Announce of a source brought (R443). -/
structure PtpSt where
  masters : List Announce
  source : Option Announce
  utc    : Int
  good   : Nat
  bad    : Nat
  since  : Nat
  delay  : SMap (Option Nat)
  deriving DecidableEq, Repr

def PtpSt.reset : PtpSt := ⟨[], none, 0, 0, 0, 0, []⟩

/-- Time (R388, R389) and the tick of the model: Meridian nanoseconds, the 32-bit fraction, the cc count, and the correction
of the counter rate that the servo has set, in parts per 10⁹ (R390). `off` is how far the Meridian counter of a die stands from the
module reference, in nanoseconds: compute die d at d, Horizon die h at 16 + h (R389). `free` is the model's own: it counts the free
values drawn from Config. -/
structure TimeSt where
  ns   : W64
  frac : Nat
  cc   : Nat
  rate : Int
  off  : SMap Int
  free : Nat
  deriving DecidableEq, Repr

/-- The lanes of one direction of a Span link (R364): those that are out of service. -/
structure SpanDir where
  bad : List Nat
  deriving DecidableEq, Repr

/-- A flit that a Span port puts on its link, with what it says (R360, R361, R362): data; a credit of a VC and the acknowledged SEQ; a
NAK of the SEQ expected; ACK_SEQ and the free slots of each VC. -/
inductive SpanOut where
  | data (f : Flit)
  | credit (vc ack : Nat) (f : Flit)
  | nak (seq : Nat) (f : Flit)
  | sync (ack : Nat) (free : List Nat) (f : Flit)
  deriving DecidableEq, Repr

/-- A Span port beside its registers (R361): the SEQ of the next flit it sends, its replay buffer, the SEQ that it expects,
its receive buffers in order of receipt, flits that await a detour (R364), the lanes of each direction, what it has put on the link, in
order, whether it has trained and awaits the sync flit, and the times of the NAKs of the last microsecond (R362). -/
structure SpanSt where
  txSeq  : Nat
  replay : List Flit
  rxSeq  : Nat
  buf    : List Flit
  detour : List Flit
  tx     : SpanDir
  rx     : SpanDir
  out    : List SpanOut
  wait   : Bool
  naks   : List Nat
  deriving DecidableEq, Repr

def SpanSt.reset : SpanSt := ⟨0, [], 0, [], [], ⟨[]⟩, ⟨[]⟩, [], false, []⟩

/-- A fence of a slot that has begun (R439): the cells that its STOP stopped are those that are not in `before`; a service
command asked for it. -/
structure Fence where
  cell    : CellId
  before  : List CellId
  started : Bool
  deriving DecidableEq, Repr

/-- A copy of the configuration in flash (R474): its generation, whether its hash and HMAC verify, and the values of the
registers that hold configuration fields. -/
structure CfgCopy where
  gen  : Nat
  ok   : Bool
  vals : SMap W64
  deriving DecidableEq, Repr

/-- What a measurement register was extended with (R480). -/
inductive Meas where
  | rom (svn : Nat)
  | image (i : FwImage)
  | config (c : CfgCopy)
  | fuses (f : SMap W64)
  | service (cmd die slot : Nat)
  | remap (n log : Nat)
  | cap (addr : Nat) (v : W64)
  deriving DecidableEq, Repr

/-- A quote that the module has returned (R481): its fields and the measurements that it captures, M0 to M5. -/
structure QuoteRec where
  panelId : W64
  modId   : Nat
  fw      : Nat
  time    : W64
  nonce   : List Byte
  slot    : Nat
  svn     : Nat
  phase   : Nat
  index   : Nat
  mreg    : SMap (List Meas)
  deriving DecidableEq, Repr

/-- A subscriber of the event service (R445): the Record ID of the last record that it is done with, and the time of the
first failed delivery of the next one. -/
structure Subscriber where
  last  : Nat
  since : Option Nat
  deriving DecidableEq, Repr

/-- A fault event of the event service (R445): the message registry, the MessageId, and the record that it carries. -/
structure FaultEvent where
  registry  : String
  messageId : String
  record    : Fsr
  deriving DecidableEq, Repr

/-- Lodestar, its flash and its fuses beside their registers (R444, R445, R471-R481): whether the firmware runs; the images
in the slots (none where a slot holds none); the boot word (none where its CRC fails, else whether it names slot B); the
fused SVN, and whether FUSES has loaded the fields that fuses hold since Lodestar started (R9, R458); the two copies of the configuration; the burned bits of IDCHUNK; the CLEAN signing record (chunk and leaf);
the measurements of each register; the quotes returned; the fault log and its flash copy, oldest first; the count of the
Record ID; the subscribers; the deliveries made (subscriber and event); and the fuses of the dies by the register that
they load. -/
structure Lode where
  up      : Bool
  imgA    : Option FwImage
  imgB    : Option FwImage
  boot    : Option Bool
  svn     : Nat
  loaded  : Bool
  cfg0    : CfgCopy
  cfg1    : CfgCopy
  burned  : List Nat
  clean   : Option (Nat × Nat)
  meas    : SMap (List Meas)
  quotes  : List QuoteRec
  log     : List Fsr
  flash   : List Fsr
  records : Nat
  subs    : SMap Subscriber
  sent    : List (Nat × FaultEvent)
  fuses   : SMap W64
  deriving DecidableEq, Repr

/-- Power beside its registers (R451-R458, R490, R491): whether the input is in range, whether both blade pairs carried current
in the last sample, PWR_EN, PWR_OK, whether ALERT_N and FAULT_N are asserted, the consecutive samples below 0.97 of the
effective cap, and the femtoseconds since the start of RAILS. -/
structure Pwr where
  input : Bool
  pairs : Bool
  en    : Bool
  ok    : Bool
  alert : Bool
  fault : Bool
  low   : Nat
  fs    : Nat
  deriving DecidableEq, Repr

/-- The state of the module. -/
structure State where
  /-- The commands waiting, first in first out. -/
  pending : List Instr
  /-- The CSR file: 32-bit address to value (R425). -/
  csr : SMap W64
  /-- Cell contexts, keyed die · 66 + slot. -/
  cells : SMap CellCtx
  /-- Zenith contexts, keyed die · 64 + partition. -/
  zctx : SMap CellCtx
  /-- Home directory by page number (R312). -/
  dir : SMap DirEntry
  /-- Bytes of frames, keyed frame location · 65,536 + offset; an unlisted byte is 0. -/
  bytes : SMap Byte
  /-- Frames in use or reserved, by location. -/
  frames : List Nat
  /-- Uncorrectable 8-byte words, keyed frame location · 8,192 + word (R346, R355). -/
  ue : List Nat
  /-- Single-bit errors: word key as `ue`, and the position SYND of R347. -/
  ce : List (Nat × Nat)
  /-- Moves, requests, claims, windows, home caches and fences. -/
  tiers : Tiers
  /-- Passes on the Zenith units, keyed die · 64 + partition. -/
  zrun : SMap ZRun
  /-- Slices of the Zenith units, by die. -/
  zslice : SMap ZSlice
  /-- Times of the corrected lines of each physical channel of a stack, keyed stack · 136 + channel, since its last wear
  record (R442, kind 0x07). -/
  wear : SMap (List Nat)
  /-- The event that the NaN trap of a partition holds, where it has not been cleared since (R66). -/
  traps : SMap (Option TrapRec)
  /-- Fault records whose event has happened and that Lodestar has not yet written (R444). -/
  fsrPend : List Fsr
  /-- The Almanac by partition. -/
  alm : SMap AlmSt
  /-- The step verdict by partition. -/
  vrd : SMap VrdSt
  /-- The timetables by partition. -/
  tts : SMap TtSt
  net : NetSt
  ptp : PtpSt
  time : TimeSt
  /-- Span ports: die d port p at 4d + p, Horizon die h port p at 64 + 4h + p. -/
  span : SMap SpanSt
  /-- Fences begun or waiting, in order (R439). -/
  fencing : List Fence
  /-- Slots that REJOIN made SPARE and that wait to back an absent cell (R448). -/
  rejoined : List CellId
  lode : Lode
  pwr : Pwr
  deriving DecidableEq, Repr

/-- The image that both slots hold as shipped: SVN and FW 0. DESIGN CHOICE (log entry 5): the spec names no shipped image. -/
def shippedImage : FwImage :=
  ⟨[0x53, 0x57, 0x46, 0x57, 1, 0, 1, 0] ++ List.replicate 12 0 ++ [0xF0, 0x06, 0, 0] ++ List.replicate 232 0, true, true⟩

/-- The caps of partition 0 as shipped and the cells it owns: every resource of the module (R411, log entry 6). -/
def shippedCaps : SMap W64 :=
  [(0x38000010, BitVec.ofNat 64 (33538048 * 2 ^ 38 + 98304 * 2 ^ 21 + 1024)),
    (0x38000018, BitVec.ofNat 64 (8192 * 2 ^ 50 + 255 * 2 ^ 42 + 255 * 2 ^ 34 + 64 * 2 ^ 27 + 1024 * 2 ^ 16 + 4096 * 2 ^ 3)),
    (0x38000040, 0x1F7), (0x38000048, BitVec.ofNat 64 ((2 ^ 26 - 1) * 2 ^ 32))] ++
    (List.range 16).map fun j => (0x38000180 + 8 * j, BitVec.ofNat 64 (2 ^ 64 - 1))

/-- The flash and the fuses as shipped (R411, R471-R480). -/
def Lode.reset : Lode where
  up := false
  imgA := some shippedImage
  imgB := some shippedImage
  boot := some false
  svn := 0
  loaded := false
  cfg0 := ⟨1, true, shippedCaps⟩
  cfg1 := ⟨0, true, shippedCaps⟩
  burned := []
  clean := none
  meas := []
  quotes := []
  log := []
  flash := []
  records := 0
  subs := []
  sent := []
  fuses := []

/-- Input in range, PWR_EN low (R490 pulls it down), main rails off. -/
def Pwr.reset : Pwr := ⟨true, false, false, false, false, false, 0, 0⟩

/-- The machine as its input enters range (R458): nothing is loaded from fuses or flash, and every register has its reset
value. -/
def State.reset : State where
  pending := []
  csr := []
  cells := []
  zctx := []
  dir := []
  bytes := []
  frames := []
  ue := []
  ce := []
  tiers := .reset
  zrun := []
  zslice := []
  wear := []
  traps := []
  fsrPend := []
  alm := []
  vrd := []
  tts := []
  net := .reset
  ptp := .reset
  time := ⟨0, 0, 0, 0, [], 0⟩
  span := []
  fencing := []
  rejoined := []
  lode := .reset
  pwr := .reset

end Sys2Proof.Machine
end

