-- ==== Sys2Proof/Machine/Ops.lean ====
section
/-! DEFINITION. The named operations that commands share: CSR and context access, partitions and their cells, barrier
counters and fences, verdict bits, fault records, violations and the NaN trap. -/

namespace Sys2Proof.Machine

/-- The value of the CSR at address `a` (R8, R9). -/
def State.rd (s : State) (a : Nat) : W64 := SMap.get s.csr (csrReset a) a

/-- Set the CSR at address `a`. -/
def State.wr (s : State) (a : Nat) (v : W64) : State := { s with csr := SMap.set s.csr (csrReset a) a v }

/-- Field `f` of the CSR at `a`. -/
def State.rdF (s : State) (a : Nat) (f : Nat × Nat) : Nat := fld (s.rd a) f.1 f.2

/-- Set field `f` of the CSR at `a`. -/
def State.wrF (s : State) (a : Nat) (f : Nat × Nat) (x : Nat) : State := s.wr a (fldPut (s.rd a) f.1 f.2 x)

/-- A counter counts `n` and saturates (R70). -/
def State.count (s : State) (a : Nat) (n : Nat) : State := if n = 0 then s else s.wr a (satAdd64 (s.rd a) n)

/-- Set the low bits that mask `m` names to those of `v`. -/
def maskPut (old v m : Nat) : Nat := (old &&& (2 ^ 64 - 1 - m)) ||| (v &&& m)

/-- Fold a function over a list, starting from a state. -/
def State.each {α : Type} (s : State) (l : List α) (f : State → α → State) : State := l.foldl f s

/-- The number of a cell slot in the module. -/
def cellKey (c : CellId) : Nat := c.die.val * 66 + c.slot.val

/-- The cell of a die and a slot number, where there is one. -/
def mkCell (d sl : Nat) : Option CellId :=
  if hd : d < 16 then (if hs : sl < 66 then some ⟨⟨d, hd⟩, ⟨sl, hs⟩⟩ else none) else none

/-- The context of cell `c`. -/
def State.cell (s : State) (c : CellId) : CellCtx := SMap.get s.cells CellCtx.reset (cellKey c)

/-- Replace the context of cell `c`. -/
def State.setCell (s : State) (c : CellId) (x : CellCtx) : State :=
  { s with cells := SMap.set s.cells CellCtx.reset (cellKey c) x }

/-- The number of a partition's context on a die. -/
def zenKey (d p : Nat) : Nat := d * 64 + p

/-- A program context (R214, R270). -/
def State.ctx (s : State) : Ctx → CellCtx
  | .cell c => s.cell c
  | .zen d p => SMap.get s.zctx CellCtx.reset (zenKey d.val p.val)

/-- Replace a program context. -/
def State.setCtx (s : State) (c : Ctx) (x : CellCtx) : State :=
  match c with
  | .cell k => s.setCell k x
  | .zen d p => { s with zctx := SMap.set s.zctx CellCtx.reset (zenKey d.val p.val) x }

/-- The compute die of a context. -/
def ctxDie : Ctx → Nat
  | .cell c => c.die.val
  | .zen d _ => d.val

/-- The Meridian counter of a die: compute die d at `d`, Horizon die h at `16 + h` (R389). -/
def State.nsAt (s : State) (d : Nat) : W64 := BitVec.ofInt 64 ((s.time.ns.toNat : Int) + SMap.get s.time.off 0 d)

/-- The module as a die's clock shows it. -/
def State.seenBy (s : State) (d : Nat) : State := { s with time := { s.time with ns := s.nsAt d } }

/-- A pass of a partition on a die. -/
def State.zr (s : State) (d p : Nat) : ZRun := SMap.get s.zrun ZRun.idle (zenKey d p)

/-- Replace a pass of a partition on a die. -/
def State.setZr (s : State) (d p : Nat) (z : ZRun) : State := { s with zrun := SMap.set s.zrun ZRun.idle (zenKey d p) z }

/-! Register files (R263, R270). -/

/-- s[n]; s0 reads 0. -/
def RegFile.getS (r : RegFile) (n : Nat) : W64 := if n = 0 then 0 else SMap.get r.scal 0 n

/-- Write s[n]; a write to s0 is discarded. -/
def RegFile.setS (r : RegFile) (n : Nat) (v : W64) : RegFile :=
  if n = 0 then r else { r with scal := SMap.set r.scal 0 n v }

/-- d[n]. -/
def RegFile.getD (r : RegFile) (n : Nat) : Desc := SMap.get r.desc 0 n

/-- Write d[n]. -/
def RegFile.setD (r : RegFile) (n : Nat) (v : Desc) : RegFile := { r with desc := SMap.set r.desc 0 n v }

/-- p[n]; p7 reads 1. -/
def RegFile.getP (r : RegFile) (n : Nat) : Bool := n = 7 || r.pred.toNat.testBit n

/-- Write p[n]; a write to p7 is discarded. -/
def RegFile.setP (r : RegFile) (n : Nat) (b : Bool) : RegFile :=
  if n ≥ 7 then r else { r with pred := BitVec.ofNat 8 (bitsPut r.pred.toNat n n (bnat b)) }

/-! Run states and program counters (R278). -/

def stIdle : Nat := 0
def stRun : Nat := 1
def stWaitBar : Nat := 2
def stWaitTime : Nat := 3
def stStopped : Nat := 4
def stHalting : Nat := 5

/-- STATE of CELL.SEQ_STAT. -/
def State.runState (s : State) (c : CellId) : Nat := s.rdF (R.CELL_SEQ_STAT c) F.CELL_SEQ_STAT_STATE

/-- Set STATE of CELL.SEQ_STAT, with the cause of STOPPED and the counter of a barrier wait. -/
def State.setRun (s : State) (c : CellId) (st cause wbar : Nat) : State :=
  let a := R.CELL_SEQ_STAT c
  ((s.wrF a F.CELL_SEQ_STAT_STATE st).wrF a F.CELL_SEQ_STAT_CAUSE cause).wrF a F.CELL_SEQ_STAT_WBAR wbar

/-- The next instruction to issue of a context. -/
def State.pc (s : State) : Ctx → Nat
  | .cell c => s.rdF (R.CELL_SEQ_STAT c) F.CELL_SEQ_STAT_PC
  | .zen d p => (s.ctx (.zen d p)).zpc

/-- Set the PC of a context, modulo 2⁴⁸. -/
def State.setPc (s : State) (c : Ctx) (x : Nat) : State :=
  match c with
  | .cell k => s.wrF (R.CELL_SEQ_STAT k) F.CELL_SEQ_STAT_PC (x % 2 ^ 48)
  | .zen d p => s.setCtx (.zen d p) { s.ctx (.zen d p) with zpc := x % 2 ^ 48 }

/-- Whether an instruction is zen.next. -/
def isZenNext : Instr → Bool
  | .zenNext _ _ _ => true
  | _ => false

/-- Whether a partition runs in the current slice of a Zenith unit (R219). -/
def State.inSlice (s : State) (d p : Nat) : Bool := (SMap.get s.zslice ZSlice.reset d).cur = some p

/-- Whether a context issues: a cell in RUN (R278), or a partition that has a block in work on the unit, not ended by a
zen.next, in a slice of its own (R219, R227). -/
def State.running (s : State) : Ctx → Bool
  | .cell c => s.runState c = stRun
  | .zen d p => (s.zr d.val p.val).blk.isSome && s.inSlice d.val p.val &&
      !((s.ctx (.zen d p)).waiting.any fun j => isZenNext j.ins)

/-! Partitions and their cells (R13, R29, R32, R416). -/

/-- The partition that owns the logical cell a slot backs, from CELL.ID. -/
def State.cellPart (s : State) (c : CellId) : Option Nat :=
  let v := s.rd (R.CELL_ID c)
  if flag v 40 then some (fld v 39 34) else none

/-- The partition of a context. -/
def State.part (s : State) : Ctx → Nat
  | .cell c => (s.cellPart c).getD 0
  | .zen _ p => p.val

/-- The slot state of R27. -/
def State.slotState (s : State) (c : CellId) : Nat := s.rdF (R.CELL_ID c) F.CELL_ID_STATE

/-- The logical cells that a partition owns, in ascending order (R416). -/
def State.owned (s : State) (p : Nat) : List Nat :=
  (List.range 16).flatMap fun j =>
    let w := (s.rd (R.PART_CELLMAPj p j)).toNat
    if w = 0 then [] else (List.range 64).filterMap fun i => if w.testBit i then some (64 * j + i) else none

/-- The slot that backs logical cell L, from its LMAP entry (R29). -/
def State.backing (s : State) (l : Nat) : Option CellId :=
  let e := fld (s.rd (R.DIE_LMAPj (l / 64) (l % 64 / 8))) (8 * (l % 8) + 7) (8 * (l % 8))
  if e / 128 = 1 then mkCell (l / 64) (e % 128) else none

/-- The logical cell that a slot backs, from CELL.ID. -/
def State.logical (s : State) (c : CellId) : Nat := s.rdF (R.CELL_ID c) F.CELL_ID_LOGICAL

/-- The present cells of a partition in ascending logical order. -/
def State.present (s : State) (p : Nat) : List CellId := (s.owned p).filterMap s.backing

/-- The partition-relative number of a cell (R13). -/
def State.relative (s : State) (c : CellId) : Nat :=
  match s.cellPart c with
  | some p => ((s.owned p).takeWhile (· < s.logical c)).length
  | none => 0

/-- Partition-relative cell `i` of a partition as a logical cell. -/
def State.relLogical (s : State) (p i : Nat) : Option Nat := (s.owned p)[i]?

/-! Core clocks (R463, R464). -/

/-- A wake request: the core clock of a cell runs, and a wake of a stopped clock counts. -/
def State.wake (s : State) (c : CellId) : State :=
  let s := s.setCell c { s.cell c with idle := 0 }
  if s.rdF (R.CELL_CLK_STAT c) F.CELL_CLK_STAT_RUN = 1 then s
  else (s.wrF (R.CELL_CLK_STAT c) F.CELL_CLK_STAT_RUN 1).count (R.CELL_WAKE_CNT c) 1

/-- Whether a cell waits on barrier counter `k`. -/
def CellCtx.waitsOn (x : CellCtx) (k : Nat) : Bool :=
  match x.wait with
  | some (.bar b _) => b = k
  | _ => false

/-! Verdict bits (R246, R247). -/

def vOVF : Nat := 0
def vNAN : Nat := 1
def vPLX : Nat := 2
def vCONS : Nat := 3
def vUNC : Nat := 4
def vRETR : Nat := 5
def vLATE : Nat := 6
def vMISS : Nat := 7

/-- Raise a bit in the open record of a partition (R247). -/
def State.raise (s : State) (p k : Nat) : State :=
  let a := R.PART_VRD_OWN p
  s.wr a (s.rd a ||| BitVec.ofNat 64 (2 ^ k))

/-! Barrier counters (R283, R284) and completion fences (R328). -/

/-- NBAR of a partition. -/
def State.nbar (s : State) (p : Nat) : Nat := s.rdF (R.PART_BAR_CFG p) F.PART_BAR_CFG_NBAR

/-- VALUE of a barrier counter. -/
def State.barVal (s : State) (p k : Nat) : Nat := s.rdF (R.PART_BARk p k) F.PART_BARk_VALUE

/-- A fence that is armed, not passed, and whose counter is present and at TARGET passes (R328). -/
def State.fenceCheck (s : State) (p k : Nat) : State :=
  let v := s.rd (R.PART_RFENCEk_A p k)
  let b := fld v 53 48
  if flag v 63 && decide (b < s.nbar p) && decide (fld v 47 0 ≤ s.barVal p b) && !s.tiers.passed.contains (16 * p + k) &&
      !s.tiers.dead.contains (16 * p + k)
  then { s with tiers := { s.tiers with passed := (16 * p + k) :: s.tiers.passed } }
  else s

/-- Check every fence of a partition. -/
def State.fences (s : State) (p : Nat) : State := s.each (List.range 16) fun s k => s.fenceCheck p k

/-- A barrier counter advances by `n`, saturating (R283, R284); a counter that is not present does not exist. -/
def State.barAdvance (s : State) (p k n : Nat) : State :=
  if k < s.nbar p then
    let s := (s.wrF (R.PART_BARk p k) F.PART_BARk_VALUE (min (s.barVal p k + n) (2 ^ 48 - 1))).fences p
    s.each ((s.present p).filter fun c => (s.cell c).waitsOn k) State.wake
  else s

/-- Whether page `pg` of a partition is covered by an armed fence that has not passed (R328). -/
def State.gated (s : State) (p pg : Nat) : Bool :=
  (List.range 16).any fun k =>
    let b := s.rd (R.PART_RFENCEk_B p k)
    flag (s.rd (R.PART_RFENCEk_A p k)) 63 && decide (fld b 25 0 ≤ pg) && decide (pg < fld b 25 0 + fld b 57 32) &&
      !s.tiers.passed.contains (16 * p + k)

/-! Fault records (R442-R446). -/

/-- STEP of a partition, 0 where a record names none (R443). -/
def State.stepOf (s : State) (p : Nat) : W64 := if p < 64 then BitVec.ofNat 64 (s.rdF (R.PART_ZEN_STEP p) F.PART_ZEN_STEP_STEP) else 0

/-- An event of a fault record: Lodestar writes the record later (R444). -/
def State.faultOf (s : State) (kind event cls action part unit : Nat) (loc : List Nat) (sev : Nat) (plx : Option Plx) : State :=
  { s with fsrPend := s.fsrPend ++
      [⟨kind, event, cls, action, part, unit, loc, sev, s.time.ns, s.stepOf part, s.ptp.utc, plx, 0, 0, 0, 0⟩] }

/-- The event of a kind that has one event only. -/
def State.fault (s : State) (kind cls action part unit : Nat) (loc : List Nat) (sev : Nat) (plx : Option Plx) : State :=
  s.faultOf kind 0 cls action part unit loc sev plx

/-- Lodestar extends measurement register `k` (R480). -/
def State.measure (s : State) (k : Nat) (m : Meas) : State :=
  { s with lode := { s.lode with meas := SMap.set s.lode.meas [] k (SMap.get s.lode.meas [] k ++ [m]) } }

/-! Violations (R287). -/

/-- A refused instruction: counted, and on a cell latched with its cause. -/
def State.violate (s : State) (c : Ctx) (cause cls minor pc : Nat) : State :=
  match c with
  | .cell k =>
    (s.count (R.CELL_VIOL_CNT k) 1).wr (R.CELL_VIOL_LAST k)
      (BitVec.ofNat 64 (cause * 2 ^ 60 + cls * 2 ^ 56 + minor * 2 ^ 48 + pc % 2 ^ 48))
  | .zen d _ => s.count (R.DIE_ZEN_VIOL_CNT d.val) 1

/-- A refused instruction word at address `pc`. -/
def State.violateInsn (s : State) (c : Ctx) (cause : Nat) (i : Instr) (pc : Nat) : State :=
  s.violate c cause (insnClass i) (insnMinor i) pc

/-! The NaN trap (R65-R68, R217, R497). -/

/-- Causes of STOPPED (R278). -/
def causeNan : Nat := 1
def causeHost : Nat := 2
def causeFetch : Nat := 3

/-- A stop request goes to every present cell of the partition that runs or waits, and wakes it; an earlier request
stands. -/
def State.requestStop (s : State) (p cause : Nat) : State :=
  s.each (s.present p) fun s c =>
    let st := s.runState c
    if (st = stRun || st = stWaitBar || st = stWaitTime) && (s.cell c).stopReq = 0 then
      (s.setCell c { s.cell c with stopReq := cause }).wake c
    else s

/-- The counter of NaN events that the trap does not record (R70, R217). -/
def nanCounter : Ctx → Nat
  | .cell c => R.CELL_NAN_CNT c
  | .zen d _ => R.DIE_ZEN_NAN_CNT d.val

/-- Capture an event in the trap registers of partition `p` (R65, R217, R497). -/
def State.capture (s : State) (c : Ctx) (p pc : Nat) (word : Nat) (e : NanEvt) : State :=
  let cell := match c with
    | .cell k => s.relative k
    | .zen _ _ => 0x7FF
  let pcv := match c with
    | .cell _ => pc % 2 ^ 48
    | .zen _ _ => 0
  let w0 := 2 ^ 63 + cell * 2 ^ 52 + ctxDie c * 2 ^ 48 + e.fmtR * 2 ^ 42 + e.fmtA * 2 ^ 36 + e.fmtB * 2 ^ 30 + e.src * 2 ^ 26 +
    e.kind * 2 ^ 24 + e.opnd * 2 ^ 23 + e.kidx % 2 ^ 21
  ((((((s.wr (R.PART_NAN_TRAP0 p) (BitVec.ofNat 64 w0)).wr (R.PART_NAN_TRAP1 p) (BitVec.ofNat 64 pcv)).wr
    (R.PART_NAN_TRAP2 p) (BitVec.ofNat 64 word)).wr (R.PART_NAN_TRAP3 p) (BitVec.ofNat 64 (word / 2 ^ 64))).wr
    (R.PART_NAN_TRAP4 p) (BitVec.ofNat 64 (e.elem % 2 ^ 52))).wr (R.PART_NAN_TRAP5 p) (BitVec.ofNat 64 e.opA)).wr
    (R.PART_NAN_TRAP6 p) (BitVec.ofNat 64 e.opB)

/-- The rank of an event among those of its cc (R66): cells by their relative number before Zenith units by die, and within a
context the instruction that issued first; `q` orders the instructions of a context. -/
def State.evtRank (s : State) (c : Ctx) (q : Nat) : Nat :=
  (match c with
    | .cell k => s.relative k
    | .zen d _ => 2 ^ 16 + d.val) * 2 ^ 64 + q

/-- Record what a trap of partition `p` holds. -/
def State.setTrap (s : State) (p : Nat) (t : Option TrapRec) : State := { s with traps := SMap.set s.traps none p t }

/-- Whether an event of rank `r` goes before the one that the trap of partition `p` recorded in this same cc (R66); answers the
context of that one, which is counted instead. -/
def State.outranks (s : State) (p r : Nat) : Option Ctx :=
  match SMap.get s.traps none p with
  | some t => if t.cc = s.time.cc && decide (r < t.rank) then some t.ctx else none
  | none => none

/-- The NaN events of one instruction: `e` is the one that the order of R66 puts first, `n` their number, `q` the place of the
instruction in its context's order. Retirements with no tick between them fall in one cc. -/
def State.nanEvents (s : State) (c : Ctx) (i : Instr) (pc q : Nat) (e : Option NanEvt) (n : Nat) : State :=
  match e with
  | none => s
  | some e =>
    let p := s.part c
    let s := s.raise p vNAN
    let r := s.evtRank c q
    let word := match insnWord i with
      | some w => w.word
      | none => 0
    let held : Option TrapRec := some ⟨s.time.cc, r, c⟩
    if flag (s.rd (R.PART_NAN_TRAP0 p)) 63 then
      match s.outranks p r with
      | some o => (((s.capture c p pc word e).setTrap p held).count (nanCounter o) 1).count (nanCounter c) (n - 1)
      | none => s.count (nanCounter c) n
    else (((s.capture c p pc word e).setTrap p held).requestStop p causeNan).count (nanCounter c) (n - 1)

/-- Count saturated and overflowed elements of a context (R70, R217). -/
def State.countConv (s : State) (c : Ctx) (sat ovf : Nat) : State :=
  match c with
  | .cell k => (s.count (R.CELL_SAT_CNT k) sat).count (R.CELL_OVF_CNT k) ovf
  | .zen d _ => (s.count (R.DIE_ZEN_SAT_CNT d.val) sat).count (R.DIE_ZEN_OVF_CNT d.val) ovf

/-! Settings that an instruction takes at its issue (R56, R88, R127, R162, R496). -/

/-- Two registers of 8 entries as one table. -/
def State.tab (s : State) (lo hi : Nat) : W128 := (s.rd hi).append (s.rd lo)

/-- The code tables and converter controls of a cell. -/
def State.cellTabs (s : State) (c : CellId) : Tabs :=
  ⟨s.rd (R.CELL_TBL_CFG c), s.tab (R.CELL_TBL0_LO c) (R.CELL_TBL0_HI c), s.tab (R.CELL_TBL1_LO c) (R.CELL_TBL1_HI c),
    s.tab (R.CELL_TBL2_LO c) (R.CELL_TBL2_HI c), s.tab (R.CELL_TBL3_LO c) (R.CELL_TBL3_HI c), s.rd (R.CELL_CONV_CTL c)⟩

/-- The reference code tables of a partition (R496). -/
def State.refTabs (s : State) (p : Nat) : Tabs :=
  ⟨s.rd (R.PART_TBL_CFG p), s.tab (R.PART_TBL0_LO p) (R.PART_TBL0_HI p), s.tab (R.PART_TBL1_LO p) (R.PART_TBL1_HI p),
    s.tab (R.PART_TBL2_LO p) (R.PART_TBL2_HI p), s.tab (R.PART_TBL3_LO p) (R.PART_TBL3_HI p), 0⟩

/-- The tables that a context's instructions use. -/
def State.tabs (s : State) : Ctx → Tabs
  | .cell c => s.cellTabs c
  | .zen d p => (s.zr d.val p.val).tabs

/-- The overflow mode that a context's instructions use (R55, R56). -/
def State.ovf (s : State) : Ctx → Bool
  | .cell c => flag (s.rd (R.PART_NUM_MODE ((s.cellPart c).getD 0))) 0
  | .zen d p => (s.zr d.val p.val).ovf

end Sys2Proof.Machine
end

