-- ==== Sys2Proof/Machine/Span.lean ====
section
/-! DEFINITION. Span links (R358-R365): flits, credits, replay, retraining, spare lanes and routing. -/

namespace Sys2Proof.Machine

/-- The node of a port: compute die 0-15, or 16 + h (R360). -/
def spanNode : SpanPort → Nat
  | .die d _ => d.val
  | .hzn h _ => 16 + h.val

/-- The port number. -/
def spanPortNo : SpanPort → Nat
  | .die _ p => p.val
  | .hzn _ p => p.val

/-- The key of a port. -/
def spanKey (sp : SpanPort) : Nat := 4 * spanNode sp + spanPortNo sp

/-- The port of a key. -/
def spanOfKey (k : Nat) : Option SpanPort :=
  if h : k / 4 < 16 then some (.die ⟨k / 4, h⟩ ⟨k % 4, Nat.mod_lt _ (by decide)⟩)
  else if h : k / 4 - 16 < 4 then some (.hzn ⟨k / 4 - 16, h⟩ ⟨k % 4, Nat.mod_lt _ (by decide)⟩) else none

/-- A Span port beside its registers. -/
def State.spn (s : State) (sp : SpanPort) : SpanSt := SMap.get s.span SpanSt.reset (spanKey sp)

/-- Replace a Span port. -/
def State.setSpn (s : State) (sp : SpanPort) (x : SpanSt) : State :=
  { s with span := SMap.set s.span SpanSt.reset (spanKey sp) x }

/-- The step of port p of a die on the grid of dies. -/
def dieStep (d p : Nat) : Nat :=
  match p with
  | 0 => d - 4
  | 1 => d + 1
  | 2 => d + 4
  | _ => d - 1

/-- Whether port p of a die leads off the grid: to Horizon die p (R13, R358). -/
def onEdge (d p : Nat) : Bool :=
  match p with
  | 0 => d / 4 = 0
  | 1 => d % 4 = 3
  | 2 => d / 4 = 3
  | _ => d % 4 = 0

/-- The p-th die, in ascending number, of the four that adjoin Horizon die h (R13, R358). -/
def hznDie (h p : Nat) : Nat :=
  match h with
  | 0 => p
  | 1 => 4 * p + 3
  | 2 => 12 + p
  | _ => 4 * p

/-- The port at the other end of a port's link (R358). -/
def spanPeer : SpanPort → SpanPort
  | .die d p =>
    if onEdge d.val p.val then .hzn p (Fin.ofNat 4 (if p.val % 2 = 0 then d.val % 4 else d.val / 4))
    else .die (Fin.ofNat 16 (dieStep d.val p.val)) (Fin.ofNat 4 (p.val + 2))
  | .hzn h p => .die (Fin.ofNat 16 (hznDie h.val p.val)) h

/-! Registers of a port. -/

def spanStat : SpanPort → Nat
  | .die d p => R.DIE_SPAN_STATp d.val p.val
  | .hzn h p => R.HZN_SPAN_STATp h.val p.val
def spanCrcCnt : SpanPort → Nat
  | .die d p => R.DIE_SPAN_CRC_CNTp d.val p.val
  | .hzn h p => R.HZN_SPAN_CRC_CNTp h.val p.val
def spanReplayCnt : SpanPort → Nat
  | .die d p => R.DIE_SPAN_REPLAY_CNTp d.val p.val
  | .hzn h p => R.HZN_SPAN_REPLAY_CNTp h.val p.val
def spanRetrainCnt : SpanPort → Nat
  | .die d p => R.DIE_SPAN_RETRAIN_CNTp d.val p.val
  | .hzn h p => R.HZN_SPAN_RETRAIN_CNTp h.val p.val
def spanLaneCnt : SpanPort → Nat
  | .die d p => R.DIE_SPAN_LANE_CNTp d.val p.val
  | .hzn h p => R.HZN_SPAN_LANE_CNTp h.val p.val
def spanFlitCnt : SpanPort → Nat
  | .die d p => R.DIE_SPAN_FLIT_CNTp d.val p.val
  | .hzn h p => R.HZN_SPAN_FLIT_CNTp h.val p.val

def linkDown : Nat := 0
def linkTraining : Nat := 1
def linkUp : Nat := 2

/-- STATE of a port. -/
def State.linkSt (s : State) (sp : SpanPort) : Nat := s.rdF (spanStat sp) F.DIE_SPAN_STATp_STATE

/-- Sender credits of a VC. -/
def State.credit (s : State) (sp : SpanPort) (vc : Nat) : Nat := fld (s.rd (spanStat sp)) (8 * vc + 7) (8 * vc)

/-- Set the sender credits of a VC. -/
def State.setCredit (s : State) (sp : SpanPort) (vc n : Nat) : State :=
  s.wr (spanStat sp) (fldPut (s.rd (spanStat sp)) (8 * vc + 7) (8 * vc) n)

/-! Flits (R360). -/

def flitType (f : Flit) : Nat := fld f.hdr 63 60
def flitVc (f : Flit) : Nat := fld f.hdr 59 58
def flitDest (f : Flit) : Nat := fld f.hdr 57 53
def flitSrc (f : Flit) : Nat := fld f.hdr 52 48
def flitSeq (f : Flit) : Nat := fld f.hdr 47 36
def flitInfo (f : Flit) : Nat := fld f.hdr 35 16

/-- The CRC of a flit: header bytes 2 to 7, then the payload. -/
def flitCrc (f : Flit) : Nat := crc16 ((leBytes 8 f.hdr.toNat).drop 2 ++ f.payload)

/-- Whether a receiver takes a flit: its CRC and an assigned TYPE. -/
def flitGood (f : Flit) : Bool := fld f.hdr 15 0 = flitCrc f && decide (flitType f < 4)

/-- A data flit with SEQ `q` and its CRC. -/
def stampFlit (f : Flit) (q : Nat) : Flit :=
  let g : Flit := { f with hdr := fldPut f.hdr 47 36 q }
  { g with hdr := fldPut g.hdr 15 0 (flitCrc g) }

/-- A flit without data that a port sends to the node at the other end: it goes on VC 3 under the SEQ of the next data flit, which it
does not take (log entry 37). -/
def ctlFlit (sp : SpanPort) (t seq info : Nat) : Flit :=
  let h := BitVec.ofNat 64 (t % 16 * 2 ^ 60 + 3 * 2 ^ 58 + spanNode (spanPeer sp) * 2 ^ 53 + spanNode sp * 2 ^ 48 + seq % 4096 * 2 ^ 36 +
    info % 2 ^ 20 * 2 ^ 16)
  let g : Flit := ⟨h, (List.finRange 64).map (Config.ctlPayload h)⟩
  { g with hdr := fldPut h 15 0 (flitCrc g) }

/-- Buffer size of a VC (R361). -/
def vcSize (vc : Nat) : Nat :=
  match vc with
  | 2 => 128
  | 3 => 16
  | _ => 32

/-- Flits of a VC in a list. -/
def vcCount (l : List Flit) (vc : Nat) : Nat := (l.filter fun f => flitVc f = vc).length

/-- A port puts something on its link. -/
def State.emit (s : State) (sp : SpanPort) (o : List SpanOut) : State :=
  let x := s.spn sp
  s.setSpn sp { x with out := x.out ++ o }

/-- The SEQ of the last flit that a port has accepted. -/
def SpanSt.ack (x : SpanSt) : Nat := (x.rxSeq + 4095) % 4096

/-- A port returns a credit of a VC and acknowledges what it has accepted (R361). -/
def State.sendCredit (s : State) (sp : SpanPort) (vc : Nat) : State :=
  let x := s.spn sp
  s.emit sp [.credit vc x.ack (ctlFlit sp 1 x.txSeq (Config.creditInfo vc x.ack).toNat)]

/-- A port asks for a replay from the SEQ that it expects (R361). -/
def State.sendNak (s : State) (sp : SpanPort) : State :=
  let x := s.spn sp
  s.emit sp [.nak x.rxSeq (ctlFlit sp 2 x.txSeq x.rxSeq)]

/-- A port that has trained sends its sync flit (R362). -/
def State.sendSync (s : State) (sp : SpanPort) : State :=
  let x := s.spn sp
  let free := (List.range 4).map fun vc => vcSize vc - vcCount x.buf vc
  s.emit sp [.sync x.ack free (ctlFlit sp 3 x.txSeq (Config.syncInfo x.ack free).toNat)]

/-- A port sends a new data flit: it takes a credit and stays in the replay buffer (R361). -/
def State.sendFlit (s : State) (sp : SpanPort) (f : Flit) : State :=
  let x := s.spn sp
  let g := stampFlit f x.txSeq
  let s := s.setSpn sp { x with txSeq := (x.txSeq + 1) % 4096, replay := x.replay ++ [g], out := x.out ++ [.data g] }
  (s.setCredit sp (flitVc f) (s.credit sp (flitVc f) - 1)).count (spanFlitCnt sp) 1

/-- Whether a port can send a new data flit of a VC: after training, not before the sync flit has been handled (R362). -/
def State.canSend (s : State) (sp : SpanPort) (vc : Nat) : Bool :=
  s.linkSt sp = linkUp && !(s.spn sp).wait && decide (1 ≤ s.credit sp vc) && decide ((s.spn sp).replay.length < 256)

/-- A port sends its replay buffer again (R361); a replayed flit takes no new credit. -/
def State.replayAll (s : State) (sp : SpanPort) : State :=
  let x := s.spn sp
  (s.emit sp (x.replay.map .data)).count (spanReplayCnt sp) x.replay.length

/-! Receiving (R361). -/

/-- A flit that fails its checks is discarded, counted and answered with a NAK naming the SEQ expected. -/
def State.badFlit (s : State) (sp : SpanPort) : State :=
  (s.sendNak sp).count (spanCrcCnt sp) 1

/-- A received flit of type `t`: performed by `eff` where the link is up and the flit is good. -/
def State.spanTake (s : State) (sp : SpanPort) (fl : Flit) (t : Nat) (eff : State) : State :=
  if s.linkSt sp != linkUp then s
  else if !flitGood fl then s.badFlit sp
  else if flitType fl = t then eff else s

/-- SPAN_FLIT_RECEIVE: data flits are accepted only in SEQ order. -/
def execSpanFlitReceive (sp : SpanPort) (fl : Flit) (s : State) : Host.Outcome State Fault Refusal :=
  let x := s.spn sp
  .next (s.spanTake sp fl 0
    (if flitSeq fl = x.rxSeq && decide (vcCount x.buf (flitVc fl) < vcSize (flitVc fl)) then
      s.setSpn sp { x with rxSeq := (x.rxSeq + 1) % 4096, buf := x.buf ++ [fl] }
    else s))

/-- SPAN_CREDIT_RETURN. The counts and the acknowledgement that the flit carries are free values (Config). -/
def execSpanCreditReturn (sp : SpanPort) (fl : Flit) (s : State) : Host.Outcome State Fault Refusal :=
  let x := s.spn sp
  let t := s.setSpn sp { x with replay := x.replay.drop (Config.creditAck fl) }
  .next (s.spanTake sp fl 1
    (t.each (List.range 4) fun t vc => t.setCredit sp vc (min (vcSize vc) (t.credit sp vc + Config.creditCount fl vc))))

/-- The replay buffer from SEQ `q` on; all of it is acknowledged where `q` is the next SEQ to send. -/
def replayFrom (x : SpanSt) (q : Nat) : List Flit :=
  if q = x.txSeq then []
  else
    let l := x.replay.dropWhile fun f => flitSeq f != q
    if l.isEmpty then x.replay else l

/-- SPAN_SYNC_RECEIVE. ACK_SEQ and FREE are free values of the flit (Config). -/
def execSpanSyncReceive (sp : SpanPort) (fl : Flit) (s : State) : Host.Outcome State Fault Refusal :=
  let x := s.spn sp
  let rest := replayFrom x ((Config.syncAck fl + 1) % 4096)
  let t := s.setSpn sp { x with replay := rest, wait := false }
  let t := t.each (List.range 4) fun t vc => t.setCredit sp vc (min (vcSize vc) (Config.syncFree fl vc) - vcCount rest vc)
  .next (s.spanTake sp fl 3 (t.replayAll sp))

/-! Training (R362, R364). -/

/-- The register field of spare lanes in use. -/
def spareField (tx : Bool) : Nat × Nat := if tx then F.DIE_SPAN_STATp_SPTX else F.DIE_SPAN_STATp_SPRX

/-- The lanes of a direction. -/
def SpanSt.dir (x : SpanSt) (tx : Bool) : SpanDir := if tx then x.tx else x.rx

/-- Replace the lanes of a direction. -/
def SpanSt.setDir (x : SpanSt) (tx : Bool) (d : SpanDir) : SpanSt :=
  if tx then { x with tx := d } else { x with rx := d }

/-- Working lanes of a direction: the good data lanes and the spares in use (R364). -/
def State.lanesUp (s : State) (sp : SpanPort) (tx : Bool) : Nat :=
  let bad := ((s.spn sp).dir tx).bad
  let use := s.rdF (spanStat sp) (spareField tx)
  ((List.range 64).filter fun l => !bad.contains l).length + ((List.range 4).filter fun r => use.testBit r).length

/-- The lowest unused spare lane of a direction that has not failed. -/
def State.lowSpare (s : State) (sp : SpanPort) (tx : Bool) : Option Nat :=
  let bad := ((s.spn sp).dir tx).bad
  let use := s.rdF (spanStat sp) (spareField tx)
  (List.range 4).find? fun r => !use.testBit r && !bad.contains (64 + r)

/-- A spare lane of a direction goes into or out of use. -/
def State.setSpare (s : State) (sp : SpanPort) (tx : Bool) (r : Nat) (b : Bool) : State :=
  let f := spareField tx
  s.wrF (spanStat sp) f (bitsPut (s.rdF (spanStat sp) f) r r (bnat b))

/-- A fault record of a port: the event (0 lane replaced, 1 link degraded, 2 link down), the node, the port and a lane (R442). -/
def State.spanFault (s : State) (sp : SpanPort) (event action lane sev : Nat) : State :=
  s.faultOf 8 event 0 action 255 (spanNode sp) [spanPortNo sp, lane] sev none

/-- A lane that failed, and is in service, gives way to the lowest unused spare. -/
def State.replaceLane (s : State) (sp : SpanPort) (tx : Bool) (lane : Nat) : State :=
  let inUse := lane < 64 || (s.rdF (spanStat sp) (spareField tx)).testBit (lane - 64)
  let s := if lane < 64 then s else s.setSpare sp tx (lane - 64) false
  if !inUse then s
  else
    match s.lowSpare sp tx with
    | some r => (((s.setSpare sp tx r true).count (spanLaneCnt sp) 1)).spanFault sp 0 7 lane 2
    | none => s

/-- Take failing lanes of a direction out of service. -/
def State.failLanes (s : State) (sp : SpanPort) (tx : Bool) (ls : List (Fin 68)) : State :=
  let x := s.spn sp
  let old := (x.dir tx).bad
  let new := (ls.map (·.val)).filter fun l => !old.contains l
  let s := s.setSpn sp (x.setDir tx ⟨new.foldl (fun l n => insertLane n l) old⟩)
  s.each new fun s l => s.replaceLane sp tx l
where
  /-- Insert into a rising list. -/
  insertLane (n : Nat) (l : List Nat) : List Nat :=
    match l with
    | [] => [n]
    | y :: r => if n < y then n :: y :: r else if n = y then y :: r else y :: insertLane n r

/-- A port begins to train; replay buffer, credits and SEQ counters are kept (R362). -/
def State.retrain (s : State) (sp : SpanPort) (badTx badRx : List (Fin 68)) : State :=
  let s := (s.wrF (spanStat sp) F.DIE_SPAN_STATp_STATE linkTraining).count (spanRetrainCnt sp) 1
  (s.failLanes sp true badTx).failLanes sp false badRx

/-- The NAKs within this many nanoseconds, and how many of them make a port retrain (R362). -/
def nakWindow : Nat := 1000
def nakLimit : Nat := 16

/-- SPAN_NAK_RECEIVE: INFO names the SEQ from which the port replays; the 16th NAK within 1 µs makes it retrain. -/
def execSpanNakReceive (sp : SpanPort) (fl : Flit) (s : State) : Host.Outcome State Fault Refusal :=
  let x := s.spn sp
  let now := s.time.ns.toNat
  let l := now :: x.naks.filter fun t => decide (now < t + nakWindow)
  let y := { x with replay := replayFrom x (flitInfo fl % 4096) }
  .next (s.spanTake sp fl 2
    (if l.length < nakLimit then (s.setSpn sp { y with naks := l }).replayAll sp
    else (s.setSpn sp { y with naks := [] }).retrain sp [] []))

/-- SPAN_RETRAIN. -/
def execSpanRetrain (sp : SpanPort) (badTx badRx : List (Fin 68)) (s : State) : Host.Outcome State Fault Refusal :=
  .next (s.retrain sp badTx badRx)

/-- SPAN_LINK_TRAINED: the link comes up and its receiver sends the sync flit, or it has too few lanes and is down. -/
def execSpanLinkTrained (sp : SpanPort) (s : State) : Host.Outcome State Fault Refusal :=
  let a := spanStat sp
  let lanes := min (s.lanesUp sp true) (s.lanesUp sp false)
  let x := s.spn sp
  .next
    (if s.linkSt sp != linkTraining then s
    else if lanes < 32 then
      ((s.wrF a F.DIE_SPAN_STATp_STATE linkDown).setSpn sp { x with replay := [], detour := x.detour ++ x.replay, wait := false }).spanFault sp 2 1 0 0
    else
      let degr := decide (lanes < 64)
      let was := s.rdF a F.DIE_SPAN_STATp_DEGR
      let s := (s.wrF a F.DIE_SPAN_STATp_STATE linkUp).wrF a F.DIE_SPAN_STATp_DEGR (bnat degr)
      let s := if degr && was = 0 then s.spanFault sp 1 1 0 2 else s
      (s.setSpn sp { x with wait := true }).sendSync sp)

/-! Routing (R359, R364). -/

/-- `n` steps from die `d` through port `p`, as pairs of die and port. -/
def walk (d p n : Nat) : List (Nat × Nat) :=
  match n with
  | 0 => []
  | k + 1 => (d, p) :: walk (dieStep d p) p k

/-- The route from die `a` to node `t`: along the row first, or along the column first. -/
def gridRoute (rowFirst : Bool) (a t : Nat) : List (Nat × Nat) :=
  if 16 ≤ t then
    match t - 16 with
    | 0 => walk a 0 (a / 4 + 1)
    | 1 => walk a 1 (4 - a % 4)
    | 2 => walk a 2 (4 - a / 4)
    | _ => walk a 3 (a % 4 + 1)
  else
    let h := fun d => if d % 4 ≤ t % 4 then walk d 1 (t % 4 - d % 4) else walk d 3 (d % 4 - t % 4)
    let v := fun d => if d / 4 ≤ t / 4 then walk d 2 (t / 4 - d / 4) else walk d 0 (d / 4 - t / 4)
    if rowFirst then h a ++ v (a / 4 * 4 + t % 4) else v a ++ h (t / 4 * 4 + a % 4)

/-- Whether a port is down for want of lanes (R364). A port that has not trained yet is not. -/
def State.portLost (s : State) (sp : SpanPort) : Bool :=
  s.linkSt sp = linkDown && (decide (s.lanesUp sp true < 32) || decide (s.lanesUp sp false < 32))

/-- Whether a link of a die is down, at either of its ends. -/
def State.linkLost (s : State) (d p : Nat) : Bool :=
  match spanOfKey (4 * d + p) with
  | some sp => s.portLost sp || s.portLost (spanPeer sp)
  | none => true

/-- Whether no link of a route is down. -/
def State.routeUp (s : State) (r : List (Nat × Nat)) : Bool := r.all fun x => !s.linkLost x.1 x.2

/-- The route from die `a` to node `t`: along the row first, or in the other dimension order where a link of the first is down. -/
def State.pickRoute (s : State) (a t : Nat) : Option (List (Nat × Nat)) :=
  if s.routeUp (gridRoute true a t) then some (gridRoute true a t)
  else if t < 16 && s.routeUp (gridRoute false a t) then some (gridRoute false a t) else none

/-- The port by which die `d` forwards a flit: on the route of its source, else on a route of its own; the other dimension
order where a link of the first is down. -/
def State.nextPort (s : State) (d : Nat) (f : Flit) : Option Nat :=
  let t := flitDest f
  let on := fun (r : Option (List (Nat × Nat))) => (r.bind fun l => l.find? fun x => x.1 = d).map (·.2)
  match if flitSrc f < 16 then on (s.pickRoute (flitSrc f) t) else none with
  | some p => some p
  | none => on (s.pickRoute d t)

/-- A Span move is lost at a node (R364). -/
def State.moveLost (s : State) (n p : Nat) : State := s.fault 9 0 1 255 n [p] 0 none

/-- What becomes of a flit at a node: delivered, sent on, lost, or it waits (none). -/
def State.forward (s : State) (sp : SpanPort) (f : Flit) : Option State :=
  let n := spanNode sp
  let lost := s.moveLost n (spanPortNo sp)
  if flitDest f = n then some s
  else if 16 ≤ n || 20 ≤ flitDest f then some lost
  else
    match s.nextPort n f with
    | none => some lost
    | some p =>
      match spanOfKey (4 * n + p) with
      | none => some lost
      | some q => if s.canSend q (flitVc f) then some (s.sendFlit q f) else none

/-- The flits that await a detour at a node. -/
def State.detours (s : State) (n : Nat) : List Flit :=
  (List.range 4).flatMap fun p => (SMap.get s.span SpanSt.reset (4 * n + p)).detour

/-- The first flit of a VC leaves the receive buffer of a port, after those for its destination that await a detour (R364); its credit
returns (R361). -/
def State.drainVc (s : State) (sp : SpanPort) (vc : Nat) : State :=
  match (s.spn sp).buf.find? fun f => flitVc f = vc with
  | none => s
  | some f =>
    if (s.detours (spanNode sp)).any fun g => flitDest g = flitDest f then s
    else
      match s.forward sp f with
      | none => s
      | some t =>
        let y := t.spn sp
        let t := t.setSpn sp { y with buf := y.buf.erase f }
        if t.linkSt sp = linkUp then t.sendCredit sp vc else t

/-- The flits that await a detour from a port whose link is down are sent on, those for one destination in order (R364). -/
def State.drainDetour (s : State) (sp : SpanPort) : State :=
  let r := (s.spn sp).detour.foldl (fun (x : State × List Flit) f =>
    if x.2.any fun g => flitDest g = flitDest f then (x.1, x.2 ++ [f])
    else
      match x.1.forward sp f with
      | none => (x.1, x.2 ++ [f])
      | some t => (t, x.2)) (s, [])
  if (s.spn sp).detour.isEmpty then s else r.1.setSpn sp { r.1.spn sp with detour := r.2 }

/-- One cc of every Span port. -/
def State.spanTick (s : State) : State :=
  let ports := s.span.filterMap fun x => spanOfKey x.1
  (s.each ports State.drainDetour).each ports fun s sp =>
    if (s.spn sp).buf.isEmpty then s else s.each (List.range 4) fun s vc => s.drainVc sp vc

/-! Transfers of the module's own between dies (R22, R359, R365). -/

/-- Payload bytes of a flit. -/
def flitBytes : Nat := 64

/-- A transfer of `n` bytes from die `a` to die `b`: whole flits leave every port of its route; where no route is left it is lost, and
recorded (R364). Answers whether it arrives. -/
def State.carry (s : State) (a b n : Nat) : State × Bool :=
  if a = b || n = 0 then (s, true)
  else
    match s.pickRoute a b with
    | none => (s.moveLost a 0, false)
    | some r => (s.each r fun s x => s.count (R.DIE_SPAN_FLIT_CNTp x.1 x.2) (cdiv n flitBytes), true)

end Sys2Proof.Machine
end

