-- ==== Sys2Proof/Machine/Mem.lean ====
section
/-! DEFINITION. Memory (R310-R318, R336-R347, R355): pages, frames, the home directory, allocation with its tokens, reads
with their error checks, and writes. -/

namespace Sys2Proof.Machine

/-- Bytes of a page. -/
def pageSize : Nat := 65536

/-- The frame location of frame `f` of a cell (R313). -/
def locCell (c : CellId) (f : Nat) : Nat := c.die.val * 2 ^ 27 + c.slot.val * 2 ^ 20 + f

/-- The frame location of frame `f` of stack `n` (R313). -/
def locStack (n f : Nat) : Nat := 2 ^ 31 + n * 2 ^ 26 + f

/-- Whether a frame location lies in a stack. -/
def locIsStack (l : Nat) : Bool := 2 ^ 31 ≤ l

/-- The cell of a cell frame. -/
def locOwner (l : Nat) : Option CellId := if locIsStack l then none else mkCell (bitsOf l 30 27) (bitsOf l 26 20)

/-- The stack of a stack frame. -/
def locStackNo (l : Nat) : Nat := bitsOf l 30 26

/-- The compute die of a frame. -/
def locDie (l : Nat) : Nat := if locIsStack l then locStackNo l / 2 else bitsOf l 30 27

/-- Frames of a cell and of a stack (R311). -/
def cellFrames : Nat := 96
def stackFrames : Nat := 1048064

/-- The directory entry of a page (R312). -/
def State.ent (s : State) (pg : Nat) : DirEntry := SMap.get s.dir DirEntry.free pg

/-- Write the directory entry of a page (R314). -/
def State.setEnt (s : State) (pg : Nat) (e : DirEntry) : State := { s with dir := SMap.set s.dir DirEntry.free pg e }

/-- Whether a page is FREE. -/
def State.isFree (s : State) (pg : Nat) : Bool := (s.ent pg).st = .free

/-- Whether a page lies in a partition's rights (R310, R413). -/
def State.pageOk (s : State) (p pg : Nat) : Bool :=
  let v := s.rd (R.PART_CAP3 p)
  decide (pg < 2 ^ 26) && decide (fld v 25 0 ≤ pg) && decide (pg < fld v 25 0 + fld v 57 32)

/-- A byte range: address and length. -/
abbrev Run := Nat × Nat

/-- The pages that a byte range touches. -/
def runPages (r : Run) : List Nat :=
  if r.2 = 0 then [] else (List.range ((r.1 + r.2 - 1) / pageSize - r.1 / pageSize + 1)).map (· + r.1 / pageSize)

/-- The distinct pages that byte ranges touch, in order of first touch. -/
def pagesOf (rs : List Run) : List Nat := (rs.flatMap runPages).eraseDups

/-- Whether every page of the ranges lies in a partition's rights. -/
def State.runsOk (s : State) (p : Nat) (rs : List Run) : Bool := (pagesOf rs).all (s.pageOk p)

/-- The frame that serves an address, where its page is not FREE. -/
def State.frameOf (s : State) (a : Nat) : Option Nat :=
  let e := s.ent (a / pageSize)
  if e.st = .free then none else some e.home

/-- The byte at a tensor address; a FREE page reads as zero (R318). -/
def State.byteAt (s : State) (a : Nat) : Byte :=
  match s.frameOf a with
  | some l => SMap.get s.bytes 0 (l * pageSize + a % pageSize)
  | none => 0

/-- `n` bytes from a tensor address. -/
def State.bytesAt (s : State) (a n : Nat) : List Byte := (List.range n).map fun i => s.byteAt (a + i)

/-- The bytes of ranges, one after another. -/
def State.bytesOf (s : State) (rs : List Run) : List Byte := rs.flatMap fun r => s.bytesAt r.1 r.2

/-! Frames and tokens (R317, R327). -/

/-- Insert into a rising list. -/
def insertNat (x : Nat) (l : List Nat) : List Nat :=
  match l with
  | [] => [x]
  | y :: r => if x < y then x :: y :: r else if x = y then y :: r else y :: insertNat x r

/-- The first number from `k` that a rising list does not hold. -/
def firstGap (k : Nat) (l : List Nat) : Nat :=
  match l with
  | [] => k
  | u :: r => if u = k then firstGap (k + 1) r else if u < k then firstGap k r else k

/-- The lowest free frame of a cell. -/
def State.cellFrame (s : State) (c : CellId) : Option Nat :=
  let b := locCell c 0
  let g := firstGap b s.frames
  if g < b + cellFrames then some g else none

/-- The lowest free frame of a stack. -/
def State.stackFrame (s : State) (n : Nat) : Option Nat :=
  let b := locStack n 0
  let g := firstGap b s.frames
  if g < b + stackFrames then some g else none

/-- Tokens of a tier in use: on-chip or stack. -/
def useField (stack : Bool) : Nat × Nat := if stack then F.PART_TIER_USE_STACK else F.PART_TIER_USE_ONCHIP

/-- Whether a partition has a token of a tier free (R327). -/
def State.tokenFree (s : State) (p : Nat) (stack : Bool) : Bool :=
  s.rdF (R.PART_TIER_USE p) (useField stack) <
    s.rdF (R.PART_TIER_QUOTA p) (if stack then F.PART_TIER_QUOTA_STACK else F.PART_TIER_QUOTA_ONCHIP)

/-- Take a token for a frame and reserve the frame. -/
def State.reserve (s : State) (p l : Nat) : State :=
  let f := useField (locIsStack l)
  let s := s.wrF (R.PART_TIER_USE p) f (s.rdF (R.PART_TIER_USE p) f + 1)
  { s with frames := insertNat l s.frames }

/-- Release a frame with its token (R327). -/
def State.release (s : State) (p l : Nat) : State :=
  let f := useField (locIsStack l)
  let s := s.wrF (R.PART_TIER_USE p) f (s.rdF (R.PART_TIER_USE p) f - 1)
  { s with frames := s.frames.filter (· != l) }

/-- A frame made to hold zero everywhere. -/
def State.wipe (s : State) (l : Nat) : State :=
  { s with
    bytes := s.bytes.filter fun x => x.1 / pageSize != l
    ue := s.ue.filter fun k => k / 8192 != l
    ce := s.ce.filter fun k => k.1 / 8192 != l }

/-- Who writes: a cell's own units, a Zenith unit, or the host (R317). -/
inductive Writer where
  | cell (c : CellId)
  | zen (d : Nat)
  | host
  deriving DecidableEq, Repr

/-- The writer that a context is. -/
def writerOf : Ctx → Writer
  | .cell c => .cell c
  | .zen d _ => .zen d.val

/-- The value of PART.TIER_CFG in force (R325). -/
def State.tierCfg (s : State) (p : Nat) : W64 := SMap.get s.tiers.cfg (csrReset (R.PART_TIER_CFG p)) p

/-- The stacks that an allocation of page `pg` tries, in order (R317 step 2). -/
def stackOrder (w : Writer) (atomic : Bool) (pg : Nat) : List Nat :=
  let first := fun d => 2 * d + pg % 2
  let die := fun d => [first d, 2 * d + (pg + 1) % 2]
  let rest := fun d => if atomic then die d else die d ++ (List.range 32).map fun i => (first d + 1 + i) % 32
  match w with
  | .cell c => rest c.die.val
  | .zen d => rest d
  | .host => (List.range 32).map fun i => (pg + i) % 32

/-- The frame that an allocation of page `pg` takes (R317). -/
def State.chooseFrame (s : State) (w : Writer) (p pg : Nat) (atomic : Bool) : Option Nat :=
  let own := match w with
    | .cell c => if flag (s.tierCfg p) 2 && s.tokenFree p false then s.cellFrame c else none
    | _ => none
  match own with
  | some l => some l
  | none => if s.tokenFree p true then (stackOrder w atomic pg).findSome? s.stackFrame else none

/-- Allocate a FREE page for a writer (R317). -/
def State.allocate (s : State) (w : Writer) (p pg : Nat) (atomic : Bool) : Option State :=
  (s.chooseFrame w p pg atomic).map fun l => ((s.reserve p l).wipe l).setEnt pg ⟨.homed, p, false, false, 0, l, 0⟩

/-- Allocate every FREE page of a list, or none (R317). -/
def State.allocateAll (s : State) (w : Writer) (p : Nat) (pgs : List Nat) : Option State :=
  match pgs with
  | [] => some s
  | pg :: r =>
    if s.isFree pg then
      (match s.allocate w p pg false with
      | some s' => s'.allocateAll w p r
      | none => none)
    else s.allocateAll w p r

/-! Home cache (R315, R316). -/

/-- Whether a page is homed in a frame of the cell that reads it. -/
def State.ownPage (s : State) (c : Ctx) (pg : Nat) : Bool :=
  match c with
  | .cell k => (s.ent pg).st != .free && locOwner (s.ent pg).home = some k
  | .zen _ _ => false

/-- Whether the home cache of a die holds the entry of a page (R316). -/
def State.inHomeCache (s : State) (d pg : Nat) : Bool := (SMap.get s.tiers.hcache [] (d * 1024 + pg % 1024)).contains pg

/-! Errors (R346, R347, R355). -/

/-- The key at which a mark of the word with key `k` stands: an SRAM word has its own, a stack line has one, that of its first
word, for the code of a stack covers the line (R346, R355). -/
def markKey (k : Nat) : Nat := if locIsStack (k / 8192) then k / 8 * 8 else k

/-- The bytes that the mark at key `k` covers. -/
def markLen (k : Nat) : Nat := if locIsStack (k / 8192) then 64 else 8

/-- The marks of a list that ranges touch, each with the tensor address of the first byte that it covers. -/
def State.marked (s : State) (keys : List Nat) (rs : List Run) : List (Nat × Nat) :=
  if keys.isEmpty then []
  else (pagesOf rs).flatMap fun pg =>
    match s.frameOf (pg * pageSize) with
    | none => []
    | some l => keys.filterMap fun k =>
      let a := pg * pageSize + markKey k % 8192 * 8
      if k / 8192 = l && rs.any (fun r => decide (r.1 < a + markLen k) && decide (a < r.1 + r.2)) then some (k, a) else none

/-- Latch an error in CELL.ECC_LAST: the first while VALID = 0, an uncorrectable one over a correctable one (R347). -/
def State.eccLatch (s : State) (c : CellId) (ue : Bool) (synd off : Nat) : State :=
  let v := s.rd (R.CELL_ECC_LAST c)
  if !flag v 63 || (ue && !flag v 62) then
    s.wr (R.CELL_ECC_LAST c) (BitVec.ofNat 64 (2 ^ 63 + bnat ue * 2 ^ 62 + synd % 256 * 2 ^ 23 + off % 2 ^ 23))
  else s

/-- Bank and physical row of a cell-local offset (R336). -/
def bankOf (o : Nat) : Nat := 16 * bitsOf o 22 21 + bitsOf o 9 6
def rowOf (o : Nat) : Nat := bitsOf o 20 10 / 8

/-- The logical channel of a stack frame's byte (R354) and its physical channel (R356). -/
def chanOf (l off : Nat) : Nat := bitsOf (pageSize * bitsOf l 19 0 + off) 12 6
def State.physChan (s : State) (n ch : Nat) : Nat := fld (s.rd (R.STK_CHMAPj n (ch / 8))) (8 * (ch % 8) + 7) (8 * (ch % 8))

/-- Twenty-four hours in nanoseconds. -/
def dayNs : Nat := 86400000000000

/-- A corrected line of a stack counts in its channel; a rise of 4,096 within 24 h raises a wear record (R442). -/
def State.stackCe (s : State) (n ch : Nat) : State :=
  let s := (s.count (R.STK_ECC_CE_CNT n) 1).count (R.STK_CH_CE_CNTc n ch) 1
  let k := n * 136 + ch
  let l := s.time.ns.toNat :: (SMap.get s.wear [] k).filter fun t => decide (s.time.ns.toNat < t + dayNs)
  if l.length < 4096 then { s with wear := SMap.set s.wear [] k l }
  else ({ s with wear := SMap.set s.wear [] k [] }).fault 7 0 1 255 n [ch] 3 none

/-- One uncorrectable stack line read or scrubbed (R355). -/
def State.stackUe (s : State) (p n ch : Nat) : State :=
  (s.count (R.STK_ECC_UE_CNT n) 1).fault 5 0 1 p n [ch] 0 none

/-- One uncorrectable SRAM word read (R346). -/
def State.sramUe (s : State) (p : Nat) (c : CellId) (off : Nat) : State :=
  ((s.count (R.CELL_ECC_UE_CNT c) 1).eccLatch c true 0xFF off).fault 4 0 1 p c.die.val [c.slot.val, bankOf off, rowOf off] 0 none

/-- One corrected SRAM word read (R346). -/
def State.sramCe (s : State) (c : CellId) (synd off : Nat) : State :=
  (s.count (R.CELL_ECC_CE_CNT c) 1).eccLatch c false synd off

/-- The cell-local offset of a word key. -/
def keyOff (k : Nat) : Nat := bitsOf (k / 8192) 6 0 * pageSize + k % 8192 * 8

/-- Single-bit errors at word keys, read: an SRAM word counts and latches and is corrected in place by its write-back
(ECC_WRITEBACK); a stack line counts once and is written back corrected (R346, R355). -/
def State.correct (s : State) (ks : List Nat) : State :=
  let s := s.each (ks.filter fun k => !locIsStack (k / 8192)) fun s k =>
    match locOwner (k / 8192) with
    | some c => s.sramCe c (((s.ce.find? (·.1 = k)).map (·.2)).getD 0) (keyOff k)
    | none => s
  let lines := ((ks.filter fun k => locIsStack (k / 8192)).map fun k => k / 8).eraseDups
  s.each lines fun s ln =>
    let l := ln / 1024
    let s := s.stackCe (locStackNo l) (s.physChan (locStackNo l) (chanOf l (ln % 1024 * 64)))
    { s with ce := s.ce.filter fun x => x.1 / 8 != ln }

/-- Uncorrectable words and lines at word keys, read for partition `p`: counted, latched, recorded (R346, R355). -/
def State.spoilt (s : State) (p : Nat) (ks : List Nat) : State :=
  let s := s.each (ks.filter fun k => !locIsStack (k / 8192)) fun s k =>
    match locOwner (k / 8192) with
    | some c => s.sramUe p c (keyOff k)
    | none => s
  let lines := ((ks.filter fun k => locIsStack (k / 8192)).map fun k => k / 8).eraseDups
  s.each lines fun s ln =>
    let l := ln / 1024
    s.stackUe p (locStackNo l) (s.physChan (locStackNo l) (chanOf l (ln % 1024 * 64)))

/-- Corrections of a read of ranges. -/
def State.readCe (s : State) (rs : List Run) : State := s.correct ((s.marked (s.ce.map (·.1)) rs).map (·.1))

/-- Uncorrectable words of a read of ranges. Answers the tensor address of the first. -/
def State.readUe (s : State) (p : Nat) (rs : List Run) : State × Option Nat :=
  let hits := s.marked s.ue rs
  (s.spoilt p (hits.map (·.1)), (hits.map (·.2)).head?)

/-- The partition whose page lies in a frame, 255 where there is none. -/
def State.framePart (s : State) (l : Nat) : Nat :=
  match s.dir.find? fun e => e.2.st != .free && (e.2.home = l || (e.2.st != .homed && e.2.dest = l)) with
  | some e => e.2.owner
  | none => 255

/-! The directory in the stacks (R312), and finding a home in it (R315, R316). -/

/-- The stack that holds the entry of a page, and the entry's index in that stack's directory region (R312). -/
def dirStack (pg : Nat) : Nat := 2 * (pg % 16) + pg / 16 % 2
def dirIndex (pg : Nat) : Nat := pg / 32

/-- The first byte of the entry of a page within its stack: the directory region is the top 32 MiB, after the last frame
(R311, R312), and an entry is 16 bytes. -/
def dirOffset (pg : Nat) : Nat := stackFrames * pageSize + 16 * dirIndex pg

/-- The key of the stack line that holds the entry of a page. -/
def dirKey (pg : Nat) : Nat := locStack (dirStack pg) (dirOffset pg / pageSize) * 8192 + dirOffset pg % pageSize / 64 * 8

/-- STATE of a directory entry (R312). -/
def PageState.code : PageState → Nat
  | .free => 0
  | .homed => 1
  | .copy => 2
  | .switch => 3

/-- A directory entry as its 128 bits (Table: Home directory entry). -/
def DirEntry.word (e : DirEntry) : Nat :=
  e.st.code * 2 ^ 126 + e.owner % 64 * 2 ^ 120 + bnat e.pin * 2 ^ 119 + bnat e.spill * 2 ^ 118 + e.gen % 65536 * 2 ^ 96 +
    e.home % 2 ^ 32 * 2 ^ 64 + e.dest % 2 ^ 32 * 2 ^ 32

/-- A read of the directory entry of a page from its stack, whose code protects it (R312, R355). -/
def State.readEntry (s : State) (pg : Nat) : State :=
  let k := dirKey pg
  let own := if s.isFree pg then 255 else (s.ent pg).owner
  (s.correct ((s.ce.map (·.1)).filter fun x => markKey x = k)).spoilt own (s.ue.filter fun x => markKey x = k)

/-- One look-up of a page in the home cache of a die; a miss reads the entry from its stack. -/
def State.homeLookup (s : State) (d pg : Nat) : State :=
  let k := d * 1024 + pg % 1024
  let l := SMap.get s.tiers.hcache [] k
  let s := if l.contains pg then s.count (R.DIE_HC_HIT_CNT d) 1 else (s.count (R.DIE_HC_MISS_CNT d) 1).readEntry pg
  { s with tiers := { s.tiers with hcache := SMap.set s.tiers.hcache [] k ((pg :: l.filter (· != pg)).take 8) } }

/-- A context finds the homes of pages. -/
def State.resolve (s : State) (c : Ctx) (pgs : List Nat) : State :=
  s.each pgs fun s pg => if s.ownPage c pg then s else s.homeLookup (ctxDie c) pg

/-- A host access finds the homes of pages (R315): a Horizon die has no home cache, so that of the compute die whose stack holds
the entry is consulted (log entry 18). -/
def State.hostResolve (s : State) (pgs : List Nat) : State := s.each pgs fun s pg => s.homeLookup (dirStack pg / 2) pg

/-- Whether a page of a list is in SWITCH: its home holds every access that arrives until the commit (R319, R320). -/
def State.switching (s : State) (pgs : List Nat) : Bool := pgs.any fun pg => (s.ent pg).st = .switch

/-- The error checks of a read of ranges. -/
def State.readChecked (s : State) (p : Nat) (rs : List Run) : State × Option Nat := (s.readCe rs).readUe p rs

/-- The parts of byte ranges that lie in one page each: address and length. -/
def pageParts (rs : List Run) : List Run :=
  rs.flatMap fun r => (runPages r).map fun pg =>
    let lo := max r.1 (pg * pageSize)
    (lo, min (r.1 + r.2) (pg * pageSize + pageSize) - lo)

/-- The bytes of ranges travel between die `d` and their homes (R22): from the homes for a read, to them for a write. Answers the first
address whose part is lost. -/
def State.travel (s : State) (d : Nat) (out : Bool) (rs : List Run) : State × Option Nat :=
  (pageParts rs).foldl (fun (x : State × Option Nat) r =>
    match x.1.frameOf r.1 with
    | none => x
    | some l =>
      let y := if out then x.1.carry d (locDie l) r.2 else x.1.carry (locDie l) d r.2
      (y.1, if y.2 then x.2 else x.2.or (some r.1))) (s, none)

/-- A read of ranges by a context whose homes have been found: what is lost on its way is as data that cannot be corrected (R364). -/
def State.meshRead (s : State) (c : Ctx) (rs : List Run) : State × Option Nat :=
  let x := s.travel (ctxDie c) false rs
  let r := x.1.readChecked (s.part c) rs
  (r.1, x.2.or r.2)

/-- A unit read of a context (R318): counts each distinct FREE page, finds the homes and checks for errors. -/
def State.unitRead (s : State) (c : Ctx) (rs : List Run) : State × Option Nat :=
  let pgs := pagesOf rs
  let s := s.count (R.PART_TIER_EMPTY_CNT (s.part c)) (pgs.filter s.isFree).length
  (s.resolve c pgs).meshRead c rs

/-! Zenith streams (R223, R229, R254). -/

/-- Word `w` of directory entry `n` (R221). -/
def zdirAddr (n w : Nat) : Nat := dieBase (n / 2048) + 0x000C0000 + 128 * (n % 2048) + 8 * w

/-- The entries of a partition's directory range that are valid. -/
def State.zValid (s : State) (p : Nat) : List Nat :=
  let r := s.rd (R.PART_ZEN_RANGE p)
  ((List.range (fld r 31 16)).map (· + fld r 14 0)).filter fun n => flag (s.rd (zdirAddr n 0)) 63

/-- Bytes of a packed array of `n` elements of `w` bits. -/
def packedBytes (n w : Nat) : Nat := (n * w + 7) / 8

/-- The G stream of a directory entry. -/
def State.gStream (s : State) (n : Nat) : Run :=
  let c := s.rd (zdirAddr n 0)
  (fld (s.rd (zdirAddr n 4)) 47 0, fld c 16 0 * (if flag c 60 then 8 else 4))

/-- The sealed ranges of a partition: the G streams of its valid entries while a step runs (R229). -/
def State.sealedRuns (s : State) (p : Nat) : List Run :=
  if s.rdF (R.PART_ZEN_STAT p) F.PART_ZEN_STAT_PHASE = 0 then [] else (s.zValid p).map s.gStream

/-- Whether bytes [a, a + n) meet one of the ranges. -/
def meetsRuns (rs : List Run) (a n : Nat) : Bool := rs.any fun r => decide (r.1 < a + n) && decide (a < r.1 + r.2)

/-- Whether address `a` lies in one of the ranges. -/
def inRuns (rs : List Run) (a : Nat) : Bool := rs.any fun r => decide (r.1 ≤ a) && decide (a < r.1 + r.2)

/-- A write that the seal refuses: counted, and CONS is raised (R229). -/
def State.sealRefuse (s : State) (p : Nat) : State := (s.count (R.PART_ZEN_SEAL_CNT p) 1).raise p vCONS

/-- The streams W, M and V of a directory entry, in which uncorrectable data poisons the partition (R254). -/
def State.wmvStreams (s : State) (n : Nat) : List Run :=
  let c := s.rd (zdirAddr n 0)
  let t : Tabs := ⟨0, 0, 0, 0, 0, 0⟩
  let st := fun (f w : Nat) => if f = 0x3F then [] else [(fld (s.rd (zdirAddr n w)) 47 0, packedBytes (fld c 16 0) (fmtWidth t f))]
  st (fld c 59 54) 1 ++ st (fld c 53 48) 2 ++ st (fld c 47 42) 3

/-- Uncorrectable data at address `a` met an operation of partition `p` (R254): UNC, and the poisoned page latches. -/
def State.uncorrectable (s : State) (p a : Nat) : State :=
  let s := s.raise p vUNC
  let pg : Run := (a / pageSize * pageSize, pageSize)
  let hit := (s.zValid p).any fun n => (s.wmvStreams n).any fun r => decide (r.1 < pg.1 + pg.2) && decide (pg.1 < r.1 + r.2)
  if hit && !flag (s.rd (R.PART_VRD_UNC p)) 63 then s.wr (R.PART_VRD_UNC p) (BitVec.ofNat 64 (2 ^ 63 + pg.1 % 2 ^ 48)) else s

/-! Writes. -/

/-- The canonical form of the bytes of the frames: addresses strictly rising, and no entry that is 0, which is what an unlisted
byte reads as. Equal memories are equal data. -/
def Memory.wf (m : SMap Byte) : Bool := SMap.wf m fun _ => 0

/-- Store one byte at its home. -/
def State.poke (s : State) (a : Nat) (b : Byte) : State :=
  match s.frameOf a with
  | some l => { s with bytes := SMap.set s.bytes 0 (l * pageSize + a % pageSize) b }
  | none => s

/-- Store bytes one after another from address `a`. -/
def State.pokes (s : State) (a : Nat) (bs : List Byte) : State :=
  match bs with
  | [] => s
  | b :: r => (s.poke a b).pokes (a + 1) r

/-- The key under which the engine of a die counts the bytes written to a page. -/
def windowKey (d pg : Nat) : Nat := d * 2 ^ 26 + pg

/-- The engine of die `d` counts `n` bytes that logical cell `l` writes to a page in the home cache on its die (R325). -/
def State.windowWrite (s : State) (d pg l n : Nat) : State :=
  if s.inHomeCache d pg then
    let m := SMap.get s.tiers.wbytes [] (windowKey d pg)
    { s with tiers := { s.tiers with
      wbytes := SMap.set s.tiers.wbytes [] (windowKey d pg) (SMap.set m 0 l (SMap.get m 0 l + n)) } }
  else s

/-- `n` bytes written to a page count in the windows where a cell wrote them (R325). -/
def State.windowNote (s : State) (w : Writer) (pg n : Nat) : State :=
  match w with
  | .cell c => s.each (List.range 16) fun s d => s.windowWrite d pg (s.logical c) n
  | _ => s

/-- Lines of a page join its dirty map (R319). -/
def State.addDirty (s : State) (pg : Nat) (ls : List Nat) : State :=
  let mv := SMap.get s.tiers.moves ⟨0, []⟩ pg
  { s with tiers := { s.tiers with moves := SMap.insert s.tiers.moves pg { mv with dirty := (mv.dirty ++ ls).eraseDups } } }

/-- The lines of bytes [lo, hi) of a page in COPY or SWITCH are dirty (R319). -/
def State.dirtyPage (s : State) (pg lo hi : Nat) : State :=
  if (s.ent pg).st = .copy || (s.ent pg).st = .switch then
    s.addDirty pg ((List.range ((hi - 1) / 64 - lo / 64 + 1)).map fun i => (lo / 64 + i) % 1024)
  else s

/-- What a write of a range leaves on its pages: bytes in the window (R325), dirty lines (R319). -/
def State.noteWrite (s : State) (w : Writer) (r : Run) : State :=
  s.each (runPages r) fun s pg =>
    let lo := max r.1 (pg * pageSize)
    let hi := min (r.1 + r.2) (pg * pageSize + pageSize)
    (s.windowNote w pg (hi - lo)).dirtyPage pg lo hi

/-- A write to marked words: an SRAM word wholly covered, or a stack line wholly covered, is good again; a corrected word
is good after any write. -/
def State.clearMarks (s : State) (r : Run) : State :=
  if s.ue.isEmpty && s.ce.isEmpty then s
  else
    let ueHits := s.marked s.ue [r]
    let ceHits := (s.marked (s.ce.map (·.1)) [r]).map (·.1)
    let whole := ueHits.filter fun h =>
      if locIsStack (h.1 / 8192) then decide (r.1 ≤ h.2 / 64 * 64) && decide (h.2 / 64 * 64 + 64 ≤ r.1 + r.2)
      else decide (r.1 ≤ h.2) && decide (h.2 + 8 ≤ r.1 + r.2)
    { s with
      ue := s.ue.filter fun k => !(whole.map (·.1)).contains k
      ce := s.ce.filter fun k => !ceHits.contains k.1 }

/-- The SRAM words, still uncorrectable, that a write covers in part: it is not performed there (R346). -/
def State.partWords (s : State) (r : Run) : List (Nat × Nat) :=
  (s.marked s.ue [r]).filter fun h => !locIsStack (h.1 / 8192)

/-- Write the bytes of one range whose pages are allocated, without the seal. -/
def State.writeOpen (s : State) (w : Writer) (a : Nat) (bs : List Byte) : State :=
  let r : Run := (a, bs.length)
  let s := s.clearMarks r
  let bad := s.partWords r
  let s := s.each bad fun s h =>
    match locOwner (h.1 / 8192) with
    | some c => s.count (R.CELL_ECC_UE_CNT c) 1
    | none => s
  let s :=
    if bad.isEmpty then s.pokes a bs
    else s.each (List.range bs.length) fun s i =>
      if bad.any fun h => decide (h.2 ≤ a + i) && decide (a + i < h.2 + 8) then s else s.poke (a + i) (bs.getD i 0)
  s.noteWrite w r

/-- Write the bytes of one range whose pages are allocated: bytes that the seal covers are refused (R229). -/
def State.write (s : State) (w : Writer) (p a : Nat) (bs : List Byte) : State :=
  let sl := s.sealedRuns p
  if sl.any fun r => decide (r.1 < a + bs.length) && decide (a < r.1 + r.2) then
    (s.each (List.range bs.length) fun s i =>
      if inRuns sl (a + i) then s else s.writeOpen w (a + i) [bs.getD i 0]).sealRefuse p
  else s.writeOpen w a bs

/-- The die from which a writer's bytes come over the mesh of the panel. -/
def writerDie : Writer → Option Nat
  | .cell c => some c.die.val
  | .zen d => some d
  | .host => none

/-- A write of one range that travels to its home: one that is lost on its way is not performed, and its partition acts as on data that
cannot be corrected (R364). -/
def State.sendWrite (s : State) (w : Writer) (p a : Nat) (bs : List Byte) : State :=
  match writerDie w with
  | none => s.write w p a bs
  | some d =>
    let x := s.travel d true [(a, bs.length)]
    match x.2 with
    | some q => x.1.uncorrectable p q
    | none => x.1.write w p a bs

/-- Write a byte list over ranges in order. -/
def State.writeRuns (s : State) (w : Writer) (p : Nat) (rs : List Run) (bs : List Byte) : State :=
  match rs with
  | [] => s
  | r :: rest => (s.sendWrite w p r.1 (bs.take r.2)).writeRuns w p rest (bs.drop r.2)

end Sys2Proof.Machine
end

