-- ==== Sys2Proof/Machine/Operands.lean ====
section
/-! DEFINITION. Operands: tensor descriptors (R271-R273), the regions and elements they name (R48, R49, R130), block
scales (R76-R78), tiles (R189) and the operand forms of vector and scalar instructions (R195, R293). -/

namespace Sys2Proof.Machine

/-- The fields of a descriptor (R271), with extent 0 as R272 gives it. -/
structure DescV where
  base : Nat
  fmt  : Nat
  trn  : Bool
  swz  : Nat
  sdi  : Nat
  e0   : Nat
  e1   : Nat
  e2   : Nat
  e3   : Nat
  e0max : Bool
  raw0 : Nat
  grp  : Nat
  s1   : Nat
  s2   : Nat
  s3   : Nat
  rsv  : Bool
  deriving DecidableEq, Repr

/-- The fields of a 256-bit descriptor. -/
def descV (d : Desc) : DescV :=
  let b := d.toNat
  let mx := bitsOf b 124 124 = 1
  { base := bitsOf b 47 0, fmt := bitsOf b 53 48, trn := bitsOf b 54 54 = 1, swz := bitsOf b 57 55, sdi := bitsOf b 61 58,
    e0 := if mx then 2 ^ 20 else bitsOf b 83 64, e1 := bitsOf b 103 84, e2 := bitsOf b 123 104, e3 := bitsOf b 147 128,
    e0max := mx, raw0 := bitsOf b 83 64, grp := bitsOf b 155 148, s1 := bitsOf b 191 160, s2 := bitsOf b 223 192,
    s3 := bitsOf b 255 224,
    rsv := bitsOf b 63 62 = 0 && bitsOf b 127 125 = 0 && bitsOf b 159 156 = 0 }

/-- Swizzle step v of an SWZ code, 0 for none (R129). -/
def swzStep (k : Nat) : Nat := if k = 0 then 0 else 2 ^ (k - 1)

/-- Where logical byte `b` of row `r` lies within the row (R130). -/
def phys (v b r : Nat) : Nat := b ^^^ ((r * v % 16) * 64)

/-- A row of a descriptor: its indices and its first byte. -/
structure Row where
  i1 : Nat
  i2 : Nat
  i3 : Nat
  deriving DecidableEq, Repr

/-- The rows of a descriptor, innermost extent fastest. -/
def DescV.rows (d : DescV) : List Row :=
  (List.range d.e3).flatMap fun k => (List.range d.e2).flatMap fun j => (List.range d.e1).map fun i => ⟨i, j, k⟩

/-- First byte of a row (R272). -/
def DescV.rowAt (d : DescV) (r : Row) : Nat := d.base + r.i1 * d.s1 + r.i2 * d.s2 + r.i3 * d.s3

/-- Bytes of a row, its padding bits included (R49). -/
def DescV.rowBytes (d : DescV) (t : Tabs) : Nat := packedBytes d.e0 (fmtWidth t d.fmt)

/-- The byte ranges of bytes [lo, lo + n) of a row, in logical order (R130). -/
def DescV.rowPart (d : DescV) (r : Row) (lo n : Nat) : List Run :=
  let v := swzStep d.swz
  let a := d.rowAt r
  if n = 0 then []
  else if v = 0 then [(a + lo, n)]
  else
    (List.range ((lo + n - 1) / 64 - lo / 64 + 1)).map fun i =>
      let b := max lo ((lo / 64 + i) * 64)
      let e := min (lo + n) ((lo / 64 + i) * 64 + 64)
      (a + phys v b r.i1, e - b)

/-- The byte ranges of a whole row. -/
def DescV.rowRuns (d : DescV) (t : Tabs) (r : Row) : List Run := d.rowPart r 0 (d.rowBytes t)

/-- The byte ranges of a region. -/
def DescV.runs (d : DescV) (t : Tabs) : List Run := d.rows.flatMap (d.rowRuns t)

/-- Element `j` of a packed row of `w`-bit elements (R48). -/
def elemOf (w : Nat) (bs : List Byte) (j : Nat) : Nat :=
  leNat ((bs.drop (w * j / 8)).take ((w + 14) / 8)) / 2 ^ (w * j % 8) % 2 ^ w

/-- Pack elements of `w` bits into bytes, the padding bits 0 (R48, R49). -/
def packElems (w : Nat) (es : List Nat) : List Byte :=
  leBytes (packedBytes es.length w) (es.foldr (fun e acc => e % 2 ^ w + 2 ^ w * acc) 0)

/-- The stored bits of element `j` of a row. -/
def State.elemBits (s : State) (t : Tabs) (d : DescV) (r : Row) (j : Nat) : Nat :=
  let w := fmtWidth t d.fmt
  let lo := w * j / 8
  let n := (w * j + w + 7) / 8 - lo
  leNat (s.bytesOf (d.rowPart r lo n)) / 2 ^ (w * j % 8) % 2 ^ w

/-- The stored bits of the elements of a row, first first. -/
def State.rowElems (s : State) (t : Tabs) (d : DescV) (r : Row) : List Nat :=
  let bs := s.bytesOf (d.rowRuns t r)
  (List.range d.e0).map (elemOf (fmtWidth t d.fmt) bs)

/-! Block scales (R76-R78). -/

/-- The group of a descriptor. -/
def DescV.group (d : DescV) : Grp := Grp.ofCode d.grp

/-- Whether a descriptor has a scale tensor. -/
def DescV.scaled (d : DescV) : Bool := d.group.gsize != 0

/-- The scale element that serves element (j, i1) of a row: its index along and its row in the scale tensor (R78). -/
def DescV.scaleIx (d : DescV) (r : Row) (j : Nat) : Nat × Nat :=
  let g := d.group
  if g.dir then (r.i1 / g.g, j / g.s) else (j / g.g, r.i1 / g.s)

/-- The byte range of a scale byte of `d` in its scale tensor `ds` (R78). -/
def DescV.scaleRun (d ds : DescV) (r : Row) (j : Nat) : Run :=
  let ix := d.scaleIx r j
  let sr : Row := ⟨ix.2, if ds.e2 = 1 then 0 else r.i2, if ds.e3 = 1 then 0 else r.i3⟩
  ((ds.rowPart sr ix.1 1).headD (0, 0)).1 |> (·, 1)

/-- The distinct scale bytes that a region uses. -/
def DescV.scaleRuns (d ds : DescV) : List Run :=
  if d.scaled then
    let g := d.group
    (d.rows.flatMap fun r =>
      if g.dir then (if r.i1 % g.g = 0 then (List.range (cdiv d.e0 g.s)).map fun b => d.scaleRun ds r (b * g.s) else [])
      else (if r.i1 % g.s = 0 then (List.range (cdiv d.e0 g.g)).map fun b => d.scaleRun ds r (b * g.g) else []))
  else []

/-- The scale byte of element `j` of a row; 127 (exponent 0) without a scale tensor. -/
def State.scaleByte (s : State) (d ds : DescV) (r : Row) (j : Nat) : Nat :=
  if d.scaled then (s.byteAt (d.scaleRun ds r j).1).toNat else 127

/-- The exponent of a scale byte (R47). -/
def sgrp (b : Nat) : Int := (b : Int) - 127

/-- The value of stored bits under a scale byte: x × 2^s_grp, NaN where the scale is NaN (R47, R64, R72). -/
def scaledVal (t : Tabs) (f bits scale : Nat) : Val :=
  if scale = 255 then .nan else (elemVal t f bits).scale (sgrp scale)

/-! Checks (R273). -/

/-- Whether two different rows of a region share a bit (R273). -/
def DescV.overlaps (d : DescV) (t : Tabs) : Bool :=
  let w := fmtWidth t d.fmt
  if swzStep d.swz = 0 then
    let rng := fun (n : Nat) => (List.range (2 * n - 1)).map fun (i : Nat) => (i : Int) - (n - 1 : Nat)
    (rng d.e3).any fun k => (rng d.e2).any fun j => (rng d.e1).any fun i =>
      !(k = 0 && j = 0 && i = 0) && decide (8 * (i * d.s1 + j * d.s2 + k * d.s3).natAbs < w * d.e0)
  else
    let rs := d.rows
    rs.any fun a => rs.any fun b =>
      a != b && (d.rowRuns t a).any fun x => (d.rowRuns t b).any fun y =>
        decide (x.1 < y.1 + y.2) && decide (y.1 < x.1 + x.2)

/-- Alignment of BASE and of the strides in use, for a format of 16 bits or more (R273). -/
def DescV.aligned (d : DescV) (t : Tabs) : Bool :=
  let w := fmtWidth t d.fmt
  if w < 16 then true
  else
    let b := w / 8
    d.base % b = 0 && (d.e1 ≤ 1 || d.s1 % b = 0) && (d.e2 ≤ 1 || d.s2 % b = 0) && (d.e3 ≤ 1 || d.s3 % b = 0)

/-- What an instruction permits of a descriptor. -/
structure Permit where
  fmt   : Nat → Bool
  lim0  : Nat
  lim1  : Nat
  plane : Bool
  scale : Bool
  dest  : Bool

/-- No extent is 0, and EXT0 is 0 where E0MAX is 1 (R272, R273). -/
def DescV.extentsSet (d : DescV) : Bool :=
  d.e0 != 0 && d.e1 != 0 && d.e2 != 0 && d.e3 != 0 && (!d.e0max || d.raw0 = 0)

/-- Extents within their limits and not 0 (R273). -/
def DescV.extentsOk (d : DescV) (q : Permit) : Bool :=
  d.extentsSet && d.e0 ≤ q.lim0 && d.e1 ≤ q.lim1 && (q.plane || (d.e2 = 1 && d.e3 = 1))

/-- SWZ under R129. -/
def DescV.swzOk (d : DescV) : Bool := d.swz < 4 && (d.swz = 0 || d.s1 % 1024 = 0)

/-- GRP and the scale tensor's descriptor under R77. -/
def DescV.groupOk (d ds : DescV) : Bool :=
  let g := d.group
  g.codeOk && (g.gsize = 0 ||
    (let along := if g.dir then d.e1 else d.e0
     let across := if g.dir then d.e0 else d.e1
     ds.fmt = fmtE8M0 && decide (cdiv along g.g ≤ ds.e0) && decide (cdiv across g.s ≤ ds.e1) &&
       (ds.e2 = 1 || ds.e2 = d.e2) && (ds.e3 = 1 || ds.e3 = d.e3)))

/-- Whether a descriptor, and the descriptor of its scale tensor where the instruction uses one (`q.scale`), pass the checks of
R273 on their own fields. -/
def DescV.formOk (d ds : DescV) (t : Tabs) (q : Permit) : Bool :=
  d.rsv && fmtAssigned d.fmt && q.fmt d.fmt && d.extentsOk q && d.aligned t && d.swzOk && d.groupOk ds &&
    !(q.dest && d.overlaps t) &&
    (!(q.scale && d.scaled) || (ds.rsv && ds.extentsSet && ds.swzOk && !(q.dest && ds.overlaps t)))

/-- The lowest cause that a descriptor fails with at acceptance (R273, R287): 3 for its fields, 4 for rights. `q.scale`
false: the instruction does not use the scale tensor. -/
def State.descFail (s : State) (p : Nat) (t : Tabs) (q : Permit) (d ds : DescV) : Option Nat :=
  if !d.formOk ds t q then some 3
  else if !s.runsOk p (d.runs t) then some 4
  else if q.scale && d.scaled && !s.runsOk p (d.scaleRuns ds) then some 4
  else none

/-- The lowest of several failing causes. -/
def lowest (l : List (Option Nat)) : Option Nat :=
  l.foldl (fun a b => match a, b with
    | some x, some y => some (min x y)
    | some x, none => some x
    | none, y => y) none

/-- A check that fails with cause `k`. -/
def failIf (b : Bool) (k : Nat) : Option Nat := if b then some k else none

/-- A write whose pages cannot all be allocated (R317). -/
def State.quotaFail (s : State) (c : Ctx) (rs : List Run) : Option Nat :=
  failIf (s.allocateAll (writerOf c) (s.part c) (pagesOf rs)).isNone 5

/-! Tiles (R189). -/

/-- An empty tile: 1,024 elements of +0. -/
def tileZero : List F32 := List.replicate 1024 0

/-- Tile `k` of a context. -/
def CellCtx.tile (x : CellCtx) (k : Nat) : List F32 := SMap.get x.tiles tileZero k

/-- Write a tile. -/
def CellCtx.setTile (x : CellCtx) (k : Nat) (t : List F32) : CellCtx := { x with tiles := SMap.set x.tiles tileZero k t }

/-- Element (i, j) of a tile. -/
def tileAt (t : List F32) (i j : Nat) : F32 := t.getD (32 * i + j) 0

/-- A tile from its elements. -/
def tileOf (f : Nat → Nat → F32) : List F32 := (List.range 1024).map fun k => f (k / 32) (k % 32)

/-- Element (i, j) of vector operand B or C (R195). -/
def vecOperand (x : CellCtx) (r : RegFile) (src idx i j : Nat) : F32 :=
  if src = 3 then BitVec.ofNat 32 (r.getS idx).toNat
  else
    let t := x.tile (idx % 8)
    if src = 0 then tileAt t i j else if src = 1 then tileAt t 0 j else tileAt t i 0

/-- The byte address of a mov instruction that addresses through a scalar (R296). -/
def movAddr (r : RegFile) (ra : Nat) (imm : W64) : Nat := ((r.getS ra).toNat + imm.toNat) % 2 ^ 48

/-- Operand b of an integer scalar instruction (R293). -/
def scalB (r : RegFile) (rb : Nat) (imm : W64) : W64 := if rb = 0 then imm else r.getS rb

end Sys2Proof.Machine
end

