-- ==== Sys2Proof/Machine/Alm.lean ====
section
/-! DEFINITION. The slots of the Almanac as passes use them (R163-R170, R175): their words, the tensor scale and the
reports of a retiring pass. -/

namespace Sys2Proof.Machine

/-- CSR address of word `w` of slot `n` (R164). -/
def almAddr (n w : Nat) : Nat := dieBase (n / 1024) + 0x00080000 + 128 * (n % 1024) + 8 * w

/-- The Almanac of a partition. -/
def State.almOf (s : State) (p : Nat) : AlmSt := SMap.get s.alm AlmSt.reset p

/-- Replace the Almanac of a partition. -/
def State.setAlm (s : State) (p : Nat) (x : AlmSt) : State := { s with alm := SMap.set s.alm AlmSt.reset p x }

/-- Word `w` of slot `n`. -/
def State.slotW (s : State) (n w : Nat) : W64 := s.rd (almAddr n w)

/-- The word 8 of slot `n` in force: a pending write has not taken effect (R167). -/
def State.confOf (s : State) (p n : Nat) : W64 := (SMap.get (s.almOf p).conf none n).getD (s.slotW n 8)

/-- The slots of a partition's range (R165). -/
def State.almBase (s : State) (p : Nat) : Nat := s.rdF (R.PART_ALM_RANGE p) F.PART_ALM_RANGE_BASE
def State.almCount (s : State) (p : Nat) : Nat := s.rdF (R.PART_ALM_RANGE p) F.PART_ALM_RANGE_COUNT
def State.almSlots (s : State) (p : Nat) : List Nat := (List.range (s.almCount p)).map (· + s.almBase p)

/-- The slots of a partition's range that are valid. -/
def State.validSlots (s : State) (p : Nat) : List Nat := (s.almSlots p).filter fun n => flag (s.confOf p n) 63

/-- History entry `i` of a slot (R166). -/
def State.histAt (s : State) (n i : Nat) : F32 :=
  BitVec.ofNat 32 (fld (s.slotW n (i % 16 / 2)) (32 * (i % 2) + 31) (32 * (i % 2)))

/-- The magnitude that FP32 bits hold. -/
def f32Mag (b : F32) : Dy :=
  match f32Val b with
  | .fin d => d.abs
  | _ => ⟨0, 0⟩

/-- The largest of the newest min(WIN + 1, HCNT) history entries; none without an entry (R175). -/
def State.histMax (s : State) (p n : Nat) : Option Dy :=
  let st := s.slotW n 9
  let k := min (fld (s.confOf p n) 48 45 + 1) (fld st 11 7)
  if fld st 11 7 = 0 then none
  else some ((List.range k).foldl (fun a i => a.max2 (f32Mag (s.histAt n (fld st 15 12 + 16 - i)))) ⟨0, 0⟩)

/-- tensor_scale of R175: `a` the largest amax, `hx` the headroom H + XH, `cur` the slot's exponent. -/
def tensorScale (t : Tabs) (f hx : Nat) (a : Option Dy) (cur : Int) : Int :=
  if f = fmtBF16 || f = fmtFP32 || f = fmtFP64 then 0
  else match a with
    | none => cur
    | some a => if a.m = 0 then cur else chooseScale (a.scale hx) (maxfinite t f)

/-- An exact magnitude held in FP32: an amax beyond the range is held as the largest finite value (R170). -/
def amaxF32 (a : Dy) : F32 := BitVec.ofNat 32 (toF32 false a.toXR).bits

/-- A field that saturates at its largest value (R166). -/
def satField (v : W64) (hi lo n : Nat) : W64 := fldPut v hi lo (min (fld v hi lo + n) (2 ^ (hi + 1 - lo) - 1))

/-- Take an amax into a field by maximum. -/
def maxField (v : W64) (hi lo : Nat) (a : F32) : W64 :=
  if (f32Mag (BitVec.ofNat 32 (fld v hi lo))).lt (f32Mag a) then fldPut v hi lo a.toNat else v

/-- A report enters the step that words 10 to 12 show (R170). -/
def State.repNow (s : State) (n : Nat) (r : AlmRep) : State :=
  let s := s.wr (almAddr n 10) (maxField (s.slotW n 10) 63 32 (BitVec.ofNat 32 r.amax))
  let s := s.wr (almAddr n 11) (satField (satField (s.slotW n 11) 63 32 r.sat) 31 0 r.shed)
  s.wr (almAddr n 12) (satField (satField (s.slotW n 12) 63 24 r.conv) 23 0 r.outl)

/-- What a pass reports to a slot (R170). -/
structure PassRep where
  slot  : Nat
  amax  : Dy
  conv  : Nat
  sat   : Nat
  ovf   : Nat
  outl  : Nat
  promo : Nat
  shed  : Nat
  wide  : Bool

/-- A report of a pass of step `step` reaches its slot (R170, R171, R173). -/
def State.report (s : State) (p step : Nat) (x : PassRep) : State :=
  let n := x.slot
  let s := s.wr (almAddr n 13) (satField (satField (s.slotW n 13) 63 32 x.sat) 31 0 x.ovf)
  let s := s.wr (almAddr n 14) (satField (satField (s.slotW n 14) 63 32 x.shed) 31 0 x.outl)
  let s := s.wr (almAddr n 15) (satField (satField (s.slotW n 15) 63 32 x.promo) 31 0 (bnat x.wide))
  let r : AlmRep := ⟨n, step, (amaxF32 x.amax).toNat, x.conv, x.sat + x.ovf, x.outl, x.shed⟩
  let s := s.wrF (R.PART_ALM_STEP p) F.PART_ALM_STEP_OPEN 1
  let a := s.almOf p
  if step = a.closed then s.repNow n r else s.setAlm p { a with held := a.held ++ [r] }

end Sys2Proof.Machine
end

