-- ==== Sys2Proof/Machine/Conv.lean ====
section
/-! DEFINITION. The quantising load path of array passes (R72-R96): operands by line, composed exponents, conversion,
outlier decisions, and what the pre-scan fixes. -/

namespace Sys2Proof.Machine

/-- Format A with every field 0. -/
def fmtA0 : FmtA := ⟨0, 0, 0, 0, 0, 0⟩

/-- The operand area of an array instruction. -/
def arrFields (i : Instr) : FmtA :=
  match i with
  | .duskMm _ _ f | .dawnMm _ _ f | .dawnMmt _ _ f => f
  | _ => fmtA0

/-- Operand A (false) or B (true) of an array instruction: its descriptor and its scale descriptor. -/
def arrDesc (j : Job) (b : Bool) : DescV :=
  let f := arrFields j.ins
  descV (j.regs.getD (if b then f.db else f.da).val)
def arrScale (j : Job) (b : Bool) : DescV := descV (j.regs.getD (arrDesc j b).sdi)

/-- Lines and reduction length of an operand (R101, R124). -/
def DescV.lines (d : DescV) : Nat := if d.trn then d.e0 else d.e1
def DescV.red (d : DescV) : Nat := if d.trn then d.e1 else d.e0

/-- Block length along the reduction (R79). -/
def DescV.redBlock (d : DescV) : Nat :=
  if d.scaled then (if d.group.dir = d.trn then d.group.g else d.group.s) else 128

/-- Lengths of the rescale intervals of a reduction from index `k` on (R79). -/
def intervals (fuel k n ba bb : Nat) : List Nat :=
  match fuel with
  | 0 => []
  | m + 1 =>
    if n ≤ k then []
    else
      let e := min n (min ((k / ba + 1) * ba) ((k / bb + 1) * bb))
      (e - k) :: intervals m e n ba bb

/-- The rescale intervals of a pass. -/
def passIntervals (j : Job) : List Nat :=
  let a := arrDesc j false
  intervals a.red 0 a.red a.redBlock (arrDesc j true).redBlock

/-- Cut a list into pieces of the given lengths. -/
def cutBy {α : Type} (lens : List Nat) (l : List α) : List (List α) :=
  match lens with
  | [] => []
  | n :: r => l.take n :: cutBy r (l.drop n)

/-- The stored elements of an operand with their scale bytes, line by line along the reduction. -/
def State.opLines (s : State) (t : Tabs) (d ds : DescV) : List (List (Nat × Nat)) :=
  let rows := (List.range d.e1).map fun i =>
    let r : Row := ⟨i, 0, 0⟩
    (s.rowElems t d r).zipIdx.map fun x => (x.1, s.scaleByte d ds r x.2)
  if d.trn then (List.range d.e0).map fun l => rows.map fun r => r.getD l (0, 127) else rows

/-- The value that a stored element has (R72): NaN under a NaN scale (R64). -/
def rawVal (t : Tabs) (f : Nat) (x : Nat × Nat) : Val := if x.2 = 255 then .nan else elemVal t f x.1

/-- The composed exponent of R73 and whether the clamp of R74 applied. -/
def composeE (stns srow : Int) (sc : Nat) : Int × Bool :=
  let r := sgrp sc + stns + srow
  let e := min (max r (-127)) 127
  (e, sc != 255 && r != e)

/-- How a pass converts one operand: tables, overflow mode, stored format, operand format of the narrow pass, whether
the tile is wide, ROWSCALE, the outlier controls, whether the mode is INT32-compatible and the class D; `flat` leaves no exponent outside
the converted value (R430). -/
structure OpCtl where
  t    : Tabs
  ovf  : Bool
  src  : Nat
  fmt  : Nat
  wide : Bool
  row  : Bool
  on   : Bool
  othr : Nat
  int  : Bool
  dcls : Bool
  flat : Bool

/-- The operand format in use. -/
def OpCtl.tgt (c : OpCtl) : Nat := if c.wide then fmtBF16 else c.fmt

/-- Whether the converter passes an element through unchanged (R75). -/
def OpCtl.through (c : OpCtl) (tgt : Nat) (stns : Int) (clamp : Bool) : Bool :=
  c.src = tgt && stns = 0 && !c.row && !clamp && !c.flat

/-- The row scale of a line (R82, R84). -/
def OpCtl.srow (c : OpCtl) (l : List (Nat × Nat)) : Int :=
  if c.row then chooseScale (amaxOf (l.map (rawVal c.t c.src))) (maxfinite c.t c.fmt) else 0

/-- Whether an element is an outlier (R92, R93). -/
def OpCtl.isOutlier (c : OpCtl) (stns srow : Int) (x : Nat × Nat) : Bool :=
  let e := composeE stns srow x.2
  c.on && isNarrow8 c.fmt && !c.int && !c.wide && !c.through c.fmt stns e.2 &&
    (match rawVal c.t c.src x with
    | .fin d => ((maxfinite c.t c.fmt).scale (-(c.othr : Int))).lt ((d.scale (sgrp x.2 - e.1)).abs)
    | _ => false)

/-- The outlier decisions of a line's groups of 128 (R93). -/
def OpCtl.groups (c : OpCtl) (stns srow : Int) (l : List (Nat × Nat)) : List Grp128 :=
  (chunks 128 l.length l.zipIdx).map fun g =>
    let ks := (g.filter fun x => c.isOutlier stns srow x.1).map (·.2)
    if ks.isEmpty then .plain else if ks.length ≤ 4 then .divert ks else .promote

/-- Whether a decision takes element `k` off the narrow lanes. -/
def Grp128.takes (g : Grp128) (k : Nat) : Bool :=
  match g with
  | .plain => false
  | .divert ks => ks.contains k
  | .promote => true

/-- Entries of the outlier table that a decision takes (R95). -/
def Grp128.entries : Grp128 → Nat
  | .plain => 0
  | .divert ks => ks.length
  | .promote => 32

/-- An operand element as the array receives it: the value it carries, its exponent, the format and bits that carry it,
the stored element, what its conversion counts, whether it went through the outlier table, and whether it was a NaN operand of the
converter (R64). -/
structure QEl where
  v    : Val
  e    : Int
  fmt  : Nat
  bits : Nat
  raw  : Nat × Nat
  sat  : Nat
  ovf  : Nat
  outl : Bool
  nan  : Bool

/-- Convert one element (R73, R93-R95, R430). In the INT32-compatible mode a NaN enters as the 0 or the code that R64 gives. -/
def OpCtl.conv (c : OpCtl) (stns srow : Int) (off : Bool) (x : Nat × Nat) : QEl :=
  let e := if c.flat then (0, false) else composeE stns srow x.2
  let v := rawVal c.t c.src x
  let f := if off then fmtBF16 else c.tgt
  if !off && c.through c.tgt stns e.2 then ⟨v, e.1, f, x.1, x, 0, 0, false, v.isNan⟩
  else
    let r := convert c.t c.ovf f (v.scale (sgrp x.2 - e.1)).toXR
    ⟨if v.isNan && !c.int then .nan else elemVal c.t f r.bits, e.1, f, r.bits, x, r.sat, r.ovf, off, v.isNan⟩

/-- Convert a line under its decisions. -/
def OpCtl.line (c : OpCtl) (stns srow : Int) (gs : List Grp128) (l : List (Nat × Nat)) : List QEl :=
  ((chunks 128 l.length l.zipIdx).zip gs).flatMap fun g => g.1.map fun x => c.conv stns srow (g.2.takes x.2) x.1

/-- The exponent of an element's contribution (R89, R152). -/
def QEl.contrib (q : QEl) : Option Int :=
  match q.v with
  | .fin d => if d.m = 0 then none else some (d.ex + q.e)
  | _ => none

/-- The bound of a list of contributions: −512, or −4,096 in class D, without one (R89, R152). -/
def OpCtl.bound (c : OpCtl) (l : List QEl) : Int :=
  (l.filterMap QEl.contrib).foldl max (if c.dcls then -4096 else -512)

/-- The amax of an operand: the largest finite |x · 2^s_grp| (R170). -/
def OpCtl.amax (c : OpCtl) (ls : List (List (Nat × Nat))) : Dy :=
  ls.foldl (fun a l => a.max2 (amaxOf (l.map fun x => (rawVal c.t c.src x).scale (sgrp x.2)))) ⟨0, 0⟩

/-- What the pre-scan fixes for an operand (R89, R90); `fix` holds scales fixed before, for a repetition with the same
scales (R91, R95). -/
def OpCtl.scan (c : OpCtl) (lens : List Nat) (stns : Int) (fix : Option (List Int)) (ls : List (List (Nat × Nat))) : ScanOp :=
  let srow := match fix with
    | some r => r
    | none => ls.map c.srow
  let z := ls.zip srow
  let gs := z.map fun x => c.groups stns x.2 x.1
  let qs := (z.zip gs).map fun x => c.line stns x.1.2 x.2 x.1.1
  ⟨stns, srow, qs.map c.bound, qs.map fun l => (cutBy lens l).map c.bound, gs⟩

/-- The converted lines of an operand under what its pre-scan fixed. -/
def OpCtl.lines (c : OpCtl) (sc : ScanOp) (ls : List (List (Nat × Nat))) : List (List QEl) :=
  ((ls.zip sc.srow).zip sc.outl).map fun x => c.line sc.stns x.1.2 x.2 x.1.1

/-- Line and reduction block pairs whose exponent was clamped (R74). -/
def OpCtl.clamps (_ : OpCtl) (sc : ScanOp) (blk : Nat) (ls : List (List (Nat × Nat))) : Nat :=
  ((ls.zip sc.srow).map fun x =>
    ((chunks blk x.1.length x.1).filter fun b => b.any fun y => (composeE sc.stns x.2 y.2).2).length).sum

/-- Outlier table entries, diverted elements and promoted groups of a scan (R95, R96). -/
def ScanOp.entries (sc : ScanOp) : Nat := ((sc.outl.flatMap id).map Grp128.entries).sum
def ScanOp.diverted (sc : ScanOp) : Nat :=
  ((sc.outl.flatMap id).map fun g => match g with
    | .divert ks => ks.length
    | _ => 0).sum
def ScanOp.promoted (sc : ScanOp) : Nat := ((sc.outl.flatMap id).filter (· = .promote)).length

/-- Entries of the outlier table (R95). -/
def outlierTable : Nat := 2048

end Sys2Proof.Machine
end

