-- ==== Sys2Proof/Machine/Issue.lean ====
section
/-! DEFINITION. Issue, acceptance and retirement of instructions (R259-R265, R275, R276, R284, R287). -/

namespace Sys2Proof.Machine

/-- Whether a context performs an instruction's class and minor opcode (R259, R214). -/
def performed (c : Ctx) (i : Instr) : Bool :=
  let k := insnClass i
  let m := insnMinor i
  match c with
  | .cell _ => k != 8
  | .zen _ _ => (k = 0 && !(6 ≤ m && m ≤ 8)) || k = 1 || (k = 5 && m < 0x20) || k = 8

/-- The scalar register that a unit instruction writes (R263). -/
def destS (i : Instr) : Option Nat :=
  match i with
  | .movLds _ _ f | .movAadd32 _ _ f | .movAadd64 _ _ f | .movAaddfx _ _ f | .movSwap _ _ f | .movSpill _ _ f => some f.rd.val
  | .zenAmax _ _ f => some f.rs.val
  | .collSlot _ _ f | .collCancel _ _ f | .chkVlast _ _ f => some f.rd.val
  | _ => none

/-- The predicates that a unit instruction writes. -/
def destP (i : Instr) : List Nat :=
  match i with
  | .movLds _ _ f => [f.pd.val]
  | .zenLdlt _ _ f => [f.pd.val, 6]
  | _ => []

/-- The barrier counter that a unit instruction advances at its retirement (R276). -/
def bareOf (i : Instr) : Option Nat :=
  match i with
  | .movCopy _ _ f | .movLds _ _ f | .movSts _ _ f | .movAadd32 _ _ f | .movAadd64 _ _ f | .movAaddfx _ _ f
  | .movSwap _ _ f | .movGadd _ _ f | .movTake _ _ f | .movSpill _ _ f | .movFill _ _ f | .movHint _ _ f =>
    if f.bare then some f.bar.val else none
  | .collSlot _ _ f | .chkVerdict _ _ f => if f.bare then some f.bar.val else none
  | _ => none

/-- The instructions of a context that have issued and not retired. -/
def CellCtx.unretired (x : CellCtx) : List Job :=
  x.waiting ++ x.flight.map (·.job) ++ x.dusk.map (·.job) ++ x.dawn.map (·.job)

/-- Scalar registers pending in a context (R263). -/
def CellCtx.pendS (x : CellCtx) : List Nat := (x.unretired.filterMap fun j => destS j.ins).filter (· != 0)

/-- Predicates pending in a context (R263). -/
def CellCtx.pendP (x : CellCtx) : List Nat := (x.unretired.flatMap fun j => destP j.ins).filter (· != 7)

/-- Jobs of one unit that wait for acceptance. -/
def CellCtx.queue (x : CellCtx) (u : UnitId) : List Job := x.waiting.filter (·.unit = u)

/-- Length of a unit's queue (R260). -/
def queueLen : Nat := 8

/-- The predicate of an instruction (R265). -/
def predTrue (r : RegFile) (p : Pred) : Bool := r.getP p.psel.val != p.pneg

/-- The sequencer holds an instruction that has to wait, and issues nothing after it (R260, R263, R264). -/
def State.hold (s : State) (c : Ctx) (i : Instr) : State := s.setCtx c { s.ctx c with held := some i }

/-- The sequencer holds no instruction any more. -/
def State.unhold (s : State) (c : Ctx) : State :=
  if (s.ctx c).held.isNone then s else s.setCtx c { s.ctx c with held := none }

/-- Whether a context holds an instruction other than `i`: that one issues first (R260). -/
def State.heldOther (s : State) (c : Ctx) (i : Instr) : Bool :=
  match (s.ctx c).held with
  | none => false
  | some j => j != i

/-- An instruction has issued: counted on a cell, the PC moves to the next word, and nothing is held. -/
def State.issuedAt (s : State) (c : Ctx) (pc : Nat) : State :=
  let s := match c with
    | .cell k => s.count (R.CELL_SEQ_ISSUE_CNT k) 1
    | .zen _ _ => s
  (s.setPc c pc).unhold c

/-- An instruction whose predicate is false (R265). -/
def State.predOff (s : State) (c : Ctx) : State :=
  let s := match c with
    | .cell k => s.count (R.CELL_SEQ_PRED_CNT k) 1
    | .zen _ _ => s
  s.issuedAt c (s.pc c + 16)

/-- An instruction refused at issue (R287): counted as issued, the PC moves on. -/
def State.refuseIssue (s : State) (c : Ctx) (cause : Nat) (i : Instr) : State :=
  let pc := s.pc c
  (s.violateInsn c cause i pc).issuedAt c (pc + 16)

/-- What every issue checks before the instruction's own work (R260, R263, R265, R287). An instruction that must wait is
held, and no other issues before it. -/
def State.issue (s : State) (c : Ctx) (p : Pred) (i : Instr) (fieldsOk : Bool) (ss ps : List Nat) (body : State) : State :=
  let x := s.ctx c
  if !s.running c || s.heldOther c i then s
  else if x.pendP.contains p.psel.val then s.hold c i
  else if !predTrue x.regs p then s.predOff c
  else if !performed c i then s.refuseIssue c 1 i
  else if !fieldsOk then s.refuseIssue c 2 i
  else if ss.any x.pendS.contains || ps.any x.pendP.contains then s.hold c i
  else body

/-- What a unit answers when it is to accept the head of its queue: it cannot begin, it refuses with a cause, or it has
performed the instruction, whose retirement is still to come. -/
inductive Perf where
  | wait
  | refuse (cause : Nat) (s : State)
  | done (s : State) (f : Flight)

/-- A retirement that brings nothing. -/
def Flight.plain (j : Job) : Flight := ⟨j, none, [], none, 0, false, none, 0⟩

/-- ctl.arrive counts once every instruction before it has retired (R284). -/
def State.settle (s : State) (c : Ctx) : State :=
  let x := s.ctx c
  let due := x.arrives.filter fun a => x.unretired.all fun j => decide (a.1 < j.seq)
  if due.isEmpty then s
  else
    let s := s.setCtx c { x with arrives := x.arrives.filter fun a => !(x.unretired.all fun j => decide (a.1 < j.seq)) }
    s.each due fun s a => s.barAdvance (s.part c) a.2 1

/-- Remove a waiting job. -/
def State.dropWaiting (s : State) (c : Ctx) (j : Job) : State :=
  s.setCtx c { s.ctx c with waiting := (s.ctx c).waiting.filter (·.seq != j.seq) }

/-- An accepted instruction goes into flight. -/
def State.fly (s : State) (c : Ctx) (f : Flight) : State :=
  s.setCtx c { s.ctx c with flight := (s.ctx c).flight ++ [f] }

/-- The unit's answer for the head of its queue takes effect (R261, R287). -/
def State.accept (s : State) (c : Ctx) (j : Job) (r : Perf) : State :=
  match r with
  | .wait => s
  | .refuse k s' => (((s'.dropWaiting c j).violateInsn c k j.ins j.pc)).settle c
  | .done s' f => (s'.dropWaiting c j).fly c f

/-- The job that an issuing instruction becomes (R262, R88). -/
def State.newJob (s : State) (c : Ctx) (u : UnitId) (i : Instr) : Job :=
  let x := s.ctx c
  ⟨x.seqno, u, i, s.pc c, x.regs, s.tabs c, s.ovf c, flag (s.rd (R.PART_ACC_MODE (s.part c))) 0,
    flag (s.rd (R.PART_WIDE_MODE (s.part c))) 0⟩

/-- Place an instruction in its unit's queue (R260); the unit accepts it at once when nothing waits before it. -/
def State.enqueue (s : State) (c : Ctx) (u : UnitId) (i : Instr) (perform : Job → Ctx → State → Perf) : State :=
  let x := s.ctx c
  if (x.queue u).length ≥ queueLen then s.hold c i
  else
    let j := s.newJob c u i
    let s1 := (s.setCtx c { x with waiting := x.waiting ++ [j], seqno := x.seqno + 1 }).issuedAt c (s.pc c + 16)
    if (x.queue u).isEmpty then s1.accept c j (perform j c s1) else s1

/-- Issue of an instruction of a unit. -/
def State.issueUnit (s : State) (c : Ctx) (p : Pred) (u : UnitId) (i : Instr) (fieldsOk : Bool) (ss ps : List Nat)
    (perform : Job → Ctx → State → Perf) : State :=
  s.issue c p i fieldsOk ss ps (s.enqueue c u i perform)

/-- The head of a unit's queue. -/
def State.headJob (s : State) (c : Ctx) (u : UnitId) : Option Job := ((s.ctx c).queue u).head?

/-- The barrier field of a unit instruction names a counter that is present (R283). -/
def State.bareFail (s : State) (c : Ctx) (i : Instr) : Option Nat :=
  match bareOf i with
  | some b => failIf (s.nbar (s.part c) ≤ b) 0xC
  | none => none

/-! Banks (R111, R138). Banks 0 to 3 are fa0, fa1, ba0 and ba1. -/

def bFree : Nat := 0
def bFilling : Nat := 1
def bFull : Nat := 2
def bReading : Nat := 3

/-- Register and field that hold a bank's state. -/
def bankReg (c : CellId) (b : Nat) : Nat := if b < 2 then R.CELL_DUSK_STAT c else R.CELL_DAWN_STAT c
def bankFld (b : Nat) : Nat × Nat := if b % 2 = 0 then (5, 4) else (7, 6)

/-- State of a bank. -/
def State.bankSt (s : State) (c : CellId) (b : Nat) : Nat := s.rdF (bankReg c b) (bankFld b)

/-- Set the state of a bank. -/
def State.setBankSt (s : State) (c : CellId) (b st : Nat) : State := s.wrF (bankReg c b) (bankFld b) st

/-- Contents of a bank. -/
def State.bank (s : State) (c : CellId) (b : Nat) : Bank := SMap.get (s.cell c).banks Bank.zero b

/-- Set the contents of a bank. -/
def State.setBank (s : State) (c : CellId) (b : Nat) (k : Bank) : State :=
  s.setCell c { s.cell c with banks := SMap.set (s.cell c).banks Bank.zero b k }

/-- A bank becomes zero and FREE. -/
def State.freeBank (s : State) (c : CellId) (b : Nat) : State := (s.setBank c b Bank.zero).setBankSt c b bFree

/-- What a retirement does with the bank that the instruction read (R199). -/
def State.bankBack (s : State) (c : Ctx) (b : Option (Nat × Bool)) : State :=
  match c, b with
  | .cell k, some (n, rel) => if rel then s.freeBank k n else s.setBankSt k n bFull
  | _, _ => s

/-- Counters that an instruction advances when it retires (R213, R302). -/
def State.retireCount (s : State) (c : Ctx) (f : Flight) : State :=
  let k := insnClass f.job.ins
  match c with
  | .cell x =>
    if k = 5 then (s.count (R.CELL_VEC_INSN_CNT x) 1).count (R.CELL_VEC_BUSY_CNT x) f.cc
    else if k = 6 then s.count (R.CELL_ROW_BUSY_CNT x) f.cc
    else s
  | .zen d _ => if k = 5 then s.count (R.DIE_ZEN_VEC_CNT d.val) 1 else s

/-- An accepted instruction retires (R261, R263, R276): pending registers are written, NaN events recorded, its bank is
returned, and BAR advances. -/
def State.retire (s : State) (c : Ctx) (f : Flight) : State :=
  let x := s.ctx c
  let r1 := match f.rd with
    | some (n, v) => x.regs.setS n v
    | none => x.regs
  let r2 := f.pd.foldl (fun r q => r.setP q.1 q.2) r1
  let s := s.setCtx c { x with regs := r2, flight := x.flight.filter (·.job.seq != f.job.seq) }
  let s := ((s.bankBack c f.bank).retireCount c f).nanEvents c f.job.ins f.job.pc (2 * f.job.seq + 1) f.nan f.nans
  let s := match bareOf f.job.ins with
    | some b => s.barAdvance (s.part c) b 1
    | none => s
  s.settle c

end Sys2Proof.Machine
end

