-- ==== Sys2Proof/Machine/Flags.lean ====
section
/-! DEFINITION. Comparisons and predicates (R63, R293, R196), the records of NaN events (R64, R497), and rounding with the
sign rule of the scalar unit (R61). -/

namespace Sys2Proof.Machine

/-- Signed less than. -/
def sLt (a b : W64) : Bool := a.toInt < b.toInt

/-- Signed less or equal. -/
def sLe (a b : W64) : Bool := a.toInt ≤ b.toInt

/-- A comparison by CMP code: =, ≠, <, ≤ (R277); any comparison with a NaN is false (R63). -/
def cmpVal (code : Nat) (a b : Val) : Bool :=
  if a.isNan || b.isNan then false
  else if code = 0 then a.eqv b
  else if code = 1 then !a.eqv b
  else if code = 2 then a.lt b
  else a.le b

/-- A field of a NaN record that has no format code (R497). -/
def fmtNone : Nat := 0x3F

/-- A NaN event of an operation on one or two operands: KIND 0 for a NaN operand, else 1 for an invalid operation. -/
def nanOp (src fmtR fmtA opA fmtB opB elem : Nat) (operandNan : Bool) : NanEvt :=
  ⟨src, if operandNan then 0 else 1, fmtR, fmtA, fmtB, 0, 0, elem, opA, if fmtB = fmtNone then 0 else opB⟩

/-- ELEM of an event: on the Zenith unit the entry and the offset within the block (R217). -/
def State.elemIx (s : State) (c : Ctx) (e : Nat) : Nat :=
  match c with
  | .cell _ => e
  | .zen d p =>
    match (s.zr d.val p.val).blk with
    | some b => b.entry * 2 ^ 17 + (b.off + e) % 2 ^ 17
    | none => e

/-- The event of a scalar instruction: SRC 0x6 and ELEM 0 on a cell (R294); on the Zenith unit every event carries SRC 0x5 and the
unit's ELEM (R217). -/
def State.scalEvt (s : State) (c : Ctx) (e : NanEvt) : NanEvt :=
  match c with
  | .cell _ => e
  | .zen _ _ => { e with src := 5, elem := s.elemIx c 0 }

/-- Whether an exact result is NaN. -/
def isNanX : XR → Bool
  | .nan => true
  | _ => false

/-- The sign of an exact result that is not NaN. -/
def negX : XR → Bool
  | .nan => false
  | .inf n => n
  | .zero n => n
  | .num n _ => n

/-- A scalar result in FP32 or FP64: a result of zero keeps its sign (R53, R61). -/
def scalRound (f : Nat) (ovf : Bool) (x : XR) : Conv :=
  let c := convert ⟨0, 0, 0, 0, 0, 0⟩ ovf f x
  if c.bits = 0 && negX x then { c with bits := 2 ^ (if f = fmtFP64 then 63 else 31) } else c

/-- A scalar operand in FP32 or FP64 (R270). -/
def scalVal (f : Nat) (v : W64) : Val := if f = fmtFP64 then f64Val v else f32Val (BitVec.ofNat 32 v.toNat)

/-- The bits of a scalar operand in its format. -/
def scalBits (f : Nat) (v : W64) : Nat := if f = fmtFP64 then v.toNat else v.toNat % 2 ^ 32

end Sys2Proof.Machine
end

