-- ==== Sys2Proof/Machine/Arr.lean ====
section
/-! DEFINITION. Array passes: the exact accumulation of a pass (R133-R162), its issue and acceptance (R101-R107, R111-R117,
R124-R127, R138-R146), its pre-scan, repetition and retirement. -/

namespace Sys2Proof.Machine

/-! Classes and products (R123, R133-R135). -/

/-- Rank of an operand format: N 0, H 1, S 2, D 3 (R123). -/
def fmtRank (f : Nat) : Nat := if f = fmtFP64 then 3 else if f = fmtFP32 then 2 else if f = fmtFP16 then 1 else 0

/-- Dusk operand formats (R99) and Dawn operand formats (R122). -/
def isDuskFmt (f : Nat) : Bool := isInt f || f = 0x10 || isTbl f
def isDawnFmt (f : Nat) : Bool := fmtAssigned f && f != fmtE8M0

/-- Formats of which two make a fixed pair (R150). -/
def isFixedFmt (f : Nat) : Bool := isInt f || f = 0x10 || f = 0x11 || isTbl f

/-- The significand and exponent of a finite value as `m` bits with exponent at least `emin` (R133, R134). -/
def splitVal (d : Dy) (m : Nat) (emin : Int) : Nat × Int :=
  let e := max d.ex emin
  ((shiftFl d.m.natAbs (d.e - (e - m))).1, e)

/-- Pieces of an FP32 significand with the exponents of their weights (R133). -/
def piecesS (m : Nat) : List (Nat × Nat) := [(m / 64, 6), (m % 64, 0)]

/-- Pieces of an FP64 significand (R134). -/
def piecesD (m : Nat) : List (Nat × Nat) := [(m / 2 ^ 35, 35), (m / 2 ^ 17 % 2 ^ 18, 17), (m % 2 ^ 17, 0)]

/-- Whether piece-product (i, j) is computed. -/
def pairDone (rank : Nat) (nine : Bool) (i j : Nat) : Bool :=
  if rank = 2 then i + j ≤ 1 else nine || i + j ≤ 2

/-- The products or piece-products of two finite non-zero values at scale `e`: magnitude and exponent. -/
def prodTerms (rank : Nat) (nine : Bool) (a b : Dy) (e : Int) : List (Nat × Int) :=
  if rank ≤ 1 then [(a.m.natAbs * b.m.natAbs, a.e + b.e + e)]
  else
    let mb := if rank = 2 then 23 else 52
    let emin : Int := if rank = 2 then -126 else -1022
    let x := splitVal a mb emin
    let y := splitVal b mb emin
    let px := (if rank = 2 then piecesS x.1 else piecesD x.1).zipIdx
    let py := (if rank = 2 then piecesS y.1 else piecesD y.1).zipIdx
    px.flatMap fun i => py.filterMap fun j =>
      if pairDone rank nine i.2 j.2 then
        some (i.1.1 * j.1.1, (i.1.2 + j.1.2 : Nat) + x.2 + y.2 - 2 * mb + e)
      else none

/-- ⌊m · 2^x / 2^F⌋ and whether non-zero bits were removed (R155). -/
def truncAt (m : Nat) (x f : Int) : Nat × Bool :=
  let r := shiftFl m (x - f)
  (r.1, !r.2)

/-- An entry in formation: the entry, its shed products, and the reduction indices of invalid products. -/
structure Forming where
  ent  : AccEnt
  shed : Nat
  bad  : List (Nat × QEl × QEl)

/-- The frame of an entry's sum: class, FP64 mode, and the bottom weight. -/
structure SumCtl where
  rank : Nat
  nine : Bool
  w    : Int

/-- Add one product or piece-product (R155, R156). -/
def Forming.addTerm (x : Forming) (c : SumCtl) (f : Int) (neg : Bool) (t : Nat × Int) : Forming :=
  let r := truncAt t.1 t.2 f
  let q : Int := (r.1 * 2 ^ (f - c.w).toNat : Nat)
  { x with
    ent := { x.ent with n := x.ent.n + (if neg then -q else q), sticky := x.ent.sticky || (r.2 && c.rank = 3) }
    shed := x.shed + bnat r.2 }

/-- Add the product of one element pair at reduction index `k` under truncation weight `f` (R155, R158). DESIGN CHOICE (log entry 79): a
diverted or promoted element is one value here, so the zero that stands for it in the narrow lanes (R94) makes no invalid product with an
infinity of the other operand. -/
def Forming.addPair (x : Forming) (c : SumCtl) (f : Int) (k : Nat) (a b : QEl) : Forming :=
  if a.v.isNan || b.v.isNan then { x with ent := { x.ent with nanf := true } }
  else match a.v.mul b.v with
    | .nan => { x with ent := { x.ent with nanf := true }, bad := x.bad ++ [(k, a, b)] }
    | .inf n => { x with ent := if n then { x.ent with ninf := true } else { x.ent with pinf := true } }
    | .fin p =>
      if p.m = 0 then x
      else match a.v, b.v with
        | .fin u, .fin v => (prodTerms c.rank c.nine u v (a.e + b.e)).foldl (fun y t => y.addTerm c f (p.m < 0) t) x
        | _, _ => x

/-- What of a pass applies to every entry (R151, R154, R155). -/
structure PassSum where
  rank  : Nat
  nine  : Bool
  fixed : Bool
  lens  : List Nat
  k     : Nat

/-- The anchor of an entry (R151). -/
def PassSum.anchor (c : PassSum) (ea eb : Int) : Int := ea + eb + 1 + (clog2 c.k : Int) + 1

/-- Bits of the window above its bottom weight. -/
def PassSum.window (c : PassSum) : Int := if c.rank = 3 then 383 else 191

/-- The truncation weight of each reduction index of an entry (R155). -/
def PassSum.weights (c : PassSum) (w : Int) (ma mb : List Int) : List Int :=
  (c.lens.zip (ma.zip mb)).flatMap fun x =>
    let u : Int := x.2.1 + x.2.2 + 1 + (clog2 x.1 : Int) + 1
    List.replicate x.1 (if c.fixed then w else max w (u - (if c.rank = 3 then 143 else 71)))

/-- An entry of an exact bank from its two lines and their bounds. -/
def PassSum.entry (c : PassSum) (la lb : List QEl) (ea eb : Int) (ma mb : List Int) : Forming :=
  let t := c.anchor ea eb
  let w := t - c.window
  let z := ((la.zip lb).zip (c.weights w ma mb)).zipIdx
  let r := z.foldl (fun (x : Forming) y => x.addPair ⟨c.rank, c.nine, w⟩ y.1.2 y.2 y.1.1.1 y.1.1.2) ⟨{ AccEnt.zero with anch := t }, 0, []⟩
  { r with ent := { r.ent with nanf := r.ent.nanf || (r.ent.pinf && r.ent.ninf) } }

/-- The integer sum of an INT32-compatible entry (R116). -/
def intSum (la lb : List QEl) : Int :=
  (la.zip lb).foldl (fun n x => match x.1.v, x.2.v with
    | .fin a, .fin b => n + a.m * b.m
    | _, _ => n) 0

/-- An INT32 entry: its value, and whether it was clamped or wrapped. -/
def int32Entry (wrap : Bool) (n : Int) : Int × Bool :=
  if wrap then (let r := signed 32 (unsigned 32 n); (r, r != n))
  else (let r := max (-(2 ^ 31)) (min (2 ^ 31 - 1) n); (r, r != n))

/-! Passes. -/

/-- Whether a pass belongs to the Dusk class. -/
def Pass.dusk (x : Pass) : Bool := x.bank < 2

/-- The operand format that an operand's elements take (R95). -/
def Pass.fmt (x : Pass) (b : Bool) : Nat := if x.wide then fmtBF16 else if b then x.b.fmt else x.a.fmt

/-- Class of a pass (R123). -/
def Pass.rank (x : Pass) : Nat := max (fmtRank (x.fmt false)) (fmtRank (x.fmt true))

/-- Whether the products are the Dawn array's. -/
def Pass.onDawn (x : Pass) : Bool := !x.dusk || x.handed || x.wide

/-- How a pass converts operand A or B. `chk` takes both operands into BF16 as x · 2^s_grp, with s_tns = s_row = 0 (R430). -/
def Pass.ctl (x : Pass) (b chk : Bool) : OpCtl :=
  let d := arrDesc x.job b
  let o := if b then x.b else x.a
  let cc := x.job.tabs.conv
  { t := x.job.tabs, ovf := x.job.ovf, src := d.fmt, fmt := if chk then fmtBF16 else o.fmt, wide := x.wide,
    row := d.group.rowscale && !chk, on := flag cc (if b then 4 else 0) && !chk,
    othr := fld cc (if b then 7 else 3) (if b then 5 else 1), int := x.job.i32, dcls := x.rank = 3 && !chk, flat := chk }

/-- The scan of an operand. -/
def Pass.scanOf (x : Pass) (b : Bool) : ScanOp := (if b then x.scanB else x.scanA).getD ⟨0, [], [], [], []⟩

/-- What of a pass applies to every entry. -/
def Pass.sum (x : Pass) : PassSum :=
  ⟨x.rank, x.job.f64x, isFixedFmt (x.fmt false) && isFixedFmt (x.fmt true), passIntervals x.job, (arrDesc x.job false).red⟩

/-- The stored lines of an operand as memory holds them now. -/
def State.passLines (s : State) (x : Pass) (b : Bool) : List (List (Nat × Nat)) :=
  s.opLines x.job.tabs (arrDesc x.job b) (arrScale x.job b)

/-- Byte ranges that a pass reads of an operand. -/
def passRuns (j : Job) (b : Bool) : List Run :=
  (arrDesc j b).runs j.tabs ++ (arrDesc j b).scaleRuns (arrScale j b)

/-- The pre-scan of one operand of a pass (R89, R183): in cold scaling the tensor scale follows from the operand's own
amax. -/
def State.scanPass (s : State) (p : Nat) (x : Pass) (b : Bool) : ScanOp :=
  let c := x.ctl b false
  let ls := s.passLines x b
  let o := if b then x.b else x.a
  let stns := match o.cold with
    | some hx =>
      if c.row then 0
      else tensorScale (s.refTabs p) o.fmt hx (some (f32Mag (amaxF32 (c.amax ls)))) o.stns
    | none => o.stns
  c.scan (passIntervals x.job) stns none ls

/-- The scan of an operand as it would be now under the scales that the pre-scan fixed (R91, R95). -/
def State.rescan (s : State) (x : Pass) (b : Bool) (sc : ScanOp) : ScanOp :=
  (x.ctl b false).scan (passIntervals x.job) sc.stns (some sc.srow) (s.passLines x b)

/-- The check of R91 on one operand: no contribution exceeds its line's bound, and the diversions are the same. -/
def scanHolds (old new : ScanOp) : Bool := (old.eline.zip new.eline).all (fun z => decide (z.2 ≤ z.1)) && old.outl = new.outl

/-- The check of R91 on a pass. -/
def State.passHolds (s : State) (x : Pass) : Bool :=
  scanHolds (x.scanOf false) (s.rescan x false (x.scanOf false)) && scanHolds (x.scanOf true) (s.rescan x true (x.scanOf true))

/-! NaN events of a pass (R66, R84, R158, R497). -/

/-- Converter events of an operand, each with its place in the order of R66. -/
def convEvents (b : Bool) (d : DescV) (tgt : Nat) (ls : List (List QEl)) : List (Nat × NanEvt) :=
  let blk := d.redBlock
  ls.zipIdx.flatMap fun l => l.1.zipIdx.filterMap fun q =>
    if q.1.nan then
      let elem := if b then l.2 else 32 * l.2
      let sc := q.1.raw.2 = 255
      let k := if sc then q.2 / blk * blk else q.2
      some (elem * 2 ^ 26 + k * 2 + bnat b,
        ⟨0, if sc then 2 else 0, tgt, if sc then fmtE8M0 else d.fmt, fmtNone, bnat b, k, elem, if sc then q.1.raw.2 else q.1.raw.1, 0⟩)
    else none

/-- Array events of entry `idx`: invalid products, and a sum of both infinities. DESIGN CHOICE (log entries 74, 79): at one ELEM a
converter event comes before them and the sum of infinities last (R66 orders only converter events among themselves), and SRC of that sum
is the array that the pass belongs to, also where its infinities come from outlier products of the Dawn array (R158). -/
def entryEvents (dawn : Bool) (idx : Nat) (f : Forming) : List (Nat × NanEvt) :=
  let src := if dawn then 2 else 1
  (f.bad.map fun x =>
    (idx * 2 ^ 26 + 2 ^ 24 + x.1, ⟨if x.2.1.outl || x.2.2.outl then 2 else src, 1, fmtNone, x.2.1.fmt, x.2.2.fmt, 0, 0, idx, x.2.1.bits,
      x.2.2.bits⟩)) ++
  (if f.ent.pinf && f.ent.ninf then [(idx * 2 ^ 26 + 2 ^ 25, ⟨src, 1, fmtNone, fmtNone, fmtNone, 0, 0, idx, 0, 0⟩)] else [])

/-- The event that comes first, and the number of events. -/
def firstEvent (l : List (Nat × NanEvt)) : Option NanEvt × Nat :=
  ((l.foldl (fun a x => match a with
    | none => some x
    | some y => if x.1 < y.1 then some x else some y) none).map (·.2), l.length)

/-! What a pass computes. -/

/-- The result of a pass and what it counts. -/
structure PassOut where
  bank  : Bank
  qa    : List (List QEl)
  qb    : List (List QEl)
  shed  : Nat
  shedE : Nat
  clip  : Nat
  evts  : List (Nat × NanEvt)

/-- The entries of a pass from its converted lines. -/
def passEntries (x : Pass) (c : PassSum) (sa sb : ScanOp) (qa qb : List (List QEl)) : List (Nat × Forming) :=
  ((qa.zip (sa.eline.zip sa.eint)).zipIdx).flatMap fun a => ((qb.zip (sb.eline.zip sb.eint)).zipIdx).map fun b =>
    (32 * a.2 + b.2,
      if x.job.i32 then
        let r := int32Entry ((arrFields x.job.ins).mode.toNat.testBit 10) (intSum a.1.1 b.1.1)
        ⟨{ AccEnt.zero with n := r.1 }, bnat r.2, []⟩
      else c.entry a.1.1 b.1.1 a.1.2.1 b.1.2.1 a.1.2.2 b.1.2.2)

/-- A bank from its entries. -/
def bankOf' (form : BankForm) (es : List (Nat × Forming)) : Bank :=
  ⟨form, es.foldl (fun m e => SMap.set m AccEnt.zero e.1 e.2.ent) []⟩

/-- The computation of a pass on memory as it is now, under what its pre-scan fixed. -/
def State.passOut (s : State) (x : Pass) : PassOut :=
  let ca := x.ctl false false
  let cb := x.ctl true false
  let sa := x.scanOf false
  let sb := x.scanOf true
  let qa := ca.lines sa (s.passLines x false)
  let qb := cb.lines sb (s.passLines x true)
  let es := passEntries x x.sum sa sb qa qb
  let form := if x.job.i32 then BankForm.int32 else if x.rank = 3 then .exact384 else .exact
  let total := (es.map (·.2.shed)).sum
  let i := x.job.i32
  { bank := bankOf' form es, qa, qb,
    shed := if i then 0 else total,
    shedE := if i then 0 else (es.filter fun e => e.2.shed != 0).length,
    clip := if i then total else 0,
    evts := convEvents false (arrDesc x.job false) ca.tgt qa ++ convEvents true (arrDesc x.job true) cb.tgt qb ++
      (if i then [] else es.flatMap fun e => entryEvents x.onDawn e.1 e.2) }

/-- Saturated and overflowed elements of converted lines. -/
def linesSat (ls : List (List QEl)) : Nat := (ls.flatMap fun l => l.map (·.sat)).sum
def linesOvf (ls : List (List QEl)) : Nat := (ls.flatMap fun l => l.map (·.ovf)).sum

/-- cc in which slices leave the buffers (R100, R108, R123, R136). -/
def Pass.busy (x : Pass) : Nat :=
  let j := x.job
  let narrow := fun f => fmtWidth j.tabs f ≤ 4
  if !x.onDawn then
    let l := if narrow (x.fmt false) && narrow (x.fmt true) then 8 else 4
    ((passIntervals j).map fun n => cdiv n l).sum
  else
    let l := if x.rank = 0 then 8 else 2
    let p := if x.rank ≤ 1 then 1 else if x.rank = 2 then 3 else if j.f64x then 9 else 6
    ((passIntervals j).map fun n => cdiv (n * p) l).sum

end Sys2Proof.Machine
end

