-- ==== Sys2Proof/Machine/ArrPass.lean ====
section
/-! DEFINITION. The events of array passes: issue, acceptance, pre-scan, abandonment, retirement and column gating
(R101-R120, R124-R127, R138-R148), with the reports of R170 and the samples of R428. -/

namespace Sys2Proof.Machine

/-! Status. -/

/-- Passes that the Dawn array has accepted and not retired (R141). -/
def CellCtx.onDawn (x : CellCtx) : Nat := x.dawn.length + (x.dusk.filter (·.entered.isSome)).length

/-- Whether a pass has outlier work pending on the Dawn array (R94, R142). DESIGN CHOICE (log entry 79): the whole of a handed-over pass
is work of the Dawn array, so its table entries are no outlier work beside it. -/
def Pass.outlWork (x : Pass) : Bool :=
  !x.onDawn && decide (0 < (x.scanOf false).entries + (x.scanOf true).entries)

/-- Whether check work is held or in progress (R145). -/
def CellCtx.chkWork (x : CellCtx) : Bool := x.samples.any fun r => match r.2 with
  | some t => t.phase != 0
  | none => false

/-- INFLIGHT, OUTL and CHK follow the passes and samples (R119, R147). -/
def State.arrStat (s : State) (c : CellId) : State :=
  let x := s.cell c
  let s := s.wrF (R.CELL_DUSK_STAT c) F.CELL_DUSK_STAT_INFLIGHT x.dusk.length
  let s := s.wrF (R.CELL_DAWN_STAT c) F.CELL_DAWN_STAT_INFLIGHT x.onDawn
  let s := s.wrF (R.CELL_DAWN_STAT c) F.CELL_DAWN_STAT_OUTL (bnat (x.dusk.any Pass.outlWork))
  s.wrF (R.CELL_DAWN_STAT c) F.CELL_DAWN_STAT_CHK (bnat x.chkWork)

/-- Registers of an array: status, ramp counter, control. -/
def arrStatReg (c : CellId) : Arr → Nat
  | .dusk => R.CELL_DUSK_STAT c
  | .dawn => R.CELL_DAWN_STAT c
def arrRampReg (c : CellId) : Arr → Nat
  | .dusk => R.CELL_DUSK_RAMP_CNT c
  | .dawn => R.CELL_DAWN_RAMP_CNT c
def arrCtlReg (c : CellId) : Arr → Nat
  | .dusk => R.CELL_DUSK_CTL c
  | .dawn => R.CELL_DAWN_CTL c

/-- Field COLS. -/
def colsFld : Nat × Nat := (1, 0)

/-- Idle or ramp time of an array. -/
def CellCtx.arrIdle (x : CellCtx) : Arr → Nat
  | .dusk => x.idleDusk
  | .dawn => x.idleDawn
def State.setArrIdle (s : State) (c : CellId) (a : Arr) (n : Nat) : State :=
  let x := s.cell c
  s.setCell c (match a with
    | .dusk => { x with idleDusk := n }
    | .dawn => { x with idleDawn := n })

/-- Work that finds the columns gated ramps them (R117, R146). -/
def State.ramp (s : State) (c : CellId) (a : Arr) : State :=
  if s.rdF (arrStatReg c a) colsFld = 0 then
    ((s.wrF (arrStatReg c a) colsFld 1).count (arrRampReg c a) 1).setArrIdle c a 0
  else s

/-- The ramp is complete: no slice leaves the buffers before it is. -/
def State.ramped (s : State) (c : CellId) (a : Arr) : State :=
  (if s.rdF (arrStatReg c a) colsFld = 1 then s.wrF (arrStatReg c a) colsFld 2 else s).setArrIdle c a 0

/-- Whether an array has work (R117, R146). -/
def CellCtx.arrBusy (x : CellCtx) : Arr → Bool
  | .dusk => x.dusk.any fun p => !p.onDawn
  | .dawn => x.onDawn != 0 || x.dusk.any Pass.outlWork || x.chkWork

/-- COLUMN_GATE (R117, R118, R146). -/
def execColumnGate (c : CellId) (a : Arr) (s : State) : Host.Outcome State Fault Refusal :=
  let g := s.rdF (arrCtlReg c a) F.CELL_DUSK_CTL_GATE_IDLE
  .next
    (if s.rdF (arrStatReg c a) colsFld = 2 && g != 0 && decide (16 * g ≤ (s.cell c).arrIdle a) && !(s.cell c).arrBusy a then
      (s.wrF (arrStatReg c a) colsFld 0).setArrIdle c a 0
    else s)

/-! Issue. -/

/-- Fields of an array instruction that must be 0 (R102, R125, R277). -/
def arrFieldsOk (f : FmtA) : Bool := f.rsv = 0 && f.mode.toNat % 1024 = 0

/-- DUSK_MM: issue; the array accepts it by DUSK_PASS_ACCEPT. -/
def execDuskMm (c : Ctx) (p : Pred) (f : FmtA) (s : State) : Host.Outcome State Fault Refusal :=
  .next (s.issueUnit c p .dusk (.duskMm c p f) (arrFieldsOk f) [] [] fun _ _ _ => .wait)

/-- DAWN_MM: issue. -/
def execDawnMm (c : Ctx) (p : Pred) (f : FmtA) (s : State) : Host.Outcome State Fault Refusal :=
  .next (s.issueUnit c p .dawn (.dawnMm c p f) (arrFieldsOk f) [] [] fun _ _ _ => .wait)

/-- DAWN_MMT: issue. -/
def execDawnMmt (c : Ctx) (p : Pred) (f : FmtA) (s : State) : Host.Outcome State Fault Refusal :=
  .next (s.issueUnit c p .dawn (.dawnMmt c p f) (arrFieldsOk f) [] [] fun _ _ _ => .wait)

/-! Acceptance. -/

/-- The slot field of an operand: tracked, and the partition-relative index (R168). -/
def slotField (f : FmtA) (b : Bool) : Bool × Nat :=
  let v := (if b then f.slotB else f.slotA).toNat
  (v.testBit 14, v % 2 ^ 14)

/-- The OPF field of an operand (R102, R125). -/
def opField (f : FmtA) (b : Bool) : Nat := bitsOf f.mode.toNat (if b then 17 else 23) (if b then 12 else 18)

/-- A tracked operand names no valid slot (R168). -/
def State.slotFail (s : State) (p : Nat) (f : FmtA) (b : Bool) : Bool :=
  let x := slotField f b
  x.1 && (decide (s.almCount p ≤ x.2) || !flag (s.confOf p (s.almBase p + x.2)) 63)

/-- What a pass reads of an operand's binding (R103, R126, R168, R169, R72). -/
def State.passOp (s : State) (p : Nat) (j : Job) (b : Bool) : PassOp :=
  let f := arrFields j.ins
  let x := slotField f b
  if x.1 then
    let n := s.almBase p + x.2
    let st := s.slotW n 9
    let row := (arrDesc j b).group.rowscale
    ⟨fld st 61 56, if row then 0 else signed 8 (fld st 55 48), some n,
      if fld st 44 40 = 0 then none else some (fld (s.confOf p n) 51 49 + fld st 47 45)⟩
  else ⟨opField f b, 0, none, none⟩

/-- What a pass permits of an operand's descriptor (R101, R124). -/
def passPermit (j : Job) (dusk b : Bool) : Permit :=
  let t := !dusk && (arrDesc j b).trn
  ⟨fun k => k != fmtE8M0, if t then 32 else 2 ^ 20 - 1, if t then 2 ^ 20 - 1 else 32, false, true, false⟩

/-- The conditions of the INT32-compatible mode (R116). -/
def int32Ok (j : Job) (a b : PassOp) : Bool :=
  let plain := fun (x : Bool) => (arrDesc j x).group.gsize = 0 && !(arrDesc j x).group.rowscale
  isInt a.fmt && isInt b.fmt && a.slot.isNone && b.slot.isNone && plain false && plain true

/-- The lowest cause with which a pass is refused (R77, R101, R102, R116, R124, R125, R143, R168, R301). -/
def State.passFail (s : State) (p : Nat) (j : Job) (dusk : Bool) : Option Nat :=
  let f := arrFields j.ins
  let a := arrDesc j false
  let b := arrDesc j true
  let oa := s.passOp p j false
  let ob := s.passOp p j true
  let across := fun (d : DescV) => d.scaled && d.group.dir != d.trn && decide (d.group.s < 32)
  let badFmt := fun (o : PassOp) => o.slot.isNone && !(if dusk then isDuskFmt o.fmt else isDawnFmt o.fmt)
  let mm := match j.ins with
    | .duskMm _ _ _ => a.trn || b.trn
    | .dawnMm _ _ _ => a.trn || b.trn
    | _ => !a.trn && !b.trn
  let slots := s.slotFail p f false || s.slotFail p f true
  lowest [s.descFail p j.tabs (passPermit j dusk false) a (arrScale j false),
    s.descFail p j.tabs (passPermit j dusk true) b (arrScale j true),
    failIf (across a || across b) 3,
    failIf (j.i32 && !int32Ok j oa ob) 6,
    failIf (mm || a.red != b.red || badFmt oa || badFmt ob || (dusk && !slots && (oa.fmt = fmtFP64 || ob.fmt = fmtFP64))) 7,
    failIf slots 9]

/-- A FULL bank that a pass names is discarded (R112). -/
def State.takeBank (s : State) (c : CellId) (b : Nat) : State :=
  let s := if s.bankSt c b = bFull then s.count (if b < 2 then R.CELL_DUSK_DISC_CNT c else R.CELL_DAWN_DISC_CNT c) 1 else s
  (s.setBank c b Bank.zero).setBankSt c b bFilling

/-- The sample record that an accepted pass takes (R428, R429): the pass counts, and a record is free or the sample is
dropped. -/
def State.takeSample (s : State) (c : CellId) (p : Nat) (a : Arr) (x : Pass) : State × Option Nat :=
  let y := s.cell c
  let n := y.passes + 1
  let lg := s.rdF (R.PART_PLX_CFG p) F.PART_PLX_CFG_LOG2N
  let mark := match a with
    | .dusk => y.markDusk
    | .dawn => y.markDawn
  let y := match a with
    | .dusk => { y with passes := n, markDusk := false }
    | .dawn => { y with passes := n, markDawn := false }
  if mark || (lg != 0 && n % 2 ^ lg = 0) then
    match [0, 1].find? fun r => (SMap.get y.samples none r).isNone with
    | some r =>
      (s.setCell c { y with samples := SMap.set y.samples none r (some ⟨x, p, Bank.zero, [], [], false, 0, 0, 0, 0, 0, 0⟩) }, some r)
    | none => ((s.setCell c y).count (R.PART_PLX_DROP_CNT p) 1, none)
  else (s.setCell c y, none)

/-- The head of an array's queue is accepted, waits, or is refused (R107, R112, R141, R168, R174). DESIGN CHOICE (log entry 79): a
handed-over pass ramps the Dawn columns alone, and neither it nor a wide one is a pass of the Dusk columns for R117. -/
def State.acceptPass (s : State) (c : CellId) (a : Arr) : State :=
  let dusk : Bool := match a with
    | .dusk => true
    | .dawn => false
  match s.headJob (.cell c) (if dusk then .dusk else .dawn) with
  | none => s
  | some j =>
    let p := s.part (.cell c)
    let f := arrFields j.ins
    let x := s.cell c
    let bank := (if dusk then 0 else 2) + bnat (f.mode.toNat.testBit 11)
    let st := s.bankSt c bank
    let full := if dusk then 2 ≤ x.dusk.length else 2 ≤ x.onDawn
    if full || st = bFilling || st = bReading ||
        (((slotField f false).1 || (slotField f true).1) && (s.almOf p).verdict.isSome) then s
    else match s.passFail p j dusk with
      | some k => s.accept (.cell c) j (.refuse k s)
      | none =>
        let oa := s.passOp p j false
        let ob := s.passOp p j true
        let handed := dusk && !(isDuskFmt oa.fmt && isDuskFmt ob.fmt)
        if handed && decide (2 ≤ x.onDawn) then s
        else
          let ent := if !dusk || handed then some x.dawnNo else none
          let w : Pass := ⟨j, bank, oa, ob, handed, 0, none, none, false, ent, none, (s.almOf p).contrib⟩
          let s := (s.dropWaiting (.cell c) j).takeBank c bank
          let s := if handed then s.count (R.CELL_DUSK_HAND_CNT c) 1 else s
          let s := if oa.cold.isSome || ob.cold.isSome then s.count (R.PART_ALM_COLD_CNT p) 1 else s
          let r := s.takeSample c p a w
          let w := { w with sample := r.2 }
          let y := r.1.cell c
          let y := if ent.isSome then { y with dawnNo := y.dawnNo + 1 } else y
          let s := r.1.setCell c (if dusk then { y with dusk := y.dusk ++ [w] } else { y with dawn := y.dawn ++ [w] })
          (s.ramp c (if ent.isSome then .dawn else .dusk)).arrStat c

/-- DUSK_PASS_ACCEPT (R112). -/
def execDuskPassAccept (c : CellId) (s : State) : Host.Outcome State Fault Refusal := .next (s.acceptPass c .dusk)

/-- DAWN_PASS_ACCEPT (R141). -/
def execDawnPassAccept (c : CellId) (s : State) : Host.Outcome State Fault Refusal := .next (s.acceptPass c .dawn)

/-! Finding and replacing passes. -/

/-- The passes of an array in acceptance order: the Dawn array's include those handed over (R141). -/
def CellCtx.passesOn (x : CellCtx) : Arr → List Pass
  | .dusk => x.dusk.filter fun p => !p.handed
  | .dawn =>
    let h := x.dusk.filter (·.handed)
    let before := fun (p q : Pass) => (p.entered.getD 0) < (q.entered.getD 0)
    match h, x.dawn with
    | [], d => d
    | hs, [] => hs
    | p :: ps, q :: qs => if before p q then p :: (ps ++ (q :: qs)) else q :: (p :: ps ++ qs)

/-- Replace the pass of job number `n`. -/
def State.putPass (s : State) (c : CellId) (w : Pass) : State :=
  let x := s.cell c
  let f := fun (q : Pass) => if q.job.seq = w.job.seq then w else q
  s.setCell c { x with dusk := x.dusk.map f, dawn := x.dawn.map f }

/-- Take a pass out of its array. -/
def State.dropPass (s : State) (c : CellId) (w : Pass) : State :=
  let x := s.cell c
  let f := fun (q : Pass) => q.job.seq != w.job.seq
  s.setCell c { x with dusk := x.dusk.filter f, dawn := x.dawn.filter f }

/-- The sample record of a pass that gives no result is free again. -/
def State.dropSample (s : State) (c : CellId) (r : Option Nat) : State :=
  match r with
  | some k => s.setCell c { s.cell c with samples := SMap.set (s.cell c).samples none k none }
  | none => s

/-- A wide tile enters the Dawn array when it has room (R143). -/
def State.enterWide (s : State) (c : CellId) : State :=
  let x := s.cell c
  match x.dusk.find? fun w => w.wide && w.entered.isNone with
  | some w =>
    if x.onDawn < 2 then
      let s := s.setCell c { x with dawnNo := x.dawnNo + 1 }
      ((s.putPass c { w with entered := some x.dawnNo }).ramp c .dawn).arrStat c
    else s
  | none => s

/-- A pass ends without a result: its bank is zero and FREE (R113, R254), and the instruction retires. -/
def State.failPass (s : State) (c : CellId) (w : Pass) : State :=
  let s := ((s.dropPass c w).dropSample c w.sample).freeBank c w.bank
  (((s.arrStat c).enterWide c)).retire (.cell c) (Flight.plain w.job)

/-! The pre-scan. -/

/-- PRESCAN_DONE of the pass `w` (R89-R96); its reads, a repetition's too, find their homes and are held by a page in SWITCH (R315, R318,
R320). DESIGN CHOICE (log entry 79): a handed-over pass that is also wide counts in TWIDE_CNT beside the HAND_CNT of its acceptance. -/
def State.prescan (s : State) (c : CellId) (w : Pass) : State :=
  let p := s.part (.cell c)
  let rs := passRuns w.job false ++ passRuns w.job true
  let r := s.unitRead (.cell c) rs
  if s.switching (pagesOf rs) then s
  else match r.2 with
  | some a => (r.1.uncorrectable p a).failPass c w
  | none =>
    let s := r.1
    let sa := s.scanPass p w false
    let sb := s.scanPass p w true
    let wide := decide (outlierTable < sa.entries + sb.entries)
    let w1 := { w with wide, scanA := some sa, scanB := some sb }
    let w2 := if wide then { w1 with scanA := some (s.rescan w1 false sa), scanB := some (s.rescan w1 true sb) } else w1
    let ca := w2.ctl false false
    let cb := w2.ctl true false
    let clamps := ca.clamps sa (arrDesc w.job false).redBlock (s.passLines w false) +
      cb.clamps sb (arrDesc w.job true).redBlock (s.passLines w true)
    let s := s.count (R.CELL_ECLAMP_CNT c) clamps
    let s := if wide then s.count (R.CELL_TWIDE_CNT c) 1
      else (s.count (R.CELL_OUTL_CNT c) (sa.diverted + sb.diverted)).count (R.CELL_PROMO_CNT c) (sa.promoted + sb.promoted)
    let s := (s.putPass c w2).arrStat c
    let s := if w2.outlWork then s.ramp c .dawn else s
    s.enterWide c

/-- PRESCAN_DONE: the earliest pass of the array that has no pre-scan. -/
def execPrescanDone (c : CellId) (a : Arr) (s : State) : Host.Outcome State Fault Refusal :=
  .next (match ((s.cell c).passesOn a).find? (·.scanA.isNone) with
    | some w => s.prescan c w
    | none => s)

/-! Abandonment (R91, R113). -/

/-- The products that an abandoned attempt has shed count (R157). How many of its `n` it had formed is a free value. -/
def State.shedSoFar (s : State) (c : CellId) (n : Nat) : State :=
  ({ s with time := { s.time with free := s.time.free + 1 } }).count (R.CELL_SHED_CNT c) (min n (Config.shedFormed s.time.free))

/-- PASS_ABANDON: the earliest scanned pass of the array whose check fails is repeated once; the second time the
instruction is not performed. -/
def execPassAbandon (c : CellId) (a : Arr) (s : State) : Host.Outcome State Fault Refusal :=
  .next (match ((s.cell c).passesOn a).find? fun w => w.scanA.isSome && !s.passHolds w with
    | some w =>
      let s := s.count (if w.dusk then R.CELL_DUSK_REDO_CNT c else R.CELL_DAWN_REDO_CNT c) 1
      let s := if w.job.i32 then s else s.shedSoFar c (s.passOut w).shed
      if w.attempt = 0 then
        let w' := { w with
          attempt := 1, scanA := none, scanB := none, wide := false, entered := if w.dusk && !w.handed then none else w.entered }
        ((s.putPass c w').arrStat c).enterWide c
      else (s.violateInsn (.cell c) 0xA w.job.ins w.job.pc).failPass c w
    | none => s)

/-! Retirement. -/

/-- Whether a pass can retire next: its pre-scan is done, and on the Dawn array it is the first (R141). -/
def CellCtx.canRetire (x : CellCtx) (w : Pass) : Bool :=
  w.scanA.isSome && (!w.onDawn || (match w.entered with
    | some n => (x.dawn ++ x.dusk).all fun q => match q.entered with
      | some m => decide (n ≤ m)
      | none => true
    | none => false))

/-- The report of a tracked operand (R170). -/
def State.passReport (s : State) (p : Nat) (w : Pass) (o : PassOut) (b : Bool) : State :=
  let op := if b then w.b else w.a
  match op.slot with
  | none => s
  | some n =>
    let q := if b then o.qb else o.qa
    let ls := s.passLines w b
    let sc := w.scanOf b
    s.report p w.step
      ⟨n, (w.ctl b false).amax ls, (arrDesc w.job b).lines * (arrDesc w.job b).red, linesSat q, linesOvf q,
        sc.entries, sc.promoted, o.shed, w.wide⟩

/-- The stored bytes of a line: those of its elements in order of the reduction, and its scale bytes (R429, R437). -/
def State.lineBytes (s : State) (t : Tabs) (d : DescV) (l : Nat) : List Byte :=
  if d.trn then
    let w := fmtWidth t d.fmt
    (List.range d.e1).flatMap fun k => s.bytesOf (d.rowPart ⟨k, 0, 0⟩ (w * l / 8) ((w * l + w + 7) / 8 - w * l / 8))
  else s.bytesOf (d.rowRuns t ⟨l, 0, 0⟩)
def State.lineScales (s : State) (d ds : DescV) (l : Nat) : List Byte :=
  if d.scaled then
    (List.range (cdiv d.red d.redBlock)).map fun b =>
      let k := b * d.redBlock
      BitVec.ofNat 8 (s.scaleByte d ds (if d.trn then ⟨k, 0, 0⟩ else ⟨l, 0, 0⟩) (if d.trn then l else k))
  else []

/-- The CRC-32C of each line of an operand (R429). -/
def State.lineCrcs (s : State) (j : Job) (b : Bool) : List Nat :=
  let d := arrDesc j b
  (List.range d.lines).map fun l => crc32c (s.lineBytes j.tabs d l ++ s.lineScales d (arrScale j b) l)

/-- A sample record keeps the pass and its result (R429). -/
def State.keepSample (s : State) (c : CellId) (w : Pass) (o : PassOut) : State :=
  match w.sample with
  | none => s
  | some r =>
    let x := s.cell c
    match SMap.get x.samples none r with
    | none => s
    | some t =>
      let ca := w.ctl false false
      let cb := w.ctl true false
      let clamps := ca.clamps (w.scanOf false) 1 (s.passLines w false) + cb.clamps (w.scanOf true) 1 (s.passLines w true)
      let drift := decide (0 < linesSat o.qa + linesSat o.qb + linesOvf o.qa + linesOvf o.qb + clamps) || (w.job.i32 && o.clip != 0)
      let t' := { t with
        pass := w, result := o.bank, crcA := s.lineCrcs w.job false, crcB := s.lineCrcs w.job true, drift, phase := 1 }
      s.setCell c { x with samples := SMap.set x.samples none r (some t') }

/-- What a pass counts at its retirement (R70, R96, R116, R120, R142, R143, R148, R157). -/
def State.passCounts (s : State) (c : CellId) (w : Pass) (o : PassOut) : State :=
  let s := s.countConv (.cell c) (linesSat o.qa + linesSat o.qb) (linesOvf o.qa + linesOvf o.qb)
  let s := (s.count (R.CELL_SHED_CNT c) o.shed).count (R.CELL_SHED_ENT_CNT c) o.shedE
  let wrap := (arrFields w.job.ins).mode.toNat.testBit 10
  let s :=
    if wrap then s.count (if w.dusk then R.CELL_DUSK_WRAP_CNT c else R.CELL_DAWN_WRAP_CNT c) o.clip
    else s.count (R.CELL_SAT_CNT c) o.clip
  let s :=
    if w.onDawn then s.count (R.CELL_DAWN_BUSY_CNT c) w.busy
    else (s.count (R.CELL_DUSK_BUSY_CNT c) w.busy).count (R.CELL_DUSK_PASS_CNT c) 1
  let s := if w.dusk then s else s.count (R.CELL_DAWN_PASS_CNT c) 1
  if w.outlWork then s.count (R.CELL_DAWN_OUTL_CC_CNT c) (cdiv ((w.scanOf false).entries + (w.scanOf true).entries) 8) else s

/-- A pass retires (R114, R137). -/
def State.retirePass (s : State) (c : CellId) (w : Pass) : State :=
  let p := s.part (.cell c)
  let rs := passRuns w.job false ++ passRuns w.job true
  let r := s.readUe p rs
  match r.2 with
  | some a => (r.1.uncorrectable p a).failPass c w
  | none =>
    if !s.passHolds w then s
    else
      let o := s.passOut w
      let s := s.passCounts c w o
      let s := (s.passReport p w o false).passReport p w o true
      let s := s.keepSample c w o
      let s := ((s.setBank c w.bank o.bank).setBankSt c w.bank bFull).dropPass c w
      let s := if w.dusk && !w.onDawn then s.ramped c .dusk else s
      let s := if w.onDawn || w.outlWork then s.ramped c .dawn else s
      let s := (s.arrStat c).enterWide c
      let e := firstEvent o.evts
      s.retire (.cell c) { Flight.plain w.job with nan := e.1, nans := e.2 }

/-- DUSK_PASS_RETIRE (R114): the earliest dusk-class pass that can retire. -/
def execDuskPassRetire (c : CellId) (s : State) : Host.Outcome State Fault Refusal :=
  .next (match (s.cell c).dusk.find? (s.cell c).canRetire with
    | some w => s.retirePass c w
    | none => s)

/-- DAWN_PASS_RETIRE (R137): the earliest dawn-class pass, when it can retire. -/
def execDawnPassRetire (c : CellId) (s : State) : Host.Outcome State Fault Refusal :=
  .next (match (s.cell c).dawn.find? (s.cell c).canRetire with
    | some w => s.retirePass c w
    | none => s)

end Sys2Proof.Machine
end

