-- ==== Sys2Proof/Machine/Ctl.lean ====
section
/-! DEFINITION. The control instructions (R289-R292) and the run-state events of a cell (R281, R285, R286). -/

namespace Sys2Proof.Machine

/-- Format S with every field 0. -/
def fmtS0 : FmtS := ⟨0, 0, 0, 0, 0, 0, false, 0, 0, 0, 0⟩

/-- Issue of an instruction that the sequencer executes itself. -/
def State.issueSeq (s : State) (c : Ctx) (p : Pred) (i : Instr) (fieldsOk : Bool) (ss ps : List Nat) (body : State) : State :=
  s.issue c p i fieldsOk ss ps body

/-- The sequencer moves to the next word. -/
def State.step1 (s : State) (c : Ctx) : State := s.issuedAt c (s.pc c + 16)

/-- ctl.nop. -/
def execCtlNop (c : Ctx) (p : Pred) (f : FmtS) (s : State) : Host.Outcome State Fault Refusal :=
  .next (s.issueSeq c p (.ctlNop c p f) (f = fmtS0) [] [] (s.step1 c))

/-- The target of a branch: the instruction's address plus 16 · IMM (R289). -/
def branchTo (pc : Nat) (imm : W64) : Nat := ((pc : Int) + 16 * imm.toInt) % (2 ^ 48 : Nat) |>.toNat

/-- A taken branch: the line held is left (R267). -/
def State.branch (s : State) (c : Ctx) (pc : Nat) : State :=
  (s.setCtx c { s.ctx c with line := none }).issuedAt c pc

/-- ctl.br. -/
def execCtlBr (c : Ctx) (p : Pred) (f : FmtS) (s : State) : Host.Outcome State Fault Refusal :=
  .next (s.issueSeq c p (.ctlBr c p f) (f = { fmtS0 with imm := f.imm }) [] [] (s.branch c (branchTo (s.pc c) f.imm)))

/-- Write a scalar register of a context. -/
def State.putS (s : State) (c : Ctx) (n : Nat) (v : W64) : State :=
  s.setCtx c { s.ctx c with regs := (s.ctx c).regs.setS n v }

/-- Write a predicate of a context. -/
def State.putP (s : State) (c : Ctx) (n : Nat) (b : Bool) : State :=
  s.setCtx c { s.ctx c with regs := (s.ctx c).regs.setP n b }

/-- ctl.call. -/
def execCtlCall (c : Ctx) (p : Pred) (f : FmtS) (s : State) : Host.Outcome State Fault Refusal :=
  let a := s.pc c
  .next (s.issueSeq c p (.ctlCall c p f) (f = { fmtS0 with rd := f.rd, imm := f.imm }) [f.rd.val] []
    ((s.putS c f.rd.val (BitVec.ofNat 64 (a + 16))).branch c (branchTo a f.imm)))

/-- ctl.jr. -/
def execCtlJr (c : Ctx) (p : Pred) (f : FmtS) (s : State) : Host.Outcome State Fault Refusal :=
  .next (s.issueSeq c p (.ctlJr c p f) (f = { fmtS0 with ra := f.ra }) [f.ra.val] []
    (s.branch c (((s.ctx c).regs.getS f.ra.val).toNat % 2 ^ 48)))

/-- The units that a fence mask names (R291). -/
def fenceUnits (m : Nat) : List UnitId :=
  ([UnitId.mov, .dusk, .dawn, .vec, .row, .coll, .chk].zipIdx.filter fun u => m.testBit u.2).map (·.1)

/-- Whether a fence has nothing left to wait for; on the Zenith unit it waits for every earlier instruction. -/
def State.fenceOpen (s : State) (c : Ctx) (imm : W64) : Bool :=
  match c with
  | .cell _ => (s.ctx c).unretired.all fun j => !(fenceUnits imm.toNat).contains j.unit
  | .zen _ _ => (s.ctx c).unretired.isEmpty

/-- The mask of a fence is one that its context permits (R291). -/
def fenceMaskOk (c : Ctx) (imm : W64) : Bool :=
  match c with
  | .cell _ => imm.toNat < 128
  | .zen _ _ => imm = 0

/-- ctl.fence. -/
def execCtlFence (c : Ctx) (p : Pred) (f : FmtS) (s : State) : Host.Outcome State Fault Refusal :=
  .next (s.issueSeq c p (.ctlFence c p f) (f = { fmtS0 with imm := f.imm } && fenceMaskOk c f.imm) [] []
    (if s.fenceOpen c f.imm then s.step1 c else s.hold c (.ctlFence c p f)))

/-- ctl.arrive: the counter advances once every earlier instruction of the context has retired (R284, R292). -/
def execCtlArrive (c : Ctx) (p : Pred) (f : FmtS) (s : State) : Host.Outcome State Fault Refusal :=
  let i := Instr.ctlArrive c p f
  .next (s.issueSeq c p i (f = { fmtS0 with bar := f.bar }) [] []
    (if s.nbar (s.part c) ≤ f.bar.val then s.refuseIssue c 0xC i
    else
      let x := s.ctx c
      ((s.setCtx c { x with arrives := x.arrives ++ [(x.seqno, f.bar.val)], seqno := x.seqno + 1 }).step1 c).settle c))

/-- ctl.wbar on a cell: the cell goes on where the count is reached, else into WAIT_BAR (R285, R292). -/
def State.waitBar (s : State) (k : CellId) (bar count : Nat) : State :=
  let s1 := s.step1 (.cell k)
  if count ≤ s.barVal (s.part (.cell k)) bar then s1
  else (s1.setCell k { s1.cell k with wait := some (.bar bar count) }).setRun k stWaitBar 0 bar

/-- ctl.wbar. -/
def execCtlWbar (c : Ctx) (p : Pred) (f : FmtS) (s : State) : Host.Outcome State Fault Refusal :=
  let i := Instr.ctlWbar c p f
  .next (s.issueSeq c p i (f = { fmtS0 with bar := f.bar, ra := f.ra }) [f.ra.val] []
    (if s.nbar (s.part c) ≤ f.bar.val then s.refuseIssue c 0xC i
    else match c with
      | .cell k => s.waitBar k f.bar.val (((s.ctx c).regs.getS f.ra.val).toNat % 2 ^ 48)
      | .zen _ _ => s))

/-- ctl.wtime on a cell (R286): a time already past counts and the cell goes on. -/
def State.waitTime (s : State) (k : CellId) (t : Nat) : State :=
  let s1 := s.step1 (.cell k)
  let now := (s.nsAt k.die.val).toNat
  if t < now then s1.count (R.CELL_SEQ_TLATE_CNT k) 1
  else if t = now then s1
  else (s1.setCell k { s1.cell k with wait := some (.time t) }).setRun k stWaitTime 0 0

/-- ctl.wtime. -/
def execCtlWtime (c : Ctx) (p : Pred) (f : FmtS) (s : State) : Host.Outcome State Fault Refusal :=
  .next (s.issueSeq c p (.ctlWtime c p f) (f = { fmtS0 with ra := f.ra, imm := f.imm }) [f.ra.val] []
    (match c with
      | .cell k => s.waitTime k ((s.ctx c).regs.getS f.ra.val + f.imm).toNat
      | .zen _ _ => s))

/-- A cell stops issuing and goes into HALTING; `bar` is the counter that its becoming IDLE advances (R281, R276). -/
def State.halting (s : State) (k : CellId) (bar : Option Nat) : State :=
  (s.setCell k { s.cell k with haltBar := bar, wait := none, stopReq := 0, line := none, held := none }).setRun k stHalting 0 0

/-- ctl.halt. -/
def execCtlHalt (c : Ctx) (p : Pred) (f : FmtS) (s : State) : Host.Outcome State Fault Refusal :=
  let i := Instr.ctlHalt c p f
  .next (s.issueSeq c p i (f = { fmtS0 with bar := f.bar, bare := f.bare }) [] []
    (if f.bare && decide (s.nbar (s.part c) ≤ f.bar.val) then s.refuseIssue c 0xC i
    else match c with
      | .cell k => (s.step1 c).halting k (if f.bare then some f.bar.val else none)
      | .zen _ _ => s))

/-- CELL_HALT_COMPLETE (R281, R276): nothing issued is left to retire. -/
def execCellHaltComplete (c : CellId) (s : State) : Host.Outcome State Fault Refusal :=
  let x := s.cell c
  .next
    (if s.runState c = stHalting && x.unretired.isEmpty then
      let s1 := (s.setCell c { x with haltBar := none }).setRun c stIdle 0 0
      match x.haltBar with
      | some b => s1.barAdvance (s.part (.cell c)) b 1
      | none => s1
    else s)

/-- CELL_STOP (R65, R282): a requested stop takes effect at an instruction boundary. A wait that is interrupted is to
issue again, so the PC goes back to it. -/
def State.stopCell (s : State) (c : CellId) : State :=
  let x := s.cell c
  let st := s.runState c
  if x.stopReq != 0 && (st = stRun || st = stWaitBar || st = stWaitTime) then
    let s1 := if st = stRun then s else s.setPc (.cell c) (s.pc (.cell c) + 2 ^ 48 - 16)
    (s1.setCell c { s1.cell c with stopReq := 0, wait := none, line := none, held := none }).setRun c stStopped x.stopReq 0
  else s

def execCellStop (c : CellId) (s : State) : Host.Outcome State Fault Refusal := .next (s.stopCell c)

/-- BARRIER_WAIT_END (R285). -/
def execBarrierWaitEnd (c : CellId) (s : State) : Host.Outcome State Fault Refusal :=
  let x := s.cell c
  .next
    (match x.wait with
    | some (.bar k n) =>
      if s.runState c = stWaitBar && decide (n ≤ s.barVal (s.part (.cell c)) k) then
        ((s.setCell c { x with wait := none }).wake c).setRun c stRun 0 0
      else s
    | _ => s)

/-- TIME_WAIT_END (R286). -/
def execTimeWaitEnd (c : CellId) (s : State) : Host.Outcome State Fault Refusal :=
  let x := s.cell c
  .next
    (match x.wait with
    | some (.time t) =>
      if s.runState c = stWaitTime && decide (t ≤ (s.nsAt c.die.val).toNat) then
        ((s.setCell c { x with wait := none }).wake c).setRun c stRun 0 0
      else s
    | _ => s)

end Sys2Proof.Machine
end

