-- ==== Sys2Proof/Machine/Scal.lean ====
section
/-! DEFINITION. The scalar instructions (R293-R295). -/

namespace Sys2Proof.Machine

/-! Integer, predicate and access instructions. -/

/-- The fields of an instruction with destination RD, source RA and operand b (R293). -/
def binFields (f : FmtS) : Bool :=
  f = { fmtS0 with rd := f.rd, ra := f.ra, rb := f.rb, imm := f.imm } && (f.rb = 0 || f.imm = 0)

/-- Issue of RD := op(s[RA], b). -/
def State.scalBin (s : State) (c : Ctx) (p : Pred) (i : Instr) (f : FmtS) (op : W64 → W64 → W64) : State :=
  let r := (s.ctx c).regs
  s.issueSeq c p i (binFields f) [f.rd.val, f.ra.val, f.rb.val] []
    ((s.putS c f.rd.val (op (r.getS f.ra.val) (scalB r f.rb.val f.imm))).step1 c)

/-- The fields of a comparison with operand b. -/
def cmpFields (f : FmtS) : Bool :=
  f = { fmtS0 with pd := f.pd, ra := f.ra, rb := f.rb, imm := f.imm } && (f.rb = 0 || f.imm = 0)

/-- Issue of PD := s[RA] ⊙ b. -/
def State.scalCmp (s : State) (c : Ctx) (p : Pred) (i : Instr) (f : FmtS) (op : W64 → W64 → Bool) : State :=
  let r := (s.ctx c).regs
  s.issueSeq c p i (cmpFields f) [f.ra.val, f.rb.val] [f.pd.val]
    ((s.putP c f.pd.val (op (r.getS f.ra.val) (scalB r f.rb.val f.imm))).step1 c)

/-- Issue of PD := op(p[PA], p[IMM]). -/
def State.scalPred (s : State) (c : Ctx) (p : Pred) (i : Instr) (f : FmtS) (two : Bool) (op : Bool → Bool → Bool) : State :=
  let r := (s.ctx c).regs
  let f0 : FmtS := { fmtS0 with pd := f.pd, pa := f.pa }
  let ok : Bool := if two then f = { f0 with imm := f.imm } && f.imm.toNat < 8 else f = f0
  let q := f.imm.toNat % 8
  s.issueSeq c p i ok [] ([f.pd.val, f.pa.val] ++ (if two then [q] else []))
    ((s.putP c f.pd.val (op (r.getP f.pa.val) (r.getP q))).step1 c)

/-- scal.li. -/
def execScalLi (c : Ctx) (p : Pred) (f : FmtS) (s : State) : Host.Outcome State Fault Refusal :=
  .next (s.issueSeq c p (.scalLi c p f) (f = { fmtS0 with rd := f.rd, imm := f.imm }) [f.rd.val] []
    ((s.putS c f.rd.val f.imm).step1 c))

/-- scal.add. -/
def execScalAdd (c : Ctx) (p : Pred) (f : FmtS) (s : State) : Host.Outcome State Fault Refusal :=
  .next (s.scalBin c p (.scalAdd c p f) f (fun a b => a + b))

/-- scal.sub. -/
def execScalSub (c : Ctx) (p : Pred) (f : FmtS) (s : State) : Host.Outcome State Fault Refusal :=
  .next (s.scalBin c p (.scalSub c p f) f (fun a b => a - b))

/-- scal.mul. -/
def execScalMul (c : Ctx) (p : Pred) (f : FmtS) (s : State) : Host.Outcome State Fault Refusal :=
  .next (s.scalBin c p (.scalMul c p f) f (fun a b => a * b))

/-- scal.and. -/
def execScalAnd (c : Ctx) (p : Pred) (f : FmtS) (s : State) : Host.Outcome State Fault Refusal :=
  .next (s.scalBin c p (.scalAnd c p f) f (fun a b => a &&& b))

/-- scal.or. -/
def execScalOr (c : Ctx) (p : Pred) (f : FmtS) (s : State) : Host.Outcome State Fault Refusal :=
  .next (s.scalBin c p (.scalOr c p f) f (fun a b => a ||| b))

/-- scal.xor. -/
def execScalXor (c : Ctx) (p : Pred) (f : FmtS) (s : State) : Host.Outcome State Fault Refusal :=
  .next (s.scalBin c p (.scalXor c p f) f (fun a b => a ^^^ b))

/-- scal.shl. -/
def execScalShl (c : Ctx) (p : Pred) (f : FmtS) (s : State) : Host.Outcome State Fault Refusal :=
  .next (s.scalBin c p (.scalShl c p f) f (fun a b => a <<< (b.toNat % 64)))

/-- scal.shr. -/
def execScalShr (c : Ctx) (p : Pred) (f : FmtS) (s : State) : Host.Outcome State Fault Refusal :=
  .next (s.scalBin c p (.scalShr c p f) f (fun a b => a >>> (b.toNat % 64)))

/-- scal.sra. -/
def execScalSra (c : Ctx) (p : Pred) (f : FmtS) (s : State) : Host.Outcome State Fault Refusal :=
  .next (s.scalBin c p (.scalSra c p f) f (fun a b => a.sshiftRight (b.toNat % 64)))

/-- scal.min, signed. -/
def execScalMin (c : Ctx) (p : Pred) (f : FmtS) (s : State) : Host.Outcome State Fault Refusal :=
  .next (s.scalBin c p (.scalMin c p f) f (fun a b => if sLt b a then b else a))

/-- scal.max, signed. -/
def execScalMax (c : Ctx) (p : Pred) (f : FmtS) (s : State) : Host.Outcome State Fault Refusal :=
  .next (s.scalBin c p (.scalMax c p f) f (fun a b => if sLt a b then b else a))

/-- scal.cmp.eq. -/
def execScalCmpEq (c : Ctx) (p : Pred) (f : FmtS) (s : State) : Host.Outcome State Fault Refusal :=
  .next (s.scalCmp c p (.scalCmpEq c p f) f (fun a b => a = b))

/-- scal.cmp.ne. -/
def execScalCmpNe (c : Ctx) (p : Pred) (f : FmtS) (s : State) : Host.Outcome State Fault Refusal :=
  .next (s.scalCmp c p (.scalCmpNe c p f) f (fun a b => a != b))

/-- scal.cmp.lt, signed. -/
def execScalCmpLt (c : Ctx) (p : Pred) (f : FmtS) (s : State) : Host.Outcome State Fault Refusal :=
  .next (s.scalCmp c p (.scalCmpLt c p f) f sLt)

/-- scal.cmp.le, signed. -/
def execScalCmpLe (c : Ctx) (p : Pred) (f : FmtS) (s : State) : Host.Outcome State Fault Refusal :=
  .next (s.scalCmp c p (.scalCmpLe c p f) f sLe)

/-- scal.cmp.ltu, unsigned. -/
def execScalCmpLtu (c : Ctx) (p : Pred) (f : FmtS) (s : State) : Host.Outcome State Fault Refusal :=
  .next (s.scalCmp c p (.scalCmpLtu c p f) f (fun a b => a.toNat < b.toNat))

/-- scal.cmp.leu, unsigned. -/
def execScalCmpLeu (c : Ctx) (p : Pred) (f : FmtS) (s : State) : Host.Outcome State Fault Refusal :=
  .next (s.scalCmp c p (.scalCmpLeu c p f) f (fun a b => a.toNat ≤ b.toNat))

/-- scal.pmov. -/
def execScalPmov (c : Ctx) (p : Pred) (f : FmtS) (s : State) : Host.Outcome State Fault Refusal :=
  .next (s.scalPred c p (.scalPmov c p f) f false (fun a _ => a))

/-- scal.pnot. -/
def execScalPnot (c : Ctx) (p : Pred) (f : FmtS) (s : State) : Host.Outcome State Fault Refusal :=
  .next (s.scalPred c p (.scalPnot c p f) f false (fun a _ => !a))

/-- scal.pand. -/
def execScalPand (c : Ctx) (p : Pred) (f : FmtS) (s : State) : Host.Outcome State Fault Refusal :=
  .next (s.scalPred c p (.scalPand c p f) f true (fun a b => a && b))

/-- scal.por. -/
def execScalPor (c : Ctx) (p : Pred) (f : FmtS) (s : State) : Host.Outcome State Fault Refusal :=
  .next (s.scalPred c p (.scalPor c p f) f true (fun a b => a || b))

/-- A descriptor field that an IMM selector names (R295): lowest bit and width. -/
def descSel (n : Nat) : Option (Nat × Nat) :=
  match n with
  | 0x00 => some (0, 48)
  | 0x01 => some (48, 6)
  | 0x02 => some (54, 1)
  | 0x03 => some (55, 3)
  | 0x04 => some (58, 4)
  | 0x05 => some (64, 20)
  | 0x06 => some (84, 20)
  | 0x07 => some (104, 20)
  | 0x08 => some (128, 20)
  | 0x09 => some (124, 1)
  | 0x0A => some (148, 8)
  | 0x0B => some (160, 32)
  | 0x0C => some (192, 32)
  | 0x0D => some (224, 32)
  | 0x10 => some (0, 64)
  | 0x11 => some (64, 64)
  | 0x12 => some (128, 64)
  | 0x13 => some (192, 64)
  | _ => none

/-- The reserved bits of a descriptor (R271) are 0. -/
def descRsvOk (d : Desc) : Bool := (descV d).rsv

/-- A descriptor with field (lowest bit, width) replaced. -/
def descPut (d : Desc) (sel : Nat × Nat) (v : Nat) : Desc := BitVec.ofNat 256 (bitsPut d.toNat (sel.1 + sel.2 - 1) sel.1 v)

/-- Write a descriptor register of a context. -/
def State.putD (s : State) (c : Ctx) (n : Nat) (v : Desc) : State :=
  s.setCtx c { s.ctx c with regs := (s.ctx c).regs.setD n v }

/-- scal.dget. -/
def execScalDget (c : Ctx) (p : Pred) (f : FmtS) (s : State) : Host.Outcome State Fault Refusal :=
  let sel := descSel f.imm.toNat
  .next (s.issueSeq c p (.scalDget c p f) (f = { fmtS0 with rd := f.rd, dn := f.dn, imm := f.imm } && sel.isSome)
    [f.rd.val] []
    (match sel with
    | some q =>
      ((s.putS c f.rd.val (BitVec.ofNat 64 (bitsOf ((s.ctx c).regs.getD f.dn.val).toNat (q.1 + q.2 - 1) q.1))).step1 c)
    | none => s))

/-- The words of a descriptor that a word selector writes keep every reserved bit 0 (R295). -/
def wordRsvOk (sel : Nat × Nat) (v : W64) : Bool := sel.2 != 64 || descRsvOk (descPut 0 sel v.toNat)

/-- scal.dset. -/
def execScalDset (c : Ctx) (p : Pred) (f : FmtS) (s : State) : Host.Outcome State Fault Refusal :=
  let i := Instr.scalDset c p f
  let sel := descSel f.imm.toNat
  let v := (s.ctx c).regs.getS f.ra.val
  .next (s.issueSeq c p i (f = { fmtS0 with dn := f.dn, ra := f.ra, imm := f.imm } && sel.isSome) [f.ra.val] []
    (match sel with
    | some q =>
      if !wordRsvOk q v then s.refuseIssue c 2 i
      else if 2 ^ q.2 ≤ v.toNat then s.refuseIssue c 7 i
      else (s.putD c f.dn.val (descPut ((s.ctx c).regs.getD f.dn.val) q v.toNat)).step1 c
    | none => s))

/-- scal.rdtime. -/
def execScalRdtime (c : Ctx) (p : Pred) (f : FmtS) (s : State) : Host.Outcome State Fault Refusal :=
  .next (s.issueSeq c p (.scalRdtime c p f) (f = { fmtS0 with rd := f.rd }) [f.rd.val] []
    ((s.putS c f.rd.val (s.nsAt (ctxDie c))).step1 c))

/-- scal.rdbar. -/
def execScalRdbar (c : Ctx) (p : Pred) (f : FmtS) (s : State) : Host.Outcome State Fault Refusal :=
  let i := Instr.scalRdbar c p f
  .next (s.issueSeq c p i (f = { fmtS0 with rd := f.rd, bar := f.bar }) [f.rd.val] []
    (if s.nbar (s.part c) ≤ f.bar.val then s.refuseIssue c 0xC i
    else (s.putS c f.rd.val (BitVec.ofNat 64 (s.barVal (s.part c) f.bar.val))).step1 c))

/-! Floating-point instructions (R294). NaN events carry SRC 0x6 and ELEM 0. -/

/-- FMT of a scalar floating-point instruction: FP32 or FP64. -/
def scalFmtOk (n : Nat) : Bool := n = fmtFP32 || n = fmtFP64

/-- A floating-point result into RD: conversions counted and NaN events recorded at once, the PC moves on. -/
def State.scalDone (s : State) (c : Ctx) (i : Instr) (rd : Nat) (r : Conv) (e : Option NanEvt) : State :=
  let pc := s.pc c
  (((s.putS c rd (BitVec.ofNat 64 r.bits)).countConv c r.sat r.ovf).step1 c).nanEvents c i pc (2 * (s.ctx c).seqno) (e.map (s.scalEvt c)) 1

/-- Issue of RD := op(s[RA], s[RB]). -/
def State.scalF2 (s : State) (c : Ctx) (p : Pred) (i : Instr) (f : FmtS) (op : Val → Val → XR) : State :=
  let r := (s.ctx c).regs
  let k := f.fmt.val
  let a := scalVal k (r.getS f.ra.val)
  let b := scalVal k (r.getS f.rb.val)
  let x := op a b
  s.issueSeq c p i (f = { fmtS0 with rd := f.rd, ra := f.ra, rb := f.rb, fmt := f.fmt }) [f.rd.val, f.ra.val, f.rb.val] []
    (if !scalFmtOk k then s.refuseIssue c 7 i
    else s.scalDone c i f.rd.val (scalRound k (s.ovf c) x)
      (if isNanX x then
        some (nanOp 6 k k (scalBits k (r.getS f.ra.val)) k (scalBits k (r.getS f.rb.val)) 0 (a.isNan || b.isNan))
      else none))

/-- scal.ffma: the addend is s[RD]. -/
def execScalFfma (c : Ctx) (p : Pred) (f : FmtS) (s : State) : Host.Outcome State Fault Refusal :=
  let i := Instr.scalFfma c p f
  let r := (s.ctx c).regs
  let k := f.fmt.val
  let a := scalVal k (r.getS f.ra.val)
  let b := scalVal k (r.getS f.rb.val)
  let d := scalVal k (r.getS f.rd.val)
  let x := ((a.mul b).add d).toXR
  .next (s.issueSeq c p i (f = { fmtS0 with rd := f.rd, ra := f.ra, rb := f.rb, fmt := f.fmt })
    [f.rd.val, f.ra.val, f.rb.val] []
    (if !scalFmtOk k then s.refuseIssue c 7 i
    else s.scalDone c i f.rd.val (scalRound k (s.ovf c) x)
      (if isNanX x then
        some (nanOp 6 k k (scalBits k (r.getS f.ra.val)) k (scalBits k (r.getS f.rb.val)) 0
          (a.isNan || b.isNan || d.isNan))
      else none)))

/-- scal.fsqrt. -/
def execScalFsqrt (c : Ctx) (p : Pred) (f : FmtS) (s : State) : Host.Outcome State Fault Refusal :=
  let i := Instr.scalFsqrt c p f
  let k := f.fmt.val
  let w := (s.ctx c).regs.getS f.ra.val
  let x := (scalVal k w).sqrtX
  .next (s.issueSeq c p i (f = { fmtS0 with rd := f.rd, ra := f.ra, fmt := f.fmt }) [f.rd.val, f.ra.val] []
    (if !scalFmtOk k then s.refuseIssue c 7 i
    else s.scalDone c i f.rd.val (scalRound k (s.ovf c) x)
      (if isNanX x then some (nanOp 6 k k (scalBits k w) fmtNone 0 0 (scalVal k w).isNan) else none)))

/-- Issue of PD := s[RA] ⊙ s[RB] under R63; a NaN operand is a NaN event and gives 0. DESIGN CHOICE (log entry 74): the result is a
predicate, which has no format code, so FMT_R of the event is 0x3F. -/
def State.scalFcmp (s : State) (c : Ctx) (p : Pred) (i : Instr) (f : FmtS) (code : Nat) : State :=
  let r := (s.ctx c).regs
  let k := f.fmt.val
  let a := scalVal k (r.getS f.ra.val)
  let b := scalVal k (r.getS f.rb.val)
  s.issueSeq c p i (f = { fmtS0 with pd := f.pd, ra := f.ra, rb := f.rb, fmt := f.fmt }) [f.ra.val, f.rb.val] [f.pd.val]
    (if !scalFmtOk k then s.refuseIssue c 7 i
    else ((s.putP c f.pd.val (cmpVal code a b)).step1 c).nanEvents c i (s.pc c) (2 * (s.ctx c).seqno)
      (if a.isNan || b.isNan then
        some (s.scalEvt c (nanOp 6 fmtNone k (scalBits k (r.getS f.ra.val)) k (scalBits k (r.getS f.rb.val)) 0 true))
      else none) 1)

/-- scal.i2f. -/
def execScalI2f (c : Ctx) (p : Pred) (f : FmtS) (s : State) : Host.Outcome State Fault Refusal :=
  let i := Instr.scalI2f c p f
  let k := f.fmt.val
  .next (s.issueSeq c p i (f = { fmtS0 with rd := f.rd, ra := f.ra, fmt := f.fmt }) [f.rd.val, f.ra.val] []
    (if !scalFmtOk k then s.refuseIssue c 7 i
    else s.scalDone c i f.rd.val (scalRound k (s.ovf c) (Dy.ofInt ((s.ctx c).regs.getS f.ra.val).toInt).toXR) none))

/-- The INT64 that scal.f2i gives and whether it was clamped (R294). -/
def f2i (v : Val) : Int × Bool :=
  match v with
  | .nan => (0, false)
  | .inf n => (if n then -(2 ^ 63 : Nat) else (2 ^ 63 - 1 : Nat), true)
  | .fin d =>
    let r := roundInt d.toXR 64
    let c := max (-(2 ^ 63 : Nat) : Int) (min ((2 ^ 63 - 1 : Nat) : Int) r)
    (c, c != r)

/-- scal.f2i. -/
def execScalF2i (c : Ctx) (p : Pred) (f : FmtS) (s : State) : Host.Outcome State Fault Refusal :=
  let i := Instr.scalF2i c p f
  let k := f.fmt.val
  let w := (s.ctx c).regs.getS f.ra.val
  let r := f2i (scalVal k w)
  .next (s.issueSeq c p i (f = { fmtS0 with rd := f.rd, ra := f.ra, fmt := f.fmt }) [f.rd.val, f.ra.val] []
    (if !scalFmtOk k then s.refuseIssue c 7 i
    else s.scalDone c i f.rd.val ⟨unsigned 64 r.1, bnat r.2, 0⟩
      (if (scalVal k w).isNan then some (nanOp 6 fmtNone k (scalBits k w) fmtNone 0 0 true) else none)))

/-- scal.fcvt: from the other of FP32 and FP64 into FMT. -/
def execScalFcvt (c : Ctx) (p : Pred) (f : FmtS) (s : State) : Host.Outcome State Fault Refusal :=
  let i := Instr.scalFcvt c p f
  let k := f.fmt.val
  let src := if k = fmtFP32 then fmtFP64 else fmtFP32
  let w := (s.ctx c).regs.getS f.ra.val
  let x := (scalVal src w).toXR
  .next (s.issueSeq c p i (f = { fmtS0 with rd := f.rd, ra := f.ra, fmt := f.fmt }) [f.rd.val, f.ra.val] []
    (if !scalFmtOk k then s.refuseIssue c 7 i
    else s.scalDone c i f.rd.val (scalRound k (s.ovf c) x)
      (if isNanX x then some (nanOp 6 k src (scalBits src w) fmtNone 0 0 true) else none)))

/-- scal.fadd. -/
def execScalFadd (c : Ctx) (p : Pred) (f : FmtS) (s : State) : Host.Outcome State Fault Refusal :=
  .next (s.scalF2 c p (.scalFadd c p f) f (fun a b => (a.add b).toXR))

/-- scal.fsub. -/
def execScalFsub (c : Ctx) (p : Pred) (f : FmtS) (s : State) : Host.Outcome State Fault Refusal :=
  .next (s.scalF2 c p (.scalFsub c p f) f (fun a b => (a.sub b).toXR))

/-- scal.fmul. -/
def execScalFmul (c : Ctx) (p : Pred) (f : FmtS) (s : State) : Host.Outcome State Fault Refusal :=
  .next (s.scalF2 c p (.scalFmul c p f) f Val.mulX)

/-- scal.fdiv. -/
def execScalFdiv (c : Ctx) (p : Pred) (f : FmtS) (s : State) : Host.Outcome State Fault Refusal :=
  .next (s.scalF2 c p (.scalFdiv c p f) f Val.divX)

/-- scal.fmax. -/
def execScalFmax (c : Ctx) (p : Pred) (f : FmtS) (s : State) : Host.Outcome State Fault Refusal :=
  .next (s.scalF2 c p (.scalFmax c p f) f (fun a b => (a.max b).toXR))

/-- scal.fmin. -/
def execScalFmin (c : Ctx) (p : Pred) (f : FmtS) (s : State) : Host.Outcome State Fault Refusal :=
  .next (s.scalF2 c p (.scalFmin c p f) f (fun a b => (a.min b).toXR))

/-- scal.fcmp.eq. -/
def execScalFcmpEq (c : Ctx) (p : Pred) (f : FmtS) (s : State) : Host.Outcome State Fault Refusal :=
  .next (s.scalFcmp c p (.scalFcmpEq c p f) f 0)

/-- scal.fcmp.lt. -/
def execScalFcmpLt (c : Ctx) (p : Pred) (f : FmtS) (s : State) : Host.Outcome State Fault Refusal :=
  .next (s.scalFcmp c p (.scalFcmpLt c p f) f 2)

/-- scal.fcmp.le. -/
def execScalFcmpLe (c : Ctx) (p : Pred) (f : FmtS) (s : State) : Host.Outcome State Fault Refusal :=
  .next (s.scalFcmp c p (.scalFcmpLe c p f) f 3)

end Sys2Proof.Machine
end

