-- ==== Sys2Proof/Machine/Trans.lean ====
section
/-! DEFINITION. exp, exp2, ln and log2 as exact results (R192): a positive or negative real enclosed by integer intervals
that are refined until its floors are certain. Arguments at which the result is dyadic are answered exactly; at every other
argument used here the result is irrational, so the refinement ends. -/

namespace Sys2Proof

/-- A real enclosed to any precision: `iv q = (lo, hi)` with lo ≤ x · 2^q ≤ hi. -/
abbrev Encl := Nat → Int × Int

/-- Σ over i ≥ 1 of 2^q / (i · 2^i), `n` terms: ln 2 at q bits, short by at most n + 1 units. -/
def ln2Sum (q i n : Nat) : Nat :=
  match n with
  | 0 => 0
  | k + 1 => 2 ^ q / (i * 2 ^ i) + ln2Sum q (i + 1) k

/-- ln 2 enclosed. -/
def ln2Encl : Encl := fun q =>
  let w := q + 32
  let s := ln2Sum w 1 w
  (s / 2 ^ 32, s / 2 ^ 32 + 1 + 1)

/-- Taylor terms of exp at q bits: `t` is the term with index i, `r` the argument. -/
def expSum (q r t i n : Nat) : Nat :=
  match n with
  | 0 => t
  | k + 1 => t + expSum q r (t * r / (i * 2 ^ q)) (i + 1) k

/-- exp of an enclosed argument in [0, 1): (lo, hi) at q bits. The terms and the argument are each short by a few units, far
fewer than the 2^16 allowed at q + 32 bits. -/
def expEncl (r : Encl) : Encl := fun q =>
  let w := q + 32
  let a := (r w).1.toNat
  let s := expSum w a (2 ^ w) 1 w
  (((s - 2 ^ 16) / 2 ^ 32 : Nat), ((s + 2 ^ 16) / 2 ^ 32 + 1 : Nat))

/-- ⌊d · 2^q⌋ of a dyadic. -/
def Dy.floorAt (d : Dy) (q : Nat) : Int :=
  let k := d.e + q
  if 0 ≤ k then d.m * (2 ^ k.toNat : Nat) else d.m / (2 ^ (-k).toNat : Nat)

/-- A dyadic enclosed. -/
def Dy.encl (d : Dy) : Encl := fun q => (d.floorAt q, d.floorAt q + 1)

/-- Sum of enclosures. -/
def addEncl (a b : Encl) : Encl := fun q => ((a q).1 + (b q).1, (a q).2 + (b q).2)

/-- An enclosure times an integer. -/
def mulIntEncl (a : Encl) (n : Int) : Encl := fun q =>
  if 0 ≤ n then ((a q).1 * n, (a q).2 * n) else ((a q).2 * n, (a q).1 * n)

/-- Odd powers of y over odd numbers, at q bits: `t` is y^(2i+1). -/
def atanhSum (q y2 t i n : Nat) : Nat :=
  match n with
  | 0 => t / i
  | k + 1 => t / i + atanhSum q y2 (t * y2 / 2 ^ q) (i + 2) k

/-- ln of the rational f / 2^b in [1, 2), from 2 · atanh((f − 2^b) / (f + 2^b)). -/
def lnFrac (f b : Nat) : Encl := fun q =>
  let w := q + 32
  let y := (f - 2 ^ b) * 2 ^ w / (f + 2 ^ b)
  let s := 2 * atanhSum w (y * y / 2 ^ w) y 1 w
  (((s - 2 ^ 16) / 2 ^ 32 : Nat), ((s + 2 ^ 16) / 2 ^ 32 + 1 : Nat))

/-- The quotient of two positive enclosures. -/
def divEncl (a b : Encl) : Encl := fun q =>
  let w := q + 16
  let x := a w
  let y := b w
  (max 0 (x.1 * (2 ^ q : Nat) / max y.2 1), x.2 * (2 ^ q : Nat) / max y.1 1 + 1)

/-- The sign of an enclosed non-zero real. -/
def signEncl (x : Encl) (q fuel : Nat) : Bool :=
  match fuel with
  | 0 => (x q).1 < 0
  | n + 1 => if 0 < (x q).1 then false else if (x q).2 < 0 then true else signEncl x (2 * q) n

/-- The magnitude bounds of an enclosed real. -/
def absEncl (x : Encl) : Nat → Nat × Nat := fun q =>
  let a := (x q).1.natAbs
  let b := (x q).2.natAbs
  (min a b, max a b)

/-- ⌊log₂⌋ of an enclosed magnitude, the precision doubled until it is certain. -/
def exEncl (x : Nat → Nat × Nat) (q fuel : Nat) : Int :=
  let v := x q
  match fuel with
  | 0 => (Nat.log2 v.1 : Int) - q
  | n + 1 => if v.1 != 0 && Nat.log2 v.1 = Nat.log2 v.2 then (Nat.log2 v.1 : Int) - q else exEncl x (2 * q) n

/-- ⌊x · 2^k⌋ of an enclosed magnitude, the precision doubled until it is certain. -/
def flEncl (x : Nat → Nat × Nat) (k : Int) (q fuel : Nat) : Nat :=
  let v := x q
  let a := (shiftFl v.1 (k - q)).1
  match fuel with
  | 0 => a
  | n + 1 => if a = (shiftFl v.2 (k - q)).1 then a else flEncl x k (2 * q) n

/-- An enclosed irrational real as an exact result. -/
def enclXR (x : Encl) : XR :=
  let m := absEncl x
  .num (signEncl x 64 12) ⟨exEncl m 64 12, fun k => (flEncl m k (64 + k.toNat) 12, false)⟩

/-- A magnitude far above every format. -/
def hugeMag : Mag := ⟨100000, fun _ => (0, false)⟩

/-- A magnitude far below every format. -/
def tinyMag : Mag := ⟨-100000, fun _ => (0, false)⟩

/-- 2^n · exp(r) for an enclosed r in [0, 1). -/
def scaledExp (r : Encl) (n : Int) : XR :=
  match enclXR (expEncl r) with
  | .num s m => .num s (m.scale n)
  | o => o

/-- e^d as an exact result. -/
def expX (v : Val) : XR :=
  match v with
  | .nan => .nan
  | .inf n => if n then .zero false else .inf false
  | .fin d =>
    if d.m = 0 then (Dy.ofInt 1).toXR
    else if 11 < d.ex then .num false (if d.m < 0 then tinyMag else hugeMag)
    else
      let l := (ln2Encl 64).1
      scaledExp' d (d.floorAt 64 / l - 1)
where
  /-- e^d = 2^n · e^(d − n · ln 2), with n one below the floor of d / ln 2; the argument is divided by 4 to stay
  below 1, and the result raised to the fourth power. -/
  scaledExp' (d : Dy) (n : Int) : XR :=
    let r := addEncl d.encl (mulIntEncl ln2Encl (-n))
    let half : Encl := fun q => ((r (q + 2)).1 / 16, (r (q + 2)).2 / 16 + 1)
    let h := expEncl half
    let pw : Encl := fun q =>
      let v := h (q + 16)
      let p := fun (x : Int) => x * x * (x * x)
      (p v.1 / (2 ^ (3 * (q + 16) + 16) : Nat), p v.2 / (2 ^ (3 * (q + 16) + 16) : Nat) + 1)
    match enclXR pw with
    | .num s m => .num s (m.scale n)
    | o => o

/-- 2^a as an exact result (R196). -/
def exp2X (v : Val) : XR :=
  match v with
  | .nan => .nan
  | .inf n => if n then .zero false else .inf false
  | .fin d =>
    if d.m = 0 then (Dy.ofInt 1).toXR
    else if 20 < d.ex then .num false (if d.m < 0 then tinyMag else hugeMag)
    else
      let n := d.floorAt 0
      let r := d.sub (Dy.ofInt n)
      if r.m = 0 then (Dy.mk 1 n).toXR
      else
        scaledExp (fun q =>
          let w := q + 200
          ((r.floorAt 200) * (ln2Encl w).1 / (2 ^ 400 : Nat), (r.floorAt 200) * (ln2Encl w).2 / (2 ^ 400 : Nat) + 1)) n

/-- A positive dyadic as f · 2^(E − b) with f / 2^b in [1, 2): (f, b, E). -/
def Dy.frac (d : Dy) : Nat × Nat × Int :=
  let f := d.m.natAbs
  (f, Nat.log2 f, d.ex)

/-- ln of a positive dyadic other than 1, enclosed. -/
def lnEncl (d : Dy) : Encl :=
  let x := d.frac
  addEncl (lnFrac x.1 x.2.1) (mulIntEncl ln2Encl x.2.2)

/-- log₂ a as an exact result (R62, R196). -/
def log2X (v : Val) : XR :=
  match v with
  | .nan => .nan
  | .inf n => if n then .nan else .inf false
  | .fin d =>
    if d.m < 0 then .nan
    else if d.m = 0 then .inf true
    else
      let x := d.frac
      if x.1 = 2 ^ x.2.1 then (Dy.ofInt x.2.2).toXR
      else enclXR (addEncl (divEncl (lnFrac x.1 x.2.1) ln2Encl) (Dy.ofInt x.2.2).encl)

/-- m + ln s as an exact result, rounded once by its user (R207). -/
def addLnX (m s : Val) : XR :=
  match m, s with
  | .nan, _ => .nan
  | _, .nan => .nan
  | .inf a, .inf b => if a || b then .nan else .inf false
  | .inf a, .fin d => if d.m < 0 then .nan else if d.m = 0 then (if a then .inf true else .nan) else .inf a
  | .fin _, .inf b => if b then .nan else .inf false
  | .fin x, .fin d =>
    if d.m < 0 then .nan
    else if d.m = 0 then .inf true
    else if d.eqv (Dy.ofInt 1) then x.toXR
    else enclXR (addEncl x.encl (lnEncl d))

/-- The value of a converted FP32 result. -/
def Conv.val (c : Conv) : Val := f32Val (BitVec.ofNat 32 c.bits)

/-- An exact positive result over a value (R62). -/
def XR.over (x : XR) (s : Val) : XR :=
  match x, s with
  | .nan, _ => .nan
  | _, .nan => .nan
  | .inf _, .inf _ => .nan
  | .inf n, .fin d => .inf (n != (d.m < 0 : Bool))
  | .zero _, .fin d => if d.m = 0 then .nan else .zero false
  | .zero _, .inf _ => .zero false
  | .num _ _, .inf _ => .zero false
  | .num n m, .fin d =>
    if d.m = 0 then .inf n
    else
      let q := d.m.natAbs
      let fl := fun k =>
        let v := m.fl (k - d.e)
        (v.1 / q, v.2 && v.1 % q = 0)
      if m.ex > 50000 || m.ex < -50000 then .num (n != (d.m < 0 : Bool)) m
      else .num (n != (d.m < 0 : Bool)) ⟨findEx fl (m.ex - d.ex + 1) 8, fl⟩

end Sys2Proof
end

