-- ==== Sys2Proof/Machine/Vec.lean ====
section
/-! DEFINITION. The vector engine (R189-R204, R302) on a cell and on the Zenith unit (R215). -/

namespace Sys2Proof.Machine

/-- Format V with every field 0. -/
def fmtV0 : FmtV := ⟨0, 0, 0, 0, 0, 0, 0, 0, 0, 0, 0, false, 0, 0, 0, 0, 0, 0, 0, 0, 0⟩

/-- One result element: its bits, what it counts (R70), and its NaN events. -/
structure El where
  bits : Nat
  sat  : Nat
  ovf  : Nat
  nans : List NanEvt

/-- A converted element without a NaN event. -/
def elOf (c : Conv) : El := ⟨c.bits, c.sat, c.ovf, []⟩

/-- SRC of a vector engine's NaN events: 0x3 on a cell, 0x5 on the Zenith unit (R302). -/
def vecSrc : Ctx → Nat
  | .cell _ => 3
  | .zen _ _ => 5

/-- What the NaN events of a list of elements bring to a retirement: the first, and their number. -/
def State.evts (s : State) (c : Ctx) (l : List El) : Option NanEvt × Nat :=
  let n := l.flatMap (·.nans)
  (n.head?.map fun e => { e with elem := s.elemIx c e.elem }, n.length)

/-- A tile instruction is performed: its tile is written, its conversions counted. -/
def State.tileDone (s : State) (c : Ctx) (j : Job) (td : Nat) (l : List El) (cc : Nat) : Perf :=
  let e := s.evts c l
  let s1 := s.setCtx c ((s.ctx c).setTile td (l.map fun x => BitVec.ofNat 32 x.bits))
  .done (s1.countConv c (l.foldl (fun a x => a + x.sat) 0) (l.foldl (fun a x => a + x.ovf) 0))
    { Flight.plain j with nan := e.1, nans := e.2, cc := cc }

/-- An element-wise result in FP32: rounded once, a NaN result is a NaN event (R62-R64). -/
def f32El (j : Job) (src : Nat) (a b : F32) (two other : Bool) (k : Nat) (x : XR) : El :=
  let c := toF32 j.ovf x
  if isNanX x then
    ⟨c.bits, 0, 0, [nanOp src fmtFP32 fmtFP32 a.toNat (if two then fmtFP32 else fmtNone) b.toNat k
      ((f32Val a).isNan || (two && (f32Val b).isNan) || other)]⟩
  else elOf c

/-- cc of a vector operation (R197). -/
def slowCc : Nat := 32
def fastCc : Nat := 8

/-- Every element of a tile instruction, in order. -/
def tileEls (g : Nat → El) : List El := (List.range 1024).map g

/-- One-operand operations on tile TA. -/
def perfVec1 (f : FmtV) (cc : Nat) (op : Val → XR) (j : Job) (c : Ctx) (s : State) : Perf :=
  let t := (s.ctx c).tile f.ta.val
  s.tileDone c j f.td.val (tileEls fun k => let a := t.getD k 0; f32El j (vecSrc c) a 0 false false k (op (f32Val a))) cc

/-- Operand B or C of element `k` (R195). -/
def State.vecSrcAt (s : State) (c : Ctx) (j : Job) (src idx k : Nat) : F32 :=
  vecOperand (s.ctx c) j.regs src idx (k / 32) (k % 32)

/-- Two-operand operations on tile TA and operand B. -/
def perfVec2 (f : FmtV) (cc : Nat) (op : Val → Val → XR) (j : Job) (c : Ctx) (s : State) : Perf :=
  let t := (s.ctx c).tile f.ta.val
  s.tileDone c j f.td.val (tileEls fun k =>
    let a := t.getD k 0
    let b := s.vecSrcAt c j f.bsrc.val f.bidx.val k
    f32El j (vecSrc c) a b true false k (op (f32Val a) (f32Val b))) cc

/-- The fields of operand B, or of none: a tile index has bits [4:3] zero (R277). -/
def srcOk (src : Fin 4) (idx : Fin 32) : Bool := src = 3 || idx.val < 8

/-- Scalars that an operand source reads. -/
def srcReads (src : Fin 4) (idx : Fin 32) : List Nat := if src = 3 then [idx.val] else []

/-- Fields TD, TA. -/
def vec1Fields (f : FmtV) : Bool := f = { fmtV0 with td := f.td, ta := f.ta }

/-- Fields TD, TA, B. -/
def vec2Fields (f : FmtV) : Bool :=
  f = { fmtV0 with td := f.td, ta := f.ta, bsrc := f.bsrc, bidx := f.bidx } && srcOk f.bsrc f.bidx

/-- Fields TD, TA, B, C. -/
def vec3Fields (f : FmtV) : Bool :=
  f = { fmtV0 with td := f.td, ta := f.ta, bsrc := f.bsrc, bidx := f.bidx, csrc := f.csrc, cidx := f.cidx } &&
    srcOk f.bsrc f.bidx && srcOk f.csrc f.cidx

/-- The queue of a vector instruction: the vector engine, or the one processor of the Zenith unit (R214). -/
def vecUnit : Ctx → UnitId
  | .cell _ => .vec
  | .zen _ _ => .zen

/-- Fused multiply-add (R196). -/
def perfVecFma (f : FmtV) (j : Job) (c : Ctx) (s : State) : Perf :=
  let t := (s.ctx c).tile f.ta.val
  s.tileDone c j f.td.val (tileEls fun k =>
    let a := t.getD k 0
    let b := s.vecSrcAt c j f.bsrc.val f.bidx.val k
    let d := f32Val (s.vecSrcAt c j f.csrc.val f.cidx.val k)
    f32El j (vecSrc c) a b true d.isNan k (((f32Val a).mul (f32Val b)).add d).toXR) fastCc

/-- vec.sel: the selected element moves bit for bit; a NaN in C is a NaN event (R196). -/
def perfVecSel (f : FmtV) (j : Job) (c : Ctx) (s : State) : Perf :=
  let t := (s.ctx c).tile f.ta.val
  s.tileDone c j f.td.val (tileEls fun k =>
    let a := t.getD k 0
    let b := s.vecSrcAt c j f.bsrc.val f.bidx.val k
    let d := f32Val (s.vecSrcAt c j f.csrc.val f.cidx.val k)
    if d.isNan then
      ⟨canonNan fmtFP32, 0, 0, [nanOp (vecSrc c) fmtFP32 fmtFP32 a.toNat fmtFP32 b.toNat k true]⟩
    else ⟨if d.isZero then b.toNat else a.toNat, 0, 0, []⟩) fastCc

/-- vec.cmp: 1.0 or +0; a NaN operand is a NaN event and compares false (R63, R196). -/
def perfVecCmp (f : FmtV) (j : Job) (c : Ctx) (s : State) : Perf :=
  let t := (s.ctx c).tile f.ta.val
  s.tileDone c j f.td.val (tileEls fun k =>
    let a := t.getD k 0
    let b := s.vecSrcAt c j f.bsrc.val f.bidx.val k
    let x := f32Val a
    let y := f32Val b
    ⟨if cmpVal f.cmp.val x y then 0x3F800000 else 0, 0, 0,
      if x.isNan || y.isNan then [nanOp (vecSrc c) fmtFP32 fmtFP32 a.toNat fmtFP32 b.toNat k true] else []⟩) fastCc

/-- vec.ldexp: n is the signed integer in bits [31:0] of s[RS]. -/
def perfVecLdexp (f : FmtV) (j : Job) (c : Ctx) (s : State) : Perf :=
  perfVec1 f fastCc (fun v => (v.scale (signed 32 (j.regs.getS f.rs.val).toNat)).toXR) j c s

/-- vec.rnd: convert into FMT and back to FP32 (R196). -/
def perfVecRnd (f : FmtV) (j : Job) (c : Ctx) (s : State) : Perf :=
  let q := f.fmt.val
  if !fmtAssigned q || q = fmtE8M0 then .refuse 7 s
  else
    let t := (s.ctx c).tile f.ta.val
    s.tileDone c j f.td.val (tileEls fun k =>
      let a := t.getD k 0
      let v := f32Val a
      let r := convert j.tabs j.ovf q v.toXR
      ⟨(toF32 j.ovf (elemVal j.tabs q r.bits).toXR).bits, r.sat, r.ovf,
        if v.isNan then [nanOp (vecSrc c) q fmtFP32 a.toNat fmtNone 0 k true] else []⟩) fastCc

/-- vec.mov. -/
def perfVecMov (f : FmtV) (j : Job) (c : Ctx) (s : State) : Perf :=
  let t := (s.ctx c).tile f.ta.val
  s.tileDone c j f.td.val (tileEls fun k => ⟨(t.getD k 0).toNat, 0, 0, []⟩) fastCc

/-- The exact sum of R193: NaN terms, infinities of both signs, or the exact sum of the finite terms. -/
def xsum (l : List Val) : Val := l.foldl Val.add (.fin ⟨0, 0⟩)

/-- The first infinite term of a list. -/
def firstInf (l : List F32) : F32 := (l.find? fun b => match f32Val b with
  | .inf _ => true
  | _ => false).getD 0

/-- One reduced element from its terms: every NaN term is an event, an invalid sum is one (R193, R63). DESIGN CHOICE (log entry 74):
the event of an invalid sum records the first infinite term as operand A and no operand B. -/
def reduceEl (j : Job) (src : Nat) (sum : Bool) (l : List F32) (k : Nat) : El :=
  let vs := l.map f32Val
  let bad := l.filter fun b => (f32Val b).isNan
  if !bad.isEmpty then
    ⟨canonNan fmtFP32, 0, 0, bad.map fun b => nanOp src fmtFP32 fmtFP32 b.toNat fmtNone 0 k true⟩
  else
    let v := if sum then xsum vs else (vs.drop 1).foldl Val.max (vs.headD .nan)
    if v.isNan then ⟨canonNan fmtFP32, 0, 0, [nanOp src fmtFP32 fmtFP32 (firstInf l).toNat fmtNone 0 k false]⟩
    else elOf (toF32 j.ovf v.toXR)

/-- Row and column reductions (R196): the result in column 0 or row 0, every other element +0. -/
def perfVecReduce (f : FmtV) (sum rows : Bool) (j : Job) (c : Ctx) (s : State) : Perf :=
  let t := (s.ctx c).tile f.ta.val
  s.tileDone c j f.td.val (tileEls fun k =>
    let i := k / 32
    let m := k % 32
    if rows then (if m = 0 then reduceEl j (vecSrc c) sum ((t.drop (32 * i)).take 32) k else ⟨0, 0, 0, []⟩)
    else if i = 0 then reduceEl j (vecSrc c) sum ((List.range 32).map fun r => t.getD (32 * r + m) 0) k
    else ⟨0, 0, 0, []⟩) fastCc

/-! Bytes that vector and row instructions cover (R191). -/

/-- Data and scale bytes of a descriptor register. -/
def descBytes (j : Job) (n : Nat) : List Run :=
  let d := descV (j.regs.getD n)
  d.runs j.tabs ++ d.scaleRuns (descV (j.regs.getD d.sdi))

/-- The bytes that a vector or row instruction reads. -/
def engineReads (j : Job) : List Run :=
  match j.ins with
  | .vecLd _ _ f => descBytes j f.ds.val
  | .rowSoftmax _ _ f | .rowNorm _ _ f | .rowRms _ _ f | .rowStld _ _ f => descBytes j f.ds.val
  | .rowSmbwd _ _ f | .rowNormbwd _ _ f => descBytes j f.ds.val ++ descBytes j f.dt.val
  | _ => []

/-- The bytes that a vector or row instruction writes. -/
def engineWrites (j : Job) : List Run :=
  match j.ins with
  | .vecSt _ _ f => descBytes j f.ds.val
  | .vecAcc _ _ f => if f.form = 3 then descBytes j f.ds.val else []
  | .rowSoftmax _ _ f | .rowSmbwd _ _ f | .rowNorm _ _ f | .rowRms _ _ f | .rowNormbwd _ _ f | .rowLse _ _ f
  | .rowStst _ _ f => descBytes j f.du.val
  | _ => []

/-- Whether two lists of ranges share a byte. -/
def runsMeet (a b : List Run) : Bool :=
  a.any fun x => b.any fun y => decide (x.1 < y.1 + y.2) && decide (y.1 < x.1 + x.2)

/-- Whether an earlier unretired instruction of the other engine holds a vector or row instruction (R191). -/
def CellCtx.engineHold (x : CellCtx) (j : Job) (other : UnitId) : Bool :=
  (x.unretired.filter fun k => k.unit = other && decide (k.seq < j.seq)).any fun k =>
    runsMeet (engineWrites k) (engineReads j ++ engineWrites j) || runsMeet (engineReads k) (engineWrites j)

/-! vec.acc (R198-R201). -/

/-- The value of a bank entry (R158, R198). -/
def entVal (form : BankForm) (e : AccEnt) : Val :=
  if e.nanf || (e.pinf && e.ninf) then .nan
  else if e.pinf then .inf false
  else if e.ninf then .inf true
  else match form with
    | .exact => .fin ⟨e.n, e.anch - 191⟩
    | .exact384 => .fin ⟨e.n, e.anch - 383⟩
    | .int32 => .fin ⟨e.n, 0⟩

/-- Form F32 and F32ADD of entry `k`: a NaN entry is no second event, a NaN addend is one (R198, R200). -/
def accEl (j : Job) (v : Val) (addend : Option F32) (k : Nat) : El :=
  match addend with
  | none => elOf (toF32 j.ovf v.toXR)
  | some a =>
    let x := (v.add (f32Val a)).toXR
    let ev := nanOp 3 fmtFP32 fmtNone 0 fmtFP32 a.toNat k (f32Val a).isNan
    let c := toF32 j.ovf x
    if (f32Val a).isNan || (isNanX x && !v.isNan) then ⟨c.bits, 0, 0, [ev]⟩ else elOf c

/-- Form TRIPLE of an entry: hi, mid, lo, and whether it is inexact (R201). -/
def accTriple (j : Job) (v : Val) : El × El × El × Bool :=
  let z : El := ⟨0, 0, 0, []⟩
  let h := toF32 j.ovf v.toXR
  match v with
  | .fin d =>
    if h.sat + h.ovf != 0 then (elOf h, z, z, true)
    else
      let sub := fun (x : Dy) (b : Nat) => match f32Val (BitVec.ofNat 32 b) with
        | .fin y => x.sub y
        | _ => x
      let r1 := sub d h.bits
      let m := toF32 j.ovf r1.toXR
      let r2 := sub r1 m.bits
      let l := toF32 j.ovf r2.toXR
      (elOf h, elOf m, elOf l, (sub r2 l.bits).m != 0)
  | _ => (elOf h, z, z, false)

/-- What vec.acc permits of its F64 descriptor (R198). -/
def accPermit : Permit := ⟨fun k => k = fmtFP64, 32, 32, false, true, true⟩

/-- The lowest cause that an F64 read fails with. -/
def State.accF64Fail (s : State) (c : Ctx) (j : Job) (f : FmtV) : Option Nat :=
  let d := descV (j.regs.getD f.ds.val)
  lowest [s.descFail (s.part c) j.tabs accPermit d d, failIf (d.grp != 0) 3, s.quotaFail c (d.runs j.tabs)]

/-- Whether an array instruction issued earlier that names bank `b` still waits for acceptance (R199). -/
def CellCtx.bankAhead (x : CellCtx) (j : Job) (b : Nat) : Bool :=
  x.waiting.any fun k => decide (k.seq < j.seq) &&
    match k.ins with
    | .duskMm _ _ f => b = (if f.mode.toNat.testBit 11 then 1 else 0)
    | .dawnMm _ _ f | .dawnMmt _ _ f => b = (if f.mode.toNat.testBit 11 then 3 else 2)
    | _ => false

/-- The entries of a bank in order. -/
def bankEnts (b : Bank) : List AccEnt := (List.range 1024).map fun k => SMap.get b.ents AccEnt.zero k

/-- A read of a bank begins: the bank becomes READING, its sticky entries are counted. -/
def State.readBank (s : State) (k : CellId) (b : Nat) : State :=
  (s.setBankSt k b bReading).count (R.CELL_VEC_STICKY_CNT k) ((bankEnts (s.bank k b)).filter (·.sticky)).length

/-- The F64 form stores its elements (R198). -/
def State.accStore (s : State) (k : CellId) (j : Job) (f : FmtV) (els : List El) : State :=
  let d := descV (j.regs.getD f.ds.val)
  s.each (List.range d.e1) fun s i =>
    s.writeRuns (.cell k) (s.part (.cell k)) (d.rowRuns j.tabs ⟨i, 0, 0⟩)
      (packElems 64 ((List.range d.e0).map fun m => ((els.map (·.bits)).getD (32 * i + m) 0)))

/-- vec.acc on an accepted bank. -/
def perfAccForm (f : FmtV) (k : CellId) (j : Job) (s : State) : Perf :=
  let c := Ctx.cell k
  let b := s.bank k f.bank.val
  let vs := (bankEnts b).map (entVal b.form)
  let fin := fun (r : Perf) => match r with
    | .done s' fl => Perf.done s' { fl with bank := some (f.bank.val, f.rel) }
    | o => o
  let s1 := s.readBank k f.bank.val
  match f.form with
  | 0 => fin (s1.tileDone c j f.td.val (vs.map fun v => accEl j v none 0) fastCc)
  | 1 =>
    let t := (s.cell k).tile f.tx.val
    fin (s1.tileDone c j f.td.val (vs.zipIdx.map fun v => accEl j v.1 (some (t.getD v.2 0)) v.2) fastCc)
  | 2 =>
    let tr := vs.map (accTriple j)
    let s2 := s1.count (R.CELL_VEC_INEX_CNT k) (tr.filter (·.2.2.2)).length
    let put := fun (s : State) (n : Nat) (l : List El) =>
      s.setCtx c ((s.ctx c).setTile n (l.map fun x => BitVec.ofNat 32 x.bits))
    let s3 := put (put s2 (f.td.val + 1) (tr.map (·.2.1))) (f.td.val + 2) (tr.map (·.2.2.1))
    fin (s3.tileDone c j f.td.val (tr.map (·.1)) fastCc)
  | _ =>
    let els := vs.map fun v => elOf (convert j.tabs j.ovf fmtFP64 v.toXR)
    let d := descV (j.regs.getD f.ds.val)
    let used := els.zipIdx.filter fun e => e.2 / 32 < d.e1 && e.2 % 32 < d.e0
    match s1.allocateAll (.cell k) (s.part c) (pagesOf (d.runs j.tabs)) with
    | none => .refuse 5 s
    | some s2 =>
      let s3 := (s2.resolve c (pagesOf (d.runs j.tabs))).accStore k j f els
      fin (.done (s3.countConv c (used.foldl (fun a e => a + e.1.sat) 0) (used.foldl (fun a e => a + e.1.ovf) 0))
        { Flight.plain j with cc := 16 })

/-- Whether a vec.acc waits on its bank (R199). -/
def State.bankWait (s : State) (k : CellId) (j : Job) (b : Nat) : Bool :=
  (s.cell k).bankAhead j b || s.bankSt k b = bFilling || s.bankSt k b = bReading

/-- Whether the vector engine of a cell waits on a bank in this cc (R199, R213). -/
def State.vecWaits (s : State) (k : CellId) : Bool :=
  match s.headJob (.cell k) .vec with
  | some j => (match j.ins with
    | .vecAcc _ _ f => s.bankWait k j f.bank.val
    | _ => false)
  | none => false

/-- vec.acc (R198, R199). -/
def perfVecAcc (f : FmtV) (j : Job) (c : Ctx) (s : State) : Perf :=
  match c with
  | .zen _ _ => .refuse 1 s
  | .cell k =>
    let st := s.bankSt k f.bank.val
    let store := if f.form = 3 then pagesOf ((descV (j.regs.getD f.ds.val)).runs j.tabs) else []
    if s.bankWait k j f.bank.val || (s.cell k).engineHold j .row || s.switching store then .wait
    else
      let fail := lowest [if f.form = 3 then s.accF64Fail c j f else none,
        failIf (f.form = 2 && decide (5 < f.td.val)) 7, failIf (st = bFree) 8]
      match fail with
      | some q => .refuse q s
      | none => perfAccForm f k j s

/-- The fields that vec.acc uses in each form. -/
def accFields (f : FmtV) : Bool :=
  let b : FmtV := { fmtV0 with bank := f.bank, form := f.form, rel := f.rel }
  f = if f.form = 1 then { b with td := f.td, tx := f.tx } else if f.form = 3 then { b with ds := f.ds } else { b with td := f.td }

/-! Loads and stores (R203, R204). -/

/-- What vec.ld permits of its source. -/
def ldPermit : Permit := ⟨fun k => k != fmtE8M0, 32, 32, false, true, false⟩

/-- cc of a transfer of the stored bytes of a descriptor. -/
def xferCc (d : DescV) (t : Tabs) : Nat := max 8 (cdiv (d.e1 * d.rowBytes t) 512)

/-- A loaded element as FP32; a NaN element or a NaN scale is a NaN event (R203). -/
def loadEl (j : Job) (f bits scale k : Nat) : El :=
  let v := scaledVal j.tabs f bits scale
  if v.isNan then
    ⟨canonNan fmtFP32, 0, 0, [if scale = 255 then ⟨3, 2, fmtFP32, fmtE8M0, fmtNone, 0, 0, k, 255, 0⟩
      else nanOp 3 fmtFP32 f bits fmtNone 0 k true]⟩
  else elOf (toF32 j.ovf v.toXR)

/-- The lowest cause that a vector or row descriptor fails with: R273, and ROWSCALE = 1, a flag that both engines forbid (R194,
R273). -/
def State.engineFail (s : State) (c : Ctx) (j : Job) (q : Permit) (n : Nat) : Option Nat :=
  let d := descV (j.regs.getD n)
  lowest [s.descFail (s.part c) j.tabs q d (descV (j.regs.getD d.sdi)), failIf d.group.rowscale 7]

/-- vec.ld. -/
def perfVecLd (f : FmtV) (j : Job) (c : Ctx) (s : State) : Perf :=
  if (s.ctx c).engineHold j .row then .wait
  else match s.engineFail c j ldPermit f.ds.val with
  | some q => .refuse q s
  | none =>
    let d := descV (j.regs.getD f.ds.val)
    let ds := descV (j.regs.getD d.sdi)
    if s.switching (pagesOf (d.runs j.tabs ++ d.scaleRuns ds)) then .wait else
    let r := s.unitRead c (d.runs j.tabs ++ d.scaleRuns ds)
    match r.2 with
    | some a => .done (r.1.uncorrectable (s.part c) a) (Flight.plain j)
    | none =>
      r.1.tileDone c j f.td.val (tileEls fun k =>
        let row : Row := ⟨k / 32, 0, 0⟩
        if k / 32 < d.e1 && k % 32 < d.e0 then
          loadEl j d.fmt (s.elemBits j.tabs d row (k % 32)) (s.scaleByte d ds row (k % 32)) k
        else ⟨0, 0, 0, []⟩) (xferCc d j.tabs)

/-- What vec.st permits of its destination: one tile, or the strip of its block length (R204). -/
def stPermit (d : DescV) : Permit :=
  let g := d.group
  ⟨fun k => k != fmtE8M0 && k != fmtFP64, if d.scaled && !g.dir then g.g else 32, if d.scaled && g.dir then g.g else 32,
    false, true, true⟩

/-- Element (i, m) of the strip of tiles that starts at tile `ta` (R204). -/
def stripAt (x : CellCtx) (ta : Nat) (dir : Bool) (i m : Nat) : F32 :=
  if dir then tileAt (x.tile (ta + i / 32)) (i % 32) m else tileAt (x.tile (ta + m / 32)) i (m % 32)

/-- The scale exponent of the block that holds element (i, m) of a stored strip (R82, R204). -/
def blockScale (t : Tabs) (d : DescV) (at' : Nat → Nat → F32) (i m : Nat) : Int :=
  let g := d.group
  let h := if g.dir then g.g else g.s
  let w := if g.dir then g.s else g.g
  let rows := (List.range h).map (· + i / h * h) |>.filter (· < d.e1)
  let cols := (List.range w).map (· + m / w * w) |>.filter (· < d.e0)
  chooseScale (amaxOf (rows.flatMap fun a => cols.map fun b => f32Val (at' a b))) (maxfinite t d.fmt)

/-- A stored element: a × 2^(−s) converted; a NaN is a NaN event. -/
def storeEl (j : Job) (src f : Nat) (a : F32) (sc : Int) (k : Nat) : El :=
  let v := f32Val a
  let c := convert j.tabs j.ovf f ((v.scale (-sc)).toXR)
  ⟨c.bits, c.sat, c.ovf, if v.isNan then [nanOp src f fmtFP32 a.toNat fmtNone 0 k true] else []⟩

/-- The scale bytes of a stored region: one run and its byte per block. -/
def scaleBytes (d ds : DescV) (sc : Nat → Nat → Int) : List (Run × Byte) :=
  if d.scaled then
    let g := d.group
    let h := if g.dir then g.g else g.s
    let w := if g.dir then g.s else g.g
    (List.range (cdiv d.e1 h)).flatMap fun a => (List.range (cdiv d.e0 w)).map fun b =>
      (d.scaleRun ds ⟨a * h, 0, 0⟩ (b * w), BitVec.ofInt 8 (sc (a * h) (b * w) + 127))
  else []

/-- vec.st. -/
def perfVecSt (f : FmtV) (j : Job) (c : Ctx) (s : State) : Perf :=
  let d := descV (j.regs.getD f.ds.val)
  let ds := descV (j.regs.getD d.sdi)
  if (s.ctx c).engineHold j .row then .wait
  else match lowest [s.engineFail c j (stPermit d) f.ds.val, s.quotaFail c (d.runs j.tabs ++ d.scaleRuns ds),
      failIf (d.scaled && decide (8 < f.ta.val + d.group.gsize)) 7] with
  | some q => .refuse q s
  | none =>
    let x := s.ctx c
    let el := stripAt x f.ta.val d.group.dir
    let sc := fun i m => if d.scaled then blockScale j.tabs d el i m else 0
    let sb := scaleBytes d ds sc
    let p := s.part c
    let rs := d.runs j.tabs ++ sb.map (·.1)
    if s.switching (pagesOf rs) then .wait
    else match s.allocateAll (writerOf c) p (pagesOf rs) with
    | none => .refuse 5 s
    | some s1 =>
      let s1 := s1.resolve c (pagesOf rs)
      let rows := (List.range d.e1).map fun i => (List.range d.e0).map fun m =>
        storeEl j (vecSrc c) d.fmt (el i m) (sc i m) (i * d.e0 + m)
      let s2 := s1.each rows.zipIdx fun s r =>
        s.writeRuns (writerOf c) p (d.rowRuns j.tabs ⟨r.2, 0, 0⟩) (packElems (fmtWidth j.tabs d.fmt) (r.1.map (·.bits)))
      let s3 := s2.each sb fun s q => s.sendWrite (writerOf c) p q.1.1 [q.2]
      let all := rows.flatten
      let e := s.evts c all
      .done (s3.countConv c (all.foldl (fun a x => a + x.sat) 0) (all.foldl (fun a x => a + x.ovf) 0))
        { Flight.plain j with nan := e.1, nans := e.2, cc := xferCc d j.tabs }

/-- vec.add. -/
def execVecAdd (c : Ctx) (p : Pred) (f : FmtV) (s : State) : Host.Outcome State Fault Refusal :=
  .next (s.issueUnit c p (vecUnit c) (.vecAdd c p f) (vec2Fields f) (srcReads f.bsrc f.bidx) [] (perfVec2 f fastCc (fun a b => (a.add b).toXR)))

/-- vec.sub. -/
def execVecSub (c : Ctx) (p : Pred) (f : FmtV) (s : State) : Host.Outcome State Fault Refusal :=
  .next (s.issueUnit c p (vecUnit c) (.vecSub c p f) (vec2Fields f) (srcReads f.bsrc f.bidx) [] (perfVec2 f fastCc (fun a b => (a.sub b).toXR)))

/-- vec.mul. -/
def execVecMul (c : Ctx) (p : Pred) (f : FmtV) (s : State) : Host.Outcome State Fault Refusal :=
  .next (s.issueUnit c p (vecUnit c) (.vecMul c p f) (vec2Fields f) (srcReads f.bsrc f.bidx) [] (perfVec2 f fastCc (fun a b => (a.mul b).toXR)))

/-- vec.max. -/
def execVecMax (c : Ctx) (p : Pred) (f : FmtV) (s : State) : Host.Outcome State Fault Refusal :=
  .next (s.issueUnit c p (vecUnit c) (.vecMax c p f) (vec2Fields f) (srcReads f.bsrc f.bidx) [] (perfVec2 f fastCc (fun a b => (a.max b).toXR)))

/-- vec.min. -/
def execVecMin (c : Ctx) (p : Pred) (f : FmtV) (s : State) : Host.Outcome State Fault Refusal :=
  .next (s.issueUnit c p (vecUnit c) (.vecMin c p f) (vec2Fields f) (srcReads f.bsrc f.bidx) [] (perfVec2 f fastCc (fun a b => (a.min b).toXR)))

/-- vec.div. -/
def execVecDiv (c : Ctx) (p : Pred) (f : FmtV) (s : State) : Host.Outcome State Fault Refusal :=
  .next (s.issueUnit c p (vecUnit c) (.vecDiv c p f) (vec2Fields f) (srcReads f.bsrc f.bidx) [] (perfVec2 f slowCc Val.divX))

/-- vec.abs. -/
def execVecAbs (c : Ctx) (p : Pred) (f : FmtV) (s : State) : Host.Outcome State Fault Refusal :=
  .next (s.issueUnit c p (vecUnit c) (.vecAbs c p f) (vec1Fields f) [] [] (perfVec1 f fastCc (fun v => v.abs.toXR)))

/-- vec.neg. -/
def execVecNeg (c : Ctx) (p : Pred) (f : FmtV) (s : State) : Host.Outcome State Fault Refusal :=
  .next (s.issueUnit c p (vecUnit c) (.vecNeg c p f) (vec1Fields f) [] [] (perfVec1 f fastCc (fun v => v.neg.toXR)))

/-- vec.sqrt. -/
def execVecSqrt (c : Ctx) (p : Pred) (f : FmtV) (s : State) : Host.Outcome State Fault Refusal :=
  .next (s.issueUnit c p (vecUnit c) (.vecSqrt c p f) (vec1Fields f) [] [] (perfVec1 f slowCc Val.sqrtX))

/-- vec.rsqrt. -/
def execVecRsqrt (c : Ctx) (p : Pred) (f : FmtV) (s : State) : Host.Outcome State Fault Refusal :=
  .next (s.issueUnit c p (vecUnit c) (.vecRsqrt c p f) (vec1Fields f) [] [] (perfVec1 f slowCc Val.rsqrtX))

/-- vec.exp2. -/
def execVecExp2 (c : Ctx) (p : Pred) (f : FmtV) (s : State) : Host.Outcome State Fault Refusal :=
  .next (s.issueUnit c p (vecUnit c) (.vecExp2 c p f) (vec1Fields f) [] [] (perfVec1 f slowCc exp2X))

/-- vec.log2. -/
def execVecLog2 (c : Ctx) (p : Pred) (f : FmtV) (s : State) : Host.Outcome State Fault Refusal :=
  .next (s.issueUnit c p (vecUnit c) (.vecLog2 c p f) (vec1Fields f) [] [] (perfVec1 f slowCc log2X))

/-- vec.fma. -/
def execVecFma (c : Ctx) (p : Pred) (f : FmtV) (s : State) : Host.Outcome State Fault Refusal :=
  .next (s.issueUnit c p (vecUnit c) (.vecFma c p f) (vec3Fields f) (srcReads f.bsrc f.bidx ++ srcReads f.csrc f.cidx) [] (perfVecFma f))

/-- vec.sel. -/
def execVecSel (c : Ctx) (p : Pred) (f : FmtV) (s : State) : Host.Outcome State Fault Refusal :=
  .next (s.issueUnit c p (vecUnit c) (.vecSel c p f) (vec3Fields f) (srcReads f.bsrc f.bidx ++ srcReads f.csrc f.cidx) [] (perfVecSel f))

/-- vec.ldexp. -/
def execVecLdexp (c : Ctx) (p : Pred) (f : FmtV) (s : State) : Host.Outcome State Fault Refusal :=
  .next (s.issueUnit c p (vecUnit c) (.vecLdexp c p f) (f = { fmtV0 with td := f.td, ta := f.ta, rs := f.rs }) [f.rs.val] [] (perfVecLdexp f))

/-- vec.cmp. -/
def execVecCmp (c : Ctx) (p : Pred) (f : FmtV) (s : State) : Host.Outcome State Fault Refusal :=
  .next (s.issueUnit c p (vecUnit c) (.vecCmp c p f) (f = { fmtV0 with td := f.td, ta := f.ta, bsrc := f.bsrc, bidx := f.bidx, cmp := f.cmp } && srcOk f.bsrc f.bidx) (srcReads f.bsrc f.bidx) [] (perfVecCmp f))

/-- vec.rnd. -/
def execVecRnd (c : Ctx) (p : Pred) (f : FmtV) (s : State) : Host.Outcome State Fault Refusal :=
  .next (s.issueUnit c p (vecUnit c) (.vecRnd c p f) (f = { fmtV0 with td := f.td, ta := f.ta, fmt := f.fmt }) [] [] (perfVecRnd f))

/-- vec.mov. -/
def execVecMov (c : Ctx) (p : Pred) (f : FmtV) (s : State) : Host.Outcome State Fault Refusal :=
  .next (s.issueUnit c p (vecUnit c) (.vecMov c p f) (vec1Fields f) [] [] (perfVecMov f))

/-- vec.rsum. -/
def execVecRsum (c : Ctx) (p : Pred) (f : FmtV) (s : State) : Host.Outcome State Fault Refusal :=
  .next (s.issueUnit c p (vecUnit c) (.vecRsum c p f) (vec1Fields f) [] [] (perfVecReduce f true true))

/-- vec.csum. -/
def execVecCsum (c : Ctx) (p : Pred) (f : FmtV) (s : State) : Host.Outcome State Fault Refusal :=
  .next (s.issueUnit c p (vecUnit c) (.vecCsum c p f) (vec1Fields f) [] [] (perfVecReduce f true false))

/-- vec.rmax. -/
def execVecRmax (c : Ctx) (p : Pred) (f : FmtV) (s : State) : Host.Outcome State Fault Refusal :=
  .next (s.issueUnit c p (vecUnit c) (.vecRmax c p f) (vec1Fields f) [] [] (perfVecReduce f false true))

/-- vec.cmax. -/
def execVecCmax (c : Ctx) (p : Pred) (f : FmtV) (s : State) : Host.Outcome State Fault Refusal :=
  .next (s.issueUnit c p (vecUnit c) (.vecCmax c p f) (vec1Fields f) [] [] (perfVecReduce f false false))

/-- vec.acc. -/
def execVecAcc (c : Ctx) (p : Pred) (f : FmtV) (s : State) : Host.Outcome State Fault Refusal :=
  .next (s.issueUnit c p (vecUnit c) (.vecAcc c p f) (accFields f) [] [] (perfVecAcc f))

/-- vec.ld. -/
def execVecLd (c : Ctx) (p : Pred) (f : FmtV) (s : State) : Host.Outcome State Fault Refusal :=
  .next (s.issueUnit c p (vecUnit c) (.vecLd c p f) (f = { fmtV0 with td := f.td, ds := f.ds }) [] [] (perfVecLd f))

/-- vec.st. -/
def execVecSt (c : Ctx) (p : Pred) (f : FmtV) (s : State) : Host.Outcome State Fault Refusal :=
  .next (s.issueUnit c p (vecUnit c) (.vecSt c p f) (f = { fmtV0 with ta := f.ta, ds := f.ds }) [] [] (perfVecSt f))

end Sys2Proof.Machine
end

