-- ==== Sys2Proof/Machine/Mov.lean ====
section
/-! DEFINITION. The mov unit (R296-R300): copies, loads and stores of words, bank atomics (R18, R344, R345), spill and
fill (R332-R334), and placement hints (R326). -/

namespace Sys2Proof.Machine

/-- Format M with every field 0 but BAR and BARE. -/
def fmtM0 (f : FmtM) : FmtM := ⟨0, 0, 0, 0, 0, 0, f.bar, f.bare, 0, 0⟩

/-- What a mov instruction permits of a descriptor: any extents (R273), a format test, whether it is a destination. -/
def movPermit (fmt : Nat → Bool) (scale dest : Bool) : Permit := ⟨fmt, 2 ^ 20, 2 ^ 20, true, scale, dest⟩

/-- The lowest cause that a descriptor of a mov instruction fails with. -/
def State.movDescFail (s : State) (c : Ctx) (j : Job) (n : Nat) (q : Permit) : Option Nat :=
  let d := descV (j.regs.getD n)
  s.descFail (s.part c) j.tabs q d (descV (j.regs.getD d.sdi))

/-- Whether two descriptors have the same extents and E0MAX. -/
def sameExtents (a b : DescV) : Bool :=
  a.e0 = b.e0 && a.e1 = b.e1 && a.e2 = b.e2 && a.e3 = b.e3 && a.e0max = b.e0max

/-- Bytes of a region in row order, each row padded to whole bytes and its swizzle undone (R49, R130). -/
def State.streamOf (s : State) (t : Tabs) (d : DescV) : List Byte := d.rows.flatMap fun r => s.bytesOf (d.rowRuns t r)

/-- Whether byte ranges cover one contiguous range; answers its first byte and the byte after its last. -/
def contiguous (rs : List Run) : Option (Nat × Nat) :=
  match rs.mergeSort (fun a b => a.1 ≤ b.1) with
  | [] => none
  | r :: rest => rest.foldl (fun o x => match o with
      | some (lo, hi) => if x.1 ≤ hi then some (lo, max hi (x.1 + x.2)) else none
      | none => none) (some (r.1, r.1 + r.2))

/-- Whether a move of a page is under way, its forwarding phase included (R320). -/
def State.inMove (s : State) (pg : Nat) : Bool :=
  (s.ent pg).st = .copy || (s.ent pg).st = .switch || s.tiers.fwds.any fun f => f.page = pg

/-- Claim pages: each becomes FREE and its frame keeps its token until it is released (R330). -/
def State.claim (s : State) (pgs : List Nat) : State :=
  s.each pgs fun s pg =>
    let e := s.ent pg
    if e.st = .free then s
    else
      let s := s.setEnt pg .free
      { s with tiers := { s.tiers with claims := s.tiers.claims ++ [⟨e.home, e.owner⟩] } }

/-- A read whose operation ends at its first uncorrectable word (R254): the rows before the one that holds it. -/
def State.goodRows (s : State) (t : Tabs) (d : DescV) : List Row :=
  d.rows.takeWhile fun r => (s.marked s.ue (d.rowRuns t r)).isEmpty

/-! mov.copy and mov.take (R297). -/

/-- The causes of mov.copy and mov.take. -/
def State.copyFail (s : State) (c : Ctx) (j : Job) (f : FmtM) (take : Bool) : Option Nat :=
  let ds := descV (j.regs.getD f.ds.val)
  let dd := descV (j.regs.getD f.dd.val)
  let whole := match contiguous (ds.runs j.tabs) with
    | some (lo, hi) => lo % pageSize = 0 && hi % pageSize = 0
    | none => false
  lowest [s.bareFail c j.ins, s.movDescFail c j f.ds.val (movPermit (fun _ => true) false false),
    s.movDescFail c j f.dd.val (movPermit (fun _ => true) false true),
    failIf (ds.fmt != dd.fmt || !sameExtents ds dd || (take && !whole)) 7, s.quotaFail c (dd.runs j.tabs)]

/-- The copy itself. -/
def State.copyRows (s : State) (c : Ctx) (j : Job) (ds dd : DescV) (rows : List Row) : State :=
  let w := fmtWidth j.tabs ds.fmt
  let data := rows.map fun r => (r, s.rowElems j.tabs ds r)
  s.each data fun s x => s.writeRuns (writerOf c) (s.part c) (dd.rowRuns j.tabs x.1) (packElems w x.2)

/-- mov.copy and mov.take. -/
def perfCopy (f : FmtM) (take : Bool) (j : Job) (c : Ctx) (s : State) : Perf :=
  let ds := descV (j.regs.getD f.ds.val)
  let dd := descV (j.regs.getD f.dd.val)
  match s.copyFail c j f take with
  | some q => .refuse q s
  | none =>
    let src := pagesOf (ds.runs j.tabs)
    if (take && src.any s.inMove) || s.switching (src ++ pagesOf (dd.runs j.tabs)) then .wait
    else match s.allocateAll (writerOf c) (s.part c) (pagesOf (dd.runs j.tabs)) with
    | none => .refuse 5 s
    | some s1 =>
      let rows := s.goodRows j.tabs ds
      let seen := if rows.length < ds.rows.length then rows ++ (ds.rows.drop rows.length).take 1 else rows
      let r := (s1.resolve c (pagesOf (dd.runs j.tabs))).unitRead c (seen.flatMap (ds.rowRuns j.tabs))
      let s2 := r.1.copyRows c j ds dd rows
      let s3 := match r.2 with
        | some a => s2.uncorrectable (s.part c) a
        | none => if take then s2.claim src else s2
      .done s3 (Flight.plain j)

/-- mov.copy. -/
def perfMovCopy (f : FmtM) := perfCopy f false

/-- mov.take. -/
def perfMovTake (f : FmtM) := perfCopy f true

/-! Words (R296, R298). -/

/-- The causes of an access of `n` bytes at an address. -/
def State.wordFail (s : State) (c : Ctx) (j : Job) (a n : Nat) : Option Nat :=
  lowest [s.bareFail c j.ins, failIf (a % n != 0 || !s.pageOk (s.part c) (a / pageSize)) 4]

/-- mov.lds (R298, R328). -/
def perfMovLds (f : FmtM) (j : Job) (c : Ctx) (s : State) : Perf :=
  let a := movAddr j.regs f.ra.val f.imm
  let p := s.part c
  match s.wordFail c j a 8 with
  | some q => .refuse q s
  | none =>
    if s.switching [a / pageSize] then .wait
    else if s.gated p (a / pageSize) then
      .done (s.count (R.PART_TIER_NOTREADY_CNT p) 1) { Flight.plain j with pd := [(f.pd.val, false)] }
    else if s.isFree (a / pageSize) then
      .done (s.resolve c [a / pageSize]) { Flight.plain j with pd := [(f.pd.val, false)] }
    else
      let r := (s.resolve c [a / pageSize]).meshRead c [(a, 8)]
      match r.2 with
      | some q => .done (r.1.uncorrectable p q) (Flight.plain j)
      | none =>
        .done r.1 { Flight.plain j with
          rd := some (f.rd.val, BitVec.ofNat 64 (leNat (r.1.bytesAt a 8))), pd := [(f.pd.val, true)] }

/-- mov.sts. -/
def perfMovSts (f : FmtM) (j : Job) (c : Ctx) (s : State) : Perf :=
  let a := movAddr j.regs f.ra.val f.imm
  match lowest [s.wordFail c j a 8, if s.pageOk (s.part c) (a / pageSize) then s.quotaFail c [(a, 8)] else none] with
  | some q => .refuse q s
  | none =>
    if s.switching [a / pageSize] then .wait
    else match s.allocateAll (writerOf c) (s.part c) [a / pageSize] with
    | none => .refuse 5 s
    | some s1 =>
      .done ((s1.resolve c [a / pageSize]).sendWrite (writerOf c) (s.part c) a (leBytes 8 (j.regs.getS f.rb.val).toNat))
        (Flight.plain j)

/-! Bank atomics (R18, R229, R344). -/

/-- What one bank atomic answers. -/
inductive Atom where
  | done (s : State) (old : Nat)
  | sealed (s : State)
  | refused (cause : Nat) (s : State)
  | lost (s : State) (addr : Nat)

/-- The cell of a die in whose SRAM an atomic from that die finds its page (R18). -/
def State.atomCell (s : State) (d pg : Nat) : Option CellId :=
  if s.isFree pg then none else (locOwner (s.ent pg).home).filter fun k => k.die.val = d

/-- A bank atomic has reached a page in the window, performed or not (R321). -/
def State.reachAtom (s : State) (pg : Nat) : State :=
  if s.tiers.watom.contains pg then s else { s with tiers := { s.tiers with watom := pg :: s.tiers.watom } }

/-- A bank atomic of `n` bytes at address `a`: `op` gives the new word and whether the sum wrapped. -/
def State.atomic (s : State) (w : Writer) (p d a n : Nat) (op : Nat → Nat × Bool) : Atom :=
  let pg := a / pageSize
  let s := s.reachAtom pg
  let place := if s.isFree pg then (if meetsRuns (s.sealedRuns p) a n then none else some (s.allocate w p pg true))
    else some (some s)
  match place with
  | none => .sealed (s.sealRefuse p)
  | some none => .refused 5 s
  | some (some s1) =>
    match s1.atomCell d pg with
    | none => .refused 0xB s1
    | some k =>
      if meetsRuns (s1.sealedRuns p) a n then .sealed (s1.sealRefuse p)
      else
        let r := s1.readChecked p [(a, n)]
        match r.2 with
        | some q => .lost r.1 q
        | none =>
          let old := leNat (r.1.bytesAt a n)
          let x := op old
          let s2 := r.1.writeOpen w a (leBytes n x.1)
          .done ((s2.count (R.CELL_ATOM_CNT k) 1).count (R.CELL_ATOM_WRAP_CNT k) (bnat x.2)) old

/-- An add of `w` bits: the sum modulo 2^w, and whether the signed sum wrapped (R344). -/
def atomAdd (w b old : Nat) : Nat × Bool :=
  let x := signed w old + signed w b
  let n := unsigned w x
  (n, signed w n != x)

/-- A returning atomic; `ext` forms the value of RD from the old word. -/
def perfAtom (f : FmtM) (n : Nat) (op : Nat → Nat → Nat × Bool) (ext : Nat → Nat) (j : Job) (c : Ctx) (s : State) : Perf :=
  let a := movAddr j.regs f.ra.val f.imm
  let p := s.part c
  match s.wordFail c j a n with
  | some q => .refuse q s
  | none =>
    if s.switching [a / pageSize] then .wait
    else match (s.resolve c [a / pageSize]).atomic (writerOf c) p (ctxDie c) a n (op (j.regs.getS f.rb.val).toNat) with
    | .done s1 old => .done s1 { Flight.plain j with rd := some (f.rd.val, BitVec.ofNat 64 (ext old)) }
    | .sealed s1 => .done s1 (Flight.plain j)
    | .refused q s1 => .refuse q s1
    | .lost s1 q => .done (s1.uncorrectable p q) (Flight.plain j)

/-- mov.aadd32. -/
def perfMovAadd32 (f : FmtM) := perfAtom f 4 (atomAdd 32) fun o => unsigned 64 (signed 32 o)

/-- mov.aadd64 and mov.aaddfx. -/
def perfMovAadd64 (f : FmtM) := perfAtom f 8 (atomAdd 64) id

/-- mov.swap. -/
def perfMovSwap (f : FmtM) := perfAtom f 8 (fun b _ => (b, false)) id

/-! mov.gadd (R299, R345). -/

/-- The largest FX64 magnitude. -/
def fxMax : Int := 2 ^ 63 - 1

/-- A value as FX64: the integer as 64 bits and the saturations counted (R345). -/
def fxOf (v : Val) : Nat × Nat :=
  let r := roundInt (v.scale 40).toXR 64
  if fxMax < r then (unsigned 64 fxMax, 1) else if r < -fxMax then (unsigned 64 (-fxMax), 1) else (unsigned 64 r, 0)

/-- Progress of mov.gadd: the state, the ranges it has read, its refusals, conversions and events, and the word that ended it. -/
structure GaddAcc where
  s    : State
  read : List Run
  five : Bool
  eleven : Bool
  sat  : Nat
  nans : List NanEvt
  bad  : Option Nat

/-- The causes of mov.gadd. -/
def State.gaddFail (s : State) (c : Ctx) (j : Job) (f : FmtM) : Option Nat :=
  let ds := descV (j.regs.getD f.ds.val)
  let dd := descV (j.regs.getD f.dd.val)
  lowest [s.bareFail c j.ins,
    s.movDescFail c j f.ds.val (movPermit (fun k => k != fmtFP64 && k != fmtE8M0) true false),
    s.movDescFail c j f.dd.val (movPermit (fun k => k = fmtFP64) false true),
    failIf (!sameExtents ds dd) 7]

/-- One element add. -/
def gaddStep (j : Job) (c : Ctx) (ds sc dd : DescV) (a : GaddAcc) (x : Row × Nat × Nat) : GaddAcc :=
  match a.bad with
  | some _ => a
  | none =>
    let p := a.s.part c
    let w := fmtWidth j.tabs ds.fmt
    let lo := w * x.2.1 / 8
    let n := (w * x.2.1 + w + 7) / 8 - lo
    let rs := ds.rowPart x.1 lo n ++ (if ds.scaled then [ds.scaleRun sc x.1 x.2.1] else [])
    let r := a.s.meshRead c rs
    let a := { a with read := a.read ++ rs }
    match r.2 with
    | some q => { a with s := r.1, bad := some q }
    | none =>
      let bits := r.1.elemBits j.tabs ds x.1 x.2.1
      let sb := r.1.scaleByte ds sc x.1 x.2.1
      let v := scaledVal j.tabs ds.fmt bits sb
      let fx := if v.isNan then (0, 0) else fxOf v
      let ev := if !v.isNan then []
        else if sb = 255 then [⟨0, 2, fmtNone, fmtE8M0, fmtNone, 0, 0, x.2.2, 255, 0⟩]
        else [nanOp 0 fmtNone ds.fmt bits fmtNone 0 x.2.2 true]
      let b := { a with s := r.1, sat := a.sat + fx.2, nans := a.nans ++ ev }
      let at' := ((dd.rowPart x.1 (8 * x.2.1) 8).headD (0, 0)).1
      match r.1.atomic (writerOf c) p (ctxDie c) at' 8 (atomAdd 64 fx.1) with
      | .done s1 _ => { b with s := s1 }
      | .sealed s1 => { b with s := s1 }
      | .refused q s1 => if q = 5 then { b with s := s1, five := true } else { b with s := s1, eleven := true }
      | .lost s1 q => { b with s := s1, bad := some q }

/-- mov.gadd. -/
def perfMovGadd (f : FmtM) (j : Job) (c : Ctx) (s : State) : Perf :=
  let ds := descV (j.regs.getD f.ds.val)
  let sc := descV (j.regs.getD ds.sdi)
  let dd := descV (j.regs.getD f.dd.val)
  match s.gaddFail c j f with
  | some q => .refuse q s
  | none =>
    let src := pagesOf (ds.runs j.tabs ++ ds.scaleRuns sc)
    if s.switching (src ++ pagesOf (dd.runs j.tabs)) then .wait else
    let s0 := s.resolve c (src ++ pagesOf (dd.runs j.tabs)).eraseDups
    let els := ds.rows.zipIdx.flatMap fun r => (List.range ds.e0).map fun m => (r.1, m, r.2 * ds.e0 + m)
    let a := els.foldl (gaddStep j c ds sc dd) ⟨s0, [], false, false, 0, [], none⟩
    let s1 := (a.s.count (R.PART_TIER_EMPTY_CNT (s.part c)) ((pagesOf a.read).filter s.isFree).length).countConv c a.sat 0
    let s2 := if a.five then s1.violateInsn c 5 j.ins j.pc else if a.eleven then s1.violateInsn c 0xB j.ins j.pc else s1
    let s3 := match a.bad with
      | some q => s2.uncorrectable (s.part c) q
      | none => s2
    .done s3 { Flight.plain j with nan := a.nans.head?, nans := a.nans.length }

/-! Spill and fill (R300, R332-R334). -/

/-- Leading zero bytes of a list, at most `n`. -/
def zeroRun (n : Nat) (bs : List Byte) : Nat := ((bs.take n).takeWhile (· = 0)).length

/-- Bytes up to the next pair of zero bytes or the end, at most `n`. -/
def literalRun (n : Nat) (bs : List Byte) : Nat :=
  match n, bs with
  | 0, _ => 0
  | _, [] => 0
  | k + 1, b :: rest =>
    match rest with
    | [] => 1
    | d :: _ => if b = 0 && d = 0 then 0 else 1 + literalRun k rest

/-- The zero-run code (R333); `fuel` bounds the emitted pieces. -/
def zrun (fuel : Nat) (bs : List Byte) : List Byte :=
  match fuel with
  | 0 => []
  | k + 1 =>
    match bs with
    | [] => []
    | _ =>
      let z := zeroRun 128 bs
      if 2 ≤ z then BitVec.ofNat 8 (0x80 + z - 1) :: zrun k (bs.drop z)
      else
        let n := max 1 (literalRun 128 bs)
        BitVec.ofNat 8 (n - 1) :: (bs.take n ++ zrun k (bs.drop n))

/-- The bytes that a zero-run code spells, nothing where it is cut short. -/
def unzrun (fuel : Nat) (bs : List Byte) : Option (List Byte) :=
  match fuel with
  | 0 => if bs.isEmpty then some [] else none
  | k + 1 =>
    match bs with
    | [] => some []
    | b :: rest =>
      if 0x80 ≤ b.toNat then (unzrun k rest).map (List.replicate (b.toNat - 0x80 + 1) 0 ++ ·)
      else
        let n := b.toNat + 1
        if rest.length < n then none else (unzrun k (rest.drop n)).map (rest.take n ++ ·)

/-- The exponent-plane order of elements of `w` bytes (R333). -/
def xplane (w : Nat) (bs : List Byte) : List Byte :=
  let n := bs.length / w
  (List.range w).flatMap fun k => (List.range n).map fun i => bs.getD (i * w + (w - 1 - k)) 0

/-- The inverse of the exponent-plane order. -/
def unxplane (w : Nat) (bs : List Byte) : List Byte :=
  let n := bs.length / w
  (List.range n).flatMap fun i => (List.range w).map fun k => bs.getD ((w - 1 - k) * n + i) 0

/-- The element size to which the exponent-plane order applies, 0 for none. -/
def planeBytes (f : Nat) : Nat :=
  if f = fmtBF16 || f = fmtFP16 then 2 else if f = fmtFP32 then 4 else if f = fmtFP64 then 8 else 0

/-- Method and coded bytes of a block (R333). -/
def codeBlock (f : Nat) (bs : List Byte) : Nat × List Byte :=
  let z := zrun (bs.length + 1) bs
  let w := planeBytes f
  let x := if w = 0 then z else zrun (bs.length + 1) (xplane w bs)
  let best : Nat × List Byte := if w != 0 && x.length < z.length then (2, x) else (1, z)
  if best.2.length < bs.length then best else (0, bs)

/-- Round up to 16. -/
def up16 (n : Nat) : Nat := cdiv n 16 * 16

/-- A block with its header and padding. -/
def blockBytes (f : Nat) (bs : List Byte) : List Byte :=
  let c := codeBlock f bs
  let l := leBytes 2 bs.length ++ leBytes 2 c.2.length ++ leBytes 4 c.1 ++ leBytes 4 (crc32c bs) ++ leBytes 4 0 ++ c.2
  l ++ List.replicate (up16 l.length - l.length) 0

/-- Bytes of a block of the stream. -/
def blockLen : Nat := 4096

/-- The blocks of a stream. -/
def blocksOf (bs : List Byte) : List (List Byte) := chunks blockLen (bs.length / blockLen + 1) bs

/-- The spill area header (R332). -/
def spillHeader (d : DescV) (sz : Nat) : List Byte :=
  leBytes 4 0x53504C4C ++ leBytes 1 d.fmt ++ leBytes 1 (bnat d.e0max) ++ leBytes 2 0 ++ leBytes 4 d.raw0 ++ leBytes 4 d.e1 ++
    leBytes 4 d.e2 ++ leBytes 4 d.e3 ++ leBytes 8 sz ++ leBytes 4 (cdiv sz blockLen) ++ leBytes 28 0

/-- The byte ranges of the first `n` bytes of a region, in stream order. -/
def firstBytes (n : Nat) (rs : List Run) : List Run :=
  match rs with
  | [] => []
  | r :: rest => if n = 0 then [] else if n ≤ r.2 then [(r.1, n)] else r :: firstBytes (n - r.2) rest

/-- Stream bytes of a region (R49, R332). -/
def DescV.streamLen (d : DescV) (t : Tabs) : Nat := d.e1 * d.e2 * d.e3 * d.rowBytes t

/-- The causes of mov.spill: DD must be INT8, homed in a stack, and large enough (R300, R332). -/
def State.spillFail (s : State) (c : Ctx) (j : Job) (f : FmtM) : Option Nat :=
  let ds := descV (j.regs.getD f.ds.val)
  let dd := descV (j.regs.getD f.dd.val)
  let sz := ds.streamLen j.tabs
  let inStack := (pagesOf (dd.runs j.tabs)).all fun pg => match s.frameOf (pg * pageSize) with
    | some l => locIsStack l
    | none => false
  lowest [s.bareFail c j.ins, s.movDescFail c j f.ds.val (movPermit (fun _ => true) false false),
    s.movDescFail c j f.dd.val (movPermit (fun k => k = 7) false true),
    failIf (!inStack || decide (dd.streamLen j.tabs < 64 + 16 * cdiv sz blockLen + 16 * cdiv sz 16)) 7]

/-- mov.spill. -/
def perfMovSpill (f : FmtM) (j : Job) (c : Ctx) (s : State) : Perf :=
  let ds := descV (j.regs.getD f.ds.val)
  let dd := descV (j.regs.getD f.dd.val)
  match s.spillFail c j f with
  | some q => .refuse q s
  | none =>
    if s.switching (pagesOf (ds.runs j.tabs ++ dd.runs j.tabs)) then .wait else
    let r := s.unitRead c (ds.runs j.tabs)
    let p := s.part c
    match r.2 with
    | some a => .done (r.1.uncorrectable p a) (Flight.plain j)
    | none =>
      let bs := r.1.streamOf j.tabs ds
      let blocks := blocksOf bs
      let out := spillHeader ds bs.length ++ blocks.flatMap (blockBytes ds.fmt)
      let rs := firstBytes out.length (dd.runs j.tabs)
      let s1 := (r.1.resolve c (pagesOf rs)).writeRuns (writerOf c) p rs out
      let s2 := s1.each (pagesOf rs) fun s pg => s.setEnt pg { s.ent pg with spill := true }
      .done (s2.count (R.PART_TIER_SPILL_RAW_CNT p) (blocks.filter fun b => (codeBlock ds.fmt b).1 = 0).length)
        { Flight.plain j with rd := some (f.rd.val, BitVec.ofNat 64 out.length) }

/-- What a fill finds in a spill area: a header that does not name DD, uncorrectable data at a stream offset, or the
stream. -/
inductive Filled where
  | wrong
  | bad (off : Nat)
  | ok (bs : List Byte) (used : Nat)

/-- One block of a spill area at stream offset `o`: its raw bytes and the offset of the next. -/
def fillBlock (fmt : Nat) (area : List Byte) (o : Nat) : Option (List Byte × Nat) :=
  let h := (area.drop o).take 16
  let l := leNat (h.take 2)
  let n := leNat ((h.drop 2).take 2)
  let m := leNat ((h.drop 4).take 1)
  let coded := (area.drop (o + 16)).take n
  let raw := if m = 0 then some coded
    else if m = 1 then unzrun (n + 1) coded
    else if m = 2 && planeBytes fmt != 0 then (unzrun (n + 1) coded).map (unxplane (planeBytes fmt))
    else none
  match raw with
  | some bs => if h.length = 16 && coded.length = n && bs.length = l && crc32c bs = leNat ((h.drop 8).take 4) then
      some (bs, o + up16 (16 + n)) else none
  | none => none

/-- The blocks of a spill area (R334). -/
def fillBlocks (fmt : Nat) (area : List Byte) (n o : Nat) (acc : List Byte) : Filled :=
  match n with
  | 0 => .ok acc o
  | k + 1 =>
    match fillBlock fmt area o with
    | some (bs, o') => fillBlocks fmt area k o' (acc ++ bs)
    | none => .bad o

/-- A spill area read against the descriptor DD. -/
def fillArea (dd : DescV) (t : Tabs) (area : List Byte) : Filled :=
  let h := area.take 64
  if h.take 24 != (spillHeader dd 0).take 24 then .wrong
  else
    match fillBlocks dd.fmt area (leNat ((h.drop 32).take 4)) 64 [] with
    | .ok bs o => if bs.length = dd.streamLen t && leNat ((h.drop 24).take 8) = bs.length then .ok bs o else .bad 0
    | o => o

/-- The tensor address of byte `o` of a stream over ranges. -/
def runAt (rs : List Run) (o : Nat) : Nat :=
  match rs with
  | [] => 0
  | r :: rest => if o < r.2 then r.1 + o else runAt rest (o - r.2)

/-- mov.fill. -/
def perfMovFill (f : FmtM) (j : Job) (c : Ctx) (s : State) : Perf :=
  let ds := descV (j.regs.getD f.ds.val)
  let dd := descV (j.regs.getD f.dd.val)
  let p := s.part c
  let src := ds.runs j.tabs
  let early := lowest [s.bareFail c j.ins, s.movDescFail c j f.ds.val (movPermit (fun _ => true) false false),
    s.movDescFail c j f.dd.val (movPermit (fun _ => true) false true), s.quotaFail c (dd.runs j.tabs)]
  let area := s.bytesOf src
  let got := fillArea dd j.tabs area
  if early.isNone && s.switching (pagesOf (src ++ dd.runs j.tabs)) then .wait
  else match early, got with
  | some q, _ => .refuse q s
  | none, .wrong => .refuse 7 s
  | none, o =>
    let used := match o with
      | .ok _ n => n
      | _ => area.length
    let r := (s.resolve c (pagesOf src)).meshRead c (firstBytes used src)
    match r.2, o with
    | some a, _ => .done (r.1.uncorrectable p a) (Flight.plain j)
    | none, .ok bs _ =>
      (match r.1.allocateAll (writerOf c) p (pagesOf (dd.runs j.tabs)) with
      | none => .refuse 5 s
      | some s1 =>
        .done ((s1.resolve c (pagesOf (dd.runs j.tabs))).writeRuns (writerOf c) p (dd.runs j.tabs) bs) (Flight.plain j))
    | none, .bad q => .done (r.1.uncorrectable p (runAt src q)) (Flight.plain j)
    | none, .wrong => .refuse 7 s

/-! mov.hint (R326). -/

/-- A hint that has no effect. -/
def State.hintIgnored (s : State) (p : Nat) : State := s.count (R.PART_TIER_HINT_IGN_CNT p) 1

/-- Request a move of a page; the engine of the die that holds it runs it (R319, R324). -/
def State.requestMove (s : State) (q : MoveReq) : State :=
  let d := locDie (s.ent q.page).home
  { s with tiers := { s.tiers with reqs := SMap.set s.tiers.reqs [] d (SMap.get s.tiers.reqs [] d ++ [q]) } }

/-- Whether a page is homed in the cell that backs a logical cell. -/
def State.homedAt (s : State) (pg l : Nat) : Bool :=
  match s.backing l, locOwner (s.ent pg).home with
  | some a, some b => a = b
  | _, _ => false

/-- A hint for one page. -/
def State.hintPage (s : State) (p kind rel pg : Nat) : State :=
  let e := s.ent pg
  let mode := fld (s.tierCfg p) 1 0
  if e.st != .homed || e.owner != p || s.inMove pg || mode = 1 then s.hintIgnored p
  else if kind = 1 then s.setEnt pg { e with pin := true }
  else if kind = 2 then s.setEnt pg { e with pin := false }
  else match s.relLogical p rel with
    | some l => if e.pin || s.homedAt pg l then s.hintIgnored p else s.requestMove ⟨pg, l, false⟩
    | none => s.hintIgnored p

/-- mov.hint. A page of another partition is no rights failure: its hint is ignored and counted (R326); an address that lies
outside the rights of every partition is one (R310). -/
def perfMovHint (f : FmtM) (j : Job) (c : Ctx) (s : State) : Perf :=
  let ds := descV (j.regs.getD f.ds.val)
  let form := ds.formOk (descV (j.regs.getD ds.sdi)) j.tabs (movPermit (fun _ => true) false false)
  match lowest [s.bareFail c j.ins, failIf (!form) 3,
    failIf ((pagesOf (ds.runs j.tabs)).any fun pg => decide (2 ^ 26 ≤ pg)) 4] with
  | some q => .refuse q s
  | none =>
    .done (s.each (pagesOf (ds.runs j.tabs)) fun s pg =>
      s.hintPage (s.part c) (f.imm.toNat % 4) (j.regs.getS f.ra.val).toNat pg) (Flight.plain j)

/-! The instructions. -/

/-- mov.copy. -/
def execMovCopy (c : Ctx) (p : Pred) (f : FmtM) (s : State) : Host.Outcome State Fault Refusal :=
  .next (s.issueUnit c p .mov (.movCopy c p f) (f = { fmtM0 f with dd := f.dd, ds := f.ds }) [] [] (perfMovCopy f))

/-- mov.lds. -/
def execMovLds (c : Ctx) (p : Pred) (f : FmtM) (s : State) : Host.Outcome State Fault Refusal :=
  .next (s.issueUnit c p .mov (.movLds c p f) (f = { fmtM0 f with rd := f.rd, pd := f.pd, ra := f.ra, imm := f.imm }) [f.rd.val, f.ra.val] [f.pd.val] (perfMovLds f))

/-- mov.sts. -/
def execMovSts (c : Ctx) (p : Pred) (f : FmtM) (s : State) : Host.Outcome State Fault Refusal :=
  .next (s.issueUnit c p .mov (.movSts c p f) (f = { fmtM0 f with ra := f.ra, rb := f.rb, imm := f.imm }) [f.ra.val, f.rb.val] [] (perfMovSts f))

/-- mov.aadd32. -/
def execMovAadd32 (c : Ctx) (p : Pred) (f : FmtM) (s : State) : Host.Outcome State Fault Refusal :=
  .next (s.issueUnit c p .mov (.movAadd32 c p f) (f = { fmtM0 f with rd := f.rd, ra := f.ra, rb := f.rb, imm := f.imm }) [f.rd.val, f.ra.val, f.rb.val] [] (perfMovAadd32 f))

/-- mov.aadd64. -/
def execMovAadd64 (c : Ctx) (p : Pred) (f : FmtM) (s : State) : Host.Outcome State Fault Refusal :=
  .next (s.issueUnit c p .mov (.movAadd64 c p f) (f = { fmtM0 f with rd := f.rd, ra := f.ra, rb := f.rb, imm := f.imm }) [f.rd.val, f.ra.val, f.rb.val] [] (perfMovAadd64 f))

/-- mov.aaddfx. -/
def execMovAaddfx (c : Ctx) (p : Pred) (f : FmtM) (s : State) : Host.Outcome State Fault Refusal :=
  .next (s.issueUnit c p .mov (.movAaddfx c p f) (f = { fmtM0 f with rd := f.rd, ra := f.ra, rb := f.rb, imm := f.imm }) [f.rd.val, f.ra.val, f.rb.val] [] (perfMovAadd64 f))

/-- mov.swap. -/
def execMovSwap (c : Ctx) (p : Pred) (f : FmtM) (s : State) : Host.Outcome State Fault Refusal :=
  .next (s.issueUnit c p .mov (.movSwap c p f) (f = { fmtM0 f with rd := f.rd, ra := f.ra, rb := f.rb, imm := f.imm }) [f.rd.val, f.ra.val, f.rb.val] [] (perfMovSwap f))

/-- mov.gadd. -/
def execMovGadd (c : Ctx) (p : Pred) (f : FmtM) (s : State) : Host.Outcome State Fault Refusal :=
  .next (s.issueUnit c p .mov (.movGadd c p f) (f = { fmtM0 f with dd := f.dd, ds := f.ds }) [] [] (perfMovGadd f))

/-- mov.take. -/
def execMovTake (c : Ctx) (p : Pred) (f : FmtM) (s : State) : Host.Outcome State Fault Refusal :=
  .next (s.issueUnit c p .mov (.movTake c p f) (f = { fmtM0 f with dd := f.dd, ds := f.ds }) [] [] (perfMovTake f))

/-- mov.spill. -/
def execMovSpill (c : Ctx) (p : Pred) (f : FmtM) (s : State) : Host.Outcome State Fault Refusal :=
  .next (s.issueUnit c p .mov (.movSpill c p f) (f = { fmtM0 f with rd := f.rd, dd := f.dd, ds := f.ds }) [f.rd.val] [] (perfMovSpill f))

/-- mov.fill. -/
def execMovFill (c : Ctx) (p : Pred) (f : FmtM) (s : State) : Host.Outcome State Fault Refusal :=
  .next (s.issueUnit c p .mov (.movFill c p f) (f = { fmtM0 f with dd := f.dd, ds := f.ds }) [] [] (perfMovFill f))

/-- mov.hint. -/
def execMovHint (c : Ctx) (p : Pred) (f : FmtM) (s : State) : Host.Outcome State Fault Refusal :=
  .next (s.issueUnit c p .mov (.movHint c p f) (f = { fmtM0 f with ra := f.ra, ds := f.ds, imm := f.imm } && f.imm.toNat % 4 != 3) [f.ra.val] [] (perfMovHint f))

end Sys2Proof.Machine
end

