-- ==== Sys2Proof/Machine/Csr.lean ====
section
/-! DEFINITION. CSR accesses: rights by plane (R417), refusals (R426, R498), and a write by access codes (R6-R8). -/

namespace Sys2Proof.Machine

/-- Whether the management port is up: it runs with Lodestar from the standby rail, on with the input (R451, R458). -/
def State.mgmtUp (s : State) : Bool := s.pwr.input && s.lode.up

/-- A refused CSR access (R426, R498). A refusal of a cell's own program is counted on the cell; a management port that is down takes no
access and counts none. -/
def State.csrRefuse (s : State) (pl : Plane) (a cause : Nat) : State :=
  match pl with
  | .session p =>
    (s.count (R.PART_CSR_VIOL_CNT p.val) 1).wr (R.PART_CSR_VIOL_LAST p.val) (BitVec.ofNat 64 (cause * 2 ^ 60 + a % 2 ^ 32))
  | .mgmt => if s.mgmtUp then s.count R.MGMT_CSR_VIOL_CNT 1 else s
  | .cell c => (s.count (R.CELL_VIOL_CNT c) 1).wr (R.CELL_VIOL_LAST c) (BitVec.ofNat 64 (cause * 2 ^ 60 + s.pc (.cell c) % 2 ^ 48))

/-- The partition whose Almanac range holds a slot (R165). -/
def State.slotOwner (s : State) (n : Nat) : Option Nat :=
  (List.range 64).find? fun p =>
    let v := s.rd (R.PART_ALM_RANGE p)
    decide (fld v 13 0 ≤ n) && decide (n < fld v 13 0 + fld v 30 16)

/-- The partition whose directory range holds an entry (R221). -/
def State.entryOwner (s : State) (n : Nat) : Option Nat :=
  (List.range 64).find? fun p =>
    let v := s.rd (R.PART_ZEN_RANGE p)
    decide (fld v 14 0 ≤ n) && decide (n < fld v 14 0 + fld v 31 16)

/-- The partition whose Ephemeris range holds an entry of Horizon die `h`, and the timetable and relative index (R398). -/
def State.ephOwner (s : State) (h i : Nat) : Option (Nat × Nat × Nat) :=
  (List.range 64).findSome? fun p =>
    let v := s.rd (R.PART_EPH_RANGEh p h)
    let b := fld v 13 0
    let n := fld v 29 16
    if b ≤ i && decide (i < b + 2 * n) then some (p, (i - b) / n, (i - b) % n) else none

/-- Whether a session of partition `p` may reach an object that belongs to a partition: partition 0 reaches every partition's, as that
partition (R417). -/
def ownedBy (p : Nat) (o : Option Nat) : Bool :=
  match o with
  | some q => p = 0 || p = q
  | none => false

/-- The partition that owns a peer entry: none while it is FREE (R396). -/
def State.peerOwner (s : State) (h i : Nat) : Option Nat :=
  let v := s.rd (R.HZN_PEERi_A h i)
  if fld v 63 62 = 0 then none else some (fld v 57 52)

/-- The owner of a queue pair or memory region: none while it is FREE (R421). -/
def State.rocOwner (s : State) (a : Nat) : Option Nat :=
  let v := s.rd a
  if fld v 63 62 = 0 then none else some (fld v 61 56)

/-- The rights of Table: Rights by block for an access of a session of partition `p` (R417). -/
def State.sessionMay (s : State) (p a : Nat) (write : Bool) : Bool :=
  let row := regAt a
  let cnt := (row.map (·.cnt)).getD false
  let mg := (row.map (·.mgmt)).getD false
  match csrBlock a with
  | none => !write || p = 0
  | some (.panel, _, o) =>
    if 0x00500000 ≤ o && o < 0x00520000 then
      (match s.rocOwner (a / 32 * 32) with
      | some q => p = 0 || p = q
      | none => true)
    else if 0x00400000 ≤ o && o < 0x00410000 then
      (match s.rocOwner (a / 64 * 64) with
      | some q => p = 0 || p = q
      | none => true)
    else !write || (p = 0 && cnt)
  | some (.die, d, o) =>
    if 0x00080000 ≤ o && o < 0x000A0000 then p = 0 || s.slotOwner (d * 1024 + (o - 0x00080000) / 128) = some p
    else if 0x000C0000 ≤ o && o < 0x00100000 then p = 0 || s.entryOwner (d * 2048 + (o - 0x000C0000) / 128) = some p
    else !write || (p = 0 && !mg)
  | some (.cell, k, o) =>
    if p = 0 then !(write && mg)
    else if o = 0xE08 then false
    else (match mkCell (k / 128) (k % 128) with
      | some c => s.cellPart c = some p && s.backing (s.logical c) = some c && !(write && mg)
      | none => false)
  | some (.hzn, h, o) =>
    if 0x00400000 ≤ o && o < 0x00440000 then ownedBy p ((s.ephOwner h ((o - 0x00400000) / 16)).map (·.1))
    else if 0x00800000 ≤ o && o < 0x00820000 then
      (match s.peerOwner h ((o - 0x00800000) / 32) with
      | some q => p = 0 || p = q
      | none => true)
    else !write || (p = 0 && cnt)
  | some (.stk, _, _) => !write || (p = 0 && cnt)
  | some (.part, q, o) => if 0x0180 ≤ o && o < 0x0200 && write then p = 0 else (p = 0 || p = q) && !(write && mg)
  | some (.mgmt, _, _) => false

/-- Whether a plane may make an access (R417). A cell's own program reaches the registers of its own cell (R16, R88). -/
def State.mayAccess (s : State) (pl : Plane) (a : Nat) (write : Bool) : Bool :=
  match pl with
  | .mgmt => s.mgmtUp
  | .session p => s.sessionMay p.val a write
  | .cell c =>
    !((regAt a).map (·.mgmt)).getD false && (match csrBlock a with
    | some (.cell, k, _) => k = c.die.val * 128 + c.slot.val
    | _ => false)

/-- A write with its own rules: refused for rights, for the lowest cause that fails, or performed. -/
def State.guarded (s : State) (pl : Plane) (a : Nat) (fails : List (Option Nat)) (eff : State) : State :=
  if !s.mayAccess pl a true then s.csrRefuse pl a 4
  else match fails.foldl (fun x y => match x, y with
      | some i, some j => some (min i j)
      | some i, none => some i
      | none, z => z) none with
    | some k => s.csrRefuse pl a k
    | none => eff

/-- Whether a written value sets bits of a read-only field (R7). -/
def roTouched (r : RegRow) (v : W64) : Bool := v.toNat &&& r.ro != 0

/-- The value that a write of `v` leaves under the access codes (R7, R8): reserved bits stay 0, W1C bits clear, W1S bits
set. -/
def regPut (r : RegRow) (old v : W64) : W64 :=
  let keep := 2 ^ 64 - 1 - r.rw
  let x := (old.toNat &&& keep) ||| (v.toNat &&& r.rw)
  let x := x &&& (2 ^ 64 - 1 - (v.toNat &&& r.w1c))
  BitVec.ofNat 64 (x ||| (v.toNat &&& r.w1s))

/-- The causes of a write's checks where it sets bits of a read-only field too: that is cause 4, the lowest (R498). -/
def roLow (a : Nat) (v : W64) (fails : List (Option Nat)) : List (Option Nat) :=
  if (regAt a).any fun r => roTouched r v then fails.map fun f => f.map fun _ => 4 else fails

/-- Write by access codes: writable fields are performed, and bits of a read-only field count as a violation (R7). -/
def State.putReg (s : State) (pl : Plane) (a : Nat) (v : W64) : State :=
  match regAt a with
  | none => s.csrRefuse pl a 4
  | some r =>
    if r.rw = 0 && r.w1c = 0 && r.w1s = 0 && r.wo = 0 then s.csrRefuse pl a 4
    else
      let s := s.wr a (regPut r (s.rd a) v)
      if roTouched r v then s.csrRefuse pl a 4 else s

/-- The value that a read returns (R7, R8): WO bits read 0. -/
def State.readReg (s : State) (a : Nat) : W64 :=
  match regAt a with
  | none => 0
  | some r => BitVec.ofNat 64 ((s.rd a).toNat &&& (2 ^ 64 - 1 - r.wo))

end Sys2Proof.Machine
end

