-- ==== Sys2Proof/Machine/EphTab.lean ====
section
/-! DEFINITION. The Ephemeris tables as every unit reads them: entries (R395), ENT values (R399), timetables (R397, R398)
and peers (R396). -/

namespace Sys2Proof.Machine

/-- Register `w` of entry `i` of Horizon die `h` (R395). -/
def ephAddr (h i w : Nat) : Nat := hznBase h + 0x00400000 + 16 * i + 8 * w

/-- The fields of an entry. -/
structure EphE where
  start  : Nat
  dur    : Nat
  action : Nat
  kind   : Nat
  fmt    : Nat
  next   : Nat
  rsv    : Nat
  low    : Nat
  port   : Nat
  sub    : Nat
  peer   : Nat
  cell   : Nat
  rent   : Nat
  deriving DecidableEq, Repr

/-- The entry that 128 bits spell. -/
def ephOf (v : Nat) : EphE :=
  ⟨bitsOf v 127 96, bitsOf v 95 76, bitsOf v 75 72, bitsOf v 71 71, bitsOf v 70 65, bitsOf v 64 51, bitsOf v 50 45,
    bitsOf v 44 0, bitsOf v 44 40, bitsOf v 39 38, bitsOf v 37 26, bitsOf v 25 16, bitsOf v 15 0⟩

/-- The actions (R395). -/
def actNone : Nat := 0
def actSend : Nat := 1
def actRecv : Nat := 2
def actRadd : Nat := 3
def actVxch : Nat := 4
def actVdeadline : Nat := 5
def actLaunch : Nat := 6
def actBarrier : Nat := 7

/-- NEXT of an entry that ends its chain. -/
def noNext : Nat := 0x3FFF

/-- Entry `i` of Horizon die `h`. -/
def State.eph (s : State) (h i : Nat) : EphE := ephOf ((s.rd (ephAddr h i 1)).toNat * 2 ^ 64 + (s.rd (ephAddr h i 0)).toNat)

/-- The active timetable of a partition. -/
def State.ttActive (s : State) (p : Nat) : Nat := s.rdF (R.PART_TT_CTL p) F.PART_TT_CTL_ACTIVE

/-- Entries of each timetable of a partition on a Horizon die. -/
def State.ephN (s : State) (p h : Nat) : Nat := s.rdF (R.PART_EPH_RANGEh p h) F.PART_EPH_RANGEh_N

/-- First entry of timetable `t` of a partition on a Horizon die (R398). -/
def State.ephBase (s : State) (p h t : Nat) : Nat := s.rdF (R.PART_EPH_RANGEh p h) F.PART_EPH_RANGEh_BASE + t * s.ephN p h

/-- Horizon die and relative index of an ENT (R399). -/
def entDie (e : Nat) : Nat := e / 16384 % 4
def entRel (e : Nat) : Nat := e % 16384

/-- Whether an ENT lies in the partition's quota (R306, R399). -/
def State.entOk (s : State) (p e : Nat) : Bool := decide (entRel e < s.ephN p (entDie e))

/-- The entry of the active timetable that an ENT names. -/
def State.entry (s : State) (p e : Nat) : EphE := s.eph (entDie e) (s.ephBase p (entDie e) (s.ttActive p) + entRel e)

/-- The ENTs of a partition's timetables. -/
def State.ents (s : State) (p : Nat) : List Nat :=
  (List.range 4).flatMap fun h => (List.range (s.ephN p h)).map (h * 16384 + ·)

/-- The primary VXCH entries of the active timetable: the rounds of the member's pattern (R409). -/
def State.rounds (s : State) (p : Nat) : List Nat :=
  if flag (s.rd (R.PART_TT_CTL p)) (4 + s.ttActive p) then
    (s.ents p).filter fun e => (s.entry p e).action = actVxch && (s.entry p e).kind = 0
  else []

end Sys2Proof.Machine
end

