-- ==== Sys2Proof/Machine/Verdict.lean ====
section
/-! DEFINITION. The step verdict (R241-R258) and the check instructions (R243, R308, R309). -/

namespace Sys2Proof.Machine

/-- The verdict of a partition. -/
def State.vrdOf (s : State) (p : Nat) : VrdSt := SMap.get s.vrd VrdSt.reset p

/-- Replace the verdict of a partition. -/
def State.setVrd (s : State) (p : Nat) (x : VrdSt) : State := { s with vrd := SMap.set s.vrd VrdSt.reset p x }

/-- The timetables of a partition. -/
def State.ttOf (s : State) (p : Nat) : TtSt := SMap.get s.tts TtSt.reset p

/-- Replace the timetables of a partition. -/
def State.setTt (s : State) (p : Nat) (x : TtSt) : State := { s with tts := SMap.set s.tts TtSt.reset p x }

/-- PHASE of PART.VRD_STAT: 0 idle, 1 issued, 2 sealed, 3 final verdict formed. -/
def State.vphase (s : State) (p : Nat) : Nat := s.rdF (R.PART_VRD_STAT p) F.PART_VRD_STAT_PHASE
def State.setVphase (s : State) (p k : Nat) : State := s.wrF (R.PART_VRD_STAT p) F.PART_VRD_STAT_PHASE k

/-- PHASE of PART.ZEN_STAT: 0 idle, 1 pass one, 2 awaiting verdict, 3 pass two, 4 clearing. -/
def State.zphase (s : State) (p : Nat) : Nat := s.rdF (R.PART_ZEN_STAT p) F.PART_ZEN_STAT_PHASE

/-- EN of PART.VRD_CFG and of PART.ZEN_CTL. -/
def State.vrdEn (s : State) (p : Nat) : Bool := s.rdF (R.PART_VRD_CFG p) F.PART_VRD_CFG_EN = 1
def State.zenEn (s : State) (p : Nat) : Bool := s.rdF (R.PART_ZEN_CTL p) F.PART_ZEN_CTL_EN = 1

/-- GROUP, MEMBERS and NSTREAM. -/
def State.vgroup (s : State) (p : Nat) : Nat := s.rdF (R.PART_VRD_CFG p) F.PART_VRD_CFG_GROUP
def State.vmembers (s : State) (p : Nat) : Nat := s.rdF (R.PART_VRD_CFG p) F.PART_VRD_CFG_MEMBERS
def State.vnstream (s : State) (p : Nat) : Nat := s.rdF (R.PART_VRD_CFG p) F.PART_VRD_CFG_NSTREAM

/-- The step of the record in work: that of PART.VRD_STAT, or before the issue the step now open. -/
def State.vstep (s : State) (p : Nat) : Nat :=
  if s.vphase p = 0 then s.rdF (R.PART_ZEN_STEP p) F.PART_ZEN_STEP_STEP else s.rdF (R.PART_VRD_STAT p) F.PART_VRD_STAT_STEP

/-- PART.VRD_APPLIED. -/
def State.applied (s : State) (p : Nat) : Nat := s.rdF (R.PART_VRD_APPLIED p) F.PART_VRD_APPLIED_COUNT

/-! The contribution (R243, R256). -/

/-- A step's verdict starts: its record carries the step open at the issue. -/
def State.vbegin (s : State) (p : Nat) : State :=
  let st := s.rdF (R.PART_ZEN_STEP p) F.PART_ZEN_STEP_STEP
  ((s.wrF (R.PART_VRD_STAT p) F.PART_VRD_STAT_STEP st).setVphase p 1).setVrd p { s.vrdOf p with issued := true }

/-- A contribution of a partition: it starts a step's verdict, or is that of the step whose final verdict a deadline has already
formed (R251, R408), or waits for the step before to end (R256). -/
def State.vissue (s : State) (p : Nat) : State :=
  let v := s.vrdOf p
  if s.vphase p = 0 then s.vbegin p
  else if s.vphase p = 3 && !v.issued then s.setVrd p { v with issued := true }
  else s.setVrd p { v with queued := v.queued + 1 }

/-- The partition's contribution issues once every present cell has executed its verdict instruction; those instructions
retire (R243, R308). -/
def State.contribute (s : State) (p : Nat) : State :=
  let cs := s.present p
  if cs.isEmpty || !cs.all fun c => (s.cell c).vdone then s
  else
    let s := s.setAlm p { s.almOf p with contrib := (s.almOf p).contrib + 1 }
    let s := s.vissue p
    s.each cs fun s c =>
      let s := s.setCell c { s.cell c with vdone := false }
      s.each ((s.cell c).flight.filter fun f => match f.job.ins with
        | .chkVerdict _ _ _ => true
        | _ => false) fun s f => s.retire (.cell c) f

/-- Where `t` follows `s` by the execution of a verdict instruction of context `c`, the contribution issues if it was the last
(R243). -/
def State.verdictDone (s : State) (c : Ctx) (t : State) : State :=
  if !(s.ctx c).vdone && (t.ctx c).vdone then t.contribute (s.part c) else t

/-- A step of the partition ends once its final verdict has formed, its seal has been made, the Almanac's step end has been
made and the Zenith unit is idle: the step counts as applied, and a contribution that waited starts its own (R252, R256). -/
def State.stepEnded (s : State) (p : Nat) : State :=
  let v := s.vrdOf p
  if s.vphase p = 3 && v.sealed && (s.almOf p).verdict.isNone && s.zphase p = 0 then
    let s := if v.clean then
        s.wrF (R.PART_VRD_APPLIED p) F.PART_VRD_APPLIED_COUNT (min (s.applied p + 1) (2 ^ 48 - 1)) else s
    let s := (s.setVphase p 0).setVrd p { VrdSt.reset with queued := v.queued - 1 }
    if v.queued = 0 then s else s.vbegin p
  else s

/-! Records (R245, R249, R250). -/

/-- Bound of the norm sum in units of 2⁻²⁹⁸ (R249). -/
def nsqTop : Nat := 2 ^ 640

/-- Saturating sums of stream counts. -/
def sumCounts (a b : List Nat) : List Nat :=
  (List.range 16).map fun i => min (a.getD i 0 + b.getD i 0) 0xFFFFFFFF

/-- Two records combined (R249). -/
def combineRec (a b : VerdictRec) : VerdictRec :=
  let n := a.nsq + b.nsq
  { a with
    verdict := a.verdict ||| b.verdict
    nsq := if nsqTop ≤ n then nsqTop - 1 else n
    inf := a.inf || b.inf || decide (nsqTop ≤ n)
    nan := a.nan || b.nan
    mcount := a.mcount + b.mcount
    appMin := min a.appMin b.appMin
    appMax := max a.appMax b.appMax
    sent := sumCounts a.sent b.sent
    recv := sumCounts a.recv b.recv }

/-- Records combined in order; none where there is none. -/
def combineAll : List VerdictRec → Option VerdictRec
  | [] => none
  | r :: l => some (l.foldl combineRec r)

/-- The record that a member holds: its own combined with those that it has taken. -/
def VrdSt.comb (v : VrdSt) : Option VerdictRec := combineAll (v.own.toList ++ v.recs.map (·.2))

/-- The record that a member sends in a round that starts at `at'`: its own combined with those of the rounds before (R249). -/
def VrdSt.result (v : VrdSt) (at' : Nat) : Option VerdictRec :=
  combineAll (v.own.toList ++ (v.recs.filter fun r => decide (r.1 < at')).map (·.2))

/-- The shard value of a die as the exact number of units of 2⁻²⁹⁸ (R230, R245). -/
def shardUnits (z : ZRun) : Nat :=
  match f64Val (BitVec.ofNat 64 (convert z.tabs false fmtFP64 (Dy.mk z.acc (-298)).toXR).bits) with
  | .fin d => (d.at (-298)).toNat
  | _ => 0

/-- The member's record at its seal (R245). -/
def State.ownRec (s : State) (p : Nat) : VerdictRec :=
  let zs := if s.zenEn p then (List.range 16).map fun d => s.zr d p else []
  let fin := zs.filter fun z => !z.anan && !z.ainf
  let n := fin.foldl (fun a z => a + shardUnits z) 0
  let cnt := fun f => (List.range 16).map fun i => s.rdF (R.PART_VRD_CNTs p i) f
  { verdict := s.rd (R.PART_VRD_OWN p) ||| (if flag (s.rd (R.PART_VRD_UNC p)) 63 then BitVec.ofNat 64 (2 ^ vUNC) else 0)
    step := s.vstep p, group := s.vgroup p, nsq := if nsqTop ≤ n then nsqTop - 1 else n
    inf := (zs.any fun z => z.ainf && !z.anan) || decide (nsqTop ≤ n), nan := zs.any (·.anan), mcount := 1
    appMin := s.applied p, appMax := s.applied p, sent := cnt F.PART_VRD_CNTs_SENT, recv := cnt F.PART_VRD_CNTs_RECV }

/-- The record of a member that is not sealed in time (R255). -/
def State.lateRec (s : State) (p : Nat) : VerdictRec :=
  ⟨BitVec.ofNat 64 (2 ^ vLATE), s.vstep p, s.vgroup p, 0, false, false, 1, s.applied p, s.applied p, List.replicate 16 0,
    List.replicate 16 0⟩

/-- The other partitions of the module that share the member's group (R242). -/
def State.localMembers (s : State) (p : Nat) : List Nat :=
  if s.vrdEn p then (List.range 64).filter fun q => q != p && s.vrdEn q && decide (s.vgroup q = s.vgroup p) else []

/-- A record not combined. -/
def State.stray (s : State) (p : Nat) : State := s.count (R.PART_VRD_STRAY_CNT p) 1

/-- Whether a record is of the step and the group of a member (R250). -/
def State.mine (s : State) (p : Nat) (r : VerdictRec) : Bool := decide (r.step = s.vstep p) && decide (r.group = s.vgroup p)

/-- A record of the round that starts at `at'` meets the one that a partition holds (R249, R250, R256). -/
def State.takeRec (s : State) (p at' : Nat) (r : VerdictRec) : State :=
  if s.vphase p = 3 || !s.mine p r then s.stray p
  else s.setVrd p { s.vrdOf p with recs := (s.vrdOf p).recs ++ [(at', r)] }

/-- A member's record joins the combinations of the other members on the module (R242); one that has formed its final verdict, or
is in another step, does not combine it (R250, R256). -/
def State.joinLocal (s : State) (p : Nat) (r : VerdictRec) : State := s.each (s.localMembers p) fun s q => s.takeRec q 0 r

/-- Whether pass work or check work of the step is outstanding on a cell (R244). -/
def CellCtx.checksOut (x : CellCtx) (step : Nat) : Bool :=
  (x.dusk ++ x.dawn).any (fun w => w.sample.isSome && decide (w.step < step)) ||
    (List.range 2).any fun r => match SMap.get x.samples none r with
      | some q => decide (q.pass.step < step)
      | none => false

/-- Whether the step's contribution can be sealed (R244). -/
def State.sealable (s : State) (p : Nat) : Bool :=
  let a := s.almOf p
  let n := a.contrib - (s.vrdOf p).queued
  (s.vrdOf p).issued && !(s.vrdOf p).sealed && decide (n ≤ a.closed) && (!s.zenEn p || (s.vrdOf p).oneDone) && (s.present p).all fun c => !(s.cell c).checksOut n

/-- The seal (R244, R248, R255, R257): the record forms unless a late one stands for it, and the open record and the
counts restart. -/
def State.vseal (s : State) (p : Nat) : State :=
  let v := s.vrdOf p
  let r := s.ownRec p
  let s := s.wr (R.PART_VRD_OWN p) (if flag (s.rd (R.PART_VRD_UNC p)) 63 then BitVec.ofNat 64 (2 ^ vUNC) else 0)
  let s := s.each (List.range 16) fun s i => s.wr (R.PART_VRD_CNTs p i) 0
  let s := if s.vphase p = 3 then s else s.setVphase p 2
  if v.late then s.setVrd p { v with sealed := true }
  else (s.setVrd p { v with sealed := true, own := some r }).joinLocal p r

/-- VERDICT_SEAL. -/
def execVerdictSeal (p : Fin 64) (s : State) : Host.Outcome State Fault Refusal :=
  .next (if s.sealable p then (s.vseal p).stepEnded p else s)

/-- A record received in the round that starts at `at'` is combined, over the panel for every member of the group (R242, R249). -/
def State.recordIn (s : State) (p at' : Nat) (r : VerdictRec) : State :=
  let ok := s.vphase p != 3 && s.mine p r
  let s := s.takeRec p at' r
  if ok then s.each (s.localMembers p) fun s q => s.takeRec q at' r else s

/-- VERDICT_RECORD_RECEIVE: the record of a round that is under way. -/
def execVerdictRecordReceive (p : Fin 64) (r : VerdictRec) (s : State) : Host.Outcome State Fault Refusal :=
  .next (s.recordIn p s.time.ns.toNat r)

/-! The final verdict (R251, R252). -/

/-- Set a bit of a word where a condition holds. -/
def orBit (w : W64) (b : Bool) (k : Nat) : W64 := if b then w ||| BitVec.ofNat 64 (2 ^ k) else w

/-- The expected count of a stream. -/
def State.expected (s : State) (p i : Nat) : Nat :=
  let v := s.rd (R.PART_VRD_EXPECTj p (i / 2))
  if i % 2 = 0 then fld v 31 0 else fld v 63 32

/-- The final word from the combined record, by the checks of R251. -/
def State.finalWord (s : State) (p : Nat) (r : VerdictRec) : W64 :=
  if !s.vrdEn p then 0
  else
    let w := orBit r.verdict (r.mcount != s.vmembers p) vMISS
    let w := orBit w (r.appMin != r.appMax) vCONS
    if flag w vMISS || flag w vLATE then w
    else
      let w := orBit w ((List.range (s.vnstream p)).any fun i =>
        r.sent.getD i 0 != s.expected p i || r.recv.getD i 0 != s.expected p i) vCONS
      if r.nan then orBit w true vNAN else orBit w r.inf vOVF

/-- The global squared norm (R251). -/
def finalNsq (w : W64) (r : VerdictRec) : W64 :=
  if flag w vMISS || flag w vLATE || r.inf || r.nan then 0
  else BitVec.ofNat 64 (convert ⟨0, 0, 0, 0, 0, 0⟩ false fmtFP64 (Dy.mk r.nsq (-298)).toXR).bits

/-- The period of a timetable that contains a time: period 0 before its epoch (R397, R404). -/
def State.periodAt (s : State) (p t at' : Nat) : Nat :=
  (at' - (s.rd (R.PART_TT_EPOCHt p t)).toNat) / (4 * s.rdF (R.PART_TT_CFGt p t) F.PART_TT_CFGt_PERIOD)

/-- The start of an entry's occurrence in the period of timetable `t` that contains a time, in nanoseconds (R397, R404). -/
def State.occAt (s : State) (p t at' : Nat) (e : EphE) : Nat :=
  (s.rd (R.PART_TT_EPOCHt p t)).toNat + 4 * (s.periodAt p t at' * s.rdF (R.PART_TT_CFGt p t) F.PART_TT_CFGt_PERIOD + e.start)

/-- The start of an entry's occurrence in the current period of the active timetable. -/
def State.occStart (s : State) (p : Nat) (e : EphE) : Nat := s.occAt p (s.ttActive p) s.time.ns.toNat e

/-- The start of the current occurrence of the entry that an ENT names, as the clock of its Horizon die shows it (R389). -/
def State.entStart (s : State) (p ent : Nat) : Nat := (s.seenBy (16 + entDie ent)).occStart p (s.entry p ent)

/-- The event of an ENT has been performed in the occurrence that starts at a time (R408). -/
def State.setFired (s : State) (p ent at' : Nat) : State :=
  let t := s.ttOf p
  s.setTt p { t with fired := t.fired.filter (·.1 != ent) ++ [(ent, at')] }

/-- A group of one, or a partition whose steps no verdict decides: it uses no slot and no deadline (R252, Table: PART.VRD_CFG). -/
def State.lone (s : State) (p : Nat) : Bool := !s.vrdEn p || s.vmembers p = 1

/-- The occurrence of the step's VDEADLINE entry; a group of one takes the instant (R406). -/
def State.deadline (s : State) (p : Nat) : Nat :=
  match (s.ents p).find? fun e => (s.entry p e).action = actVdeadline with
  | some e => if s.lone p then s.time.ns.toNat else s.entStart p e
  | none => s.time.ns.toNat

/-- Ten microseconds. -/
def tenUs : Nat := 10000

/-- What a final verdict does to the timetables: CLEAN, the switch on LATE, and the return (R406, R407). -/
def State.ttVerdict (s : State) (p : Nat) (w : W64) : State :=
  let a := R.PART_TT_CTL p
  let n := if w = 0 then min (s.rdF a F.PART_TT_CTL_CLEAN + 1) 255 else 0
  let s := s.wrF a F.PART_TT_CTL_CLEAN n
  let act := s.ttActive p
  let ret := s.rdF a F.PART_TT_CTL_RET_CLEAN
  if (act = 0 && flag w vLATE && flag (s.rd a) 5) || (act = 1 && ret != 0 && decide (n = ret)) then
    s.setTt p { s.ttOf p with sw := (s.ttOf p).sw ++ [(s.deadline p + tenUs, act)] }
  else s

/-- The deadline of this period is one of a step whose final verdict has formed: it is not that of the step after it (R251, R408; log entry
23). -/
def State.closeDeadline (s : State) (p : Nat) : State :=
  s.each ((s.ents p).filter fun n => (s.entry p n).action = actVdeadline) fun s n => s.setFired p n (s.entStart p n)

/-- The final verdict forms: the step is decided (R251, R252). -/
def State.formFinal (s : State) (p : Nat) : State :=
  let v := s.vrdOf p
  let r := v.comb.getD { s.lateRec p with verdict := 0, mcount := 0 }
  let w := s.finalWord p r
  let s := (s.wr (R.PART_VRD_LAST p) w).wr (R.PART_VRD_NSQ p) (finalNsq w r)
  let s := s.count (if w = 0 then R.PART_VRD_CLEAN_CNT p else R.PART_VRD_DIRTY_CNT p) 1
  let s := s.each (List.range 8) fun s k => s.count (R.PART_VRD_BITk_CNT p k) (bnat (flag w k))
  let s := s.setAlm p { s.almOf p with verdict := some w }
  (((s.setVphase p 3).setVrd p { v with clean := w = 0 }).ttVerdict p w).closeDeadline p

/-- Whether every round of the member's pattern has been combined (R251, R252). -/
def State.roundsDone (s : State) (p : Nat) : Bool :=
  s.lone p ||
    ((s.localMembers p).all (fun q => (s.vrdOf q).own.isSome) &&
      (s.rounds p ++ (s.localMembers p).flatMap s.rounds).all fun e =>
        (s.vrdOf p).rounds.contains e || (s.localMembers p).any fun q => (s.vrdOf q).rounds.contains e)

/-- FINAL_VERDICT. -/
def execFinalVerdict (p : Fin 64) (s : State) : Host.Outcome State Fault Refusal :=
  .next (if s.vphase p = 2 && s.roundsDone p then s.formFinal p else s)

/-! Host writes (R247, R254, R256). -/

/-- VRD_RETR. -/
def execVrdRetr (pl : Plane) (p : Fin 64) (s : State) : Host.Outcome State Fault Refusal :=
  .next (s.guarded pl (R.PART_VRD_OWN p) [] (s.raise p vRETR))

/-- VRD_UNC_CLEAR. -/
def execVrdUncClear (pl : Plane) (p : Fin 64) (s : State) : Host.Outcome State Fault Refusal :=
  .next (s.guarded pl (R.PART_VRD_UNC p) [] (s.wrF (R.PART_VRD_UNC p) F.PART_VRD_UNC_VALID 0))

/-! Check instructions (R308, R309). -/

/-- Format K with every field 0. -/
def fmtK0 : FmtK := ⟨0, 0, 0, 0, false, 0, 0, 0, false, 0, 0⟩

/-- chk.verdict: it is held in flight until the contribution issues. -/
def perfChkVerdict (j : Job) (c : Ctx) (s : State) : Perf :=
  match c with
  | .zen _ _ => .refuse 1 s
  | .cell k =>
    let x := s.cell k
    if x.vdone then .wait
    else match s.bareFail c j.ins with
      | some q => .refuse q s
      | none => .done (s.setCell k { x with vdone := true }) { Flight.plain j with hold := true }

/-- chk.retract. -/
def perfChkRetract (j : Job) (c : Ctx) (s : State) : Perf := .done (s.raise (s.part c) vRETR) (Flight.plain j)

/-- chk.sample: marks the next pass of an array. -/
def perfChkSample (f : FmtK) (j : Job) (c : Ctx) (s : State) : Perf :=
  match c with
  | .zen _ _ => .refuse 1 s
  | .cell k =>
    let x := s.cell k
    .done (s.setCell k (if f.imm = 0 then { x with markDusk := true } else { x with markDawn := true })) (Flight.plain j)

/-- chk.vlast. -/
def perfChkVlast (f : FmtK) (j : Job) (c : Ctx) (s : State) : Perf :=
  .done s { Flight.plain j with rd := some (f.rd.val, s.rd (R.PART_VRD_LAST (s.part c))) }

/-- chk.verdict: the contribution issues where this was the last one (R243). -/
def execChkVerdict (c : Ctx) (p : Pred) (f : FmtK) (s : State) : Host.Outcome State Fault Refusal :=
  let i := Instr.chkVerdict c p f
  .next (s.issue c p i (f = { fmtK0 with bar := f.bar, bare := f.bare }) [] []
    (s.verdictDone c (s.enqueue c .chk i perfChkVerdict)))

/-- chk.retract. -/
def execChkRetract (c : Ctx) (p : Pred) (f : FmtK) (s : State) : Host.Outcome State Fault Refusal :=
  .next (s.issueUnit c p .chk (.chkRetract c p f) (f = fmtK0) [] [] perfChkRetract)

/-- chk.sample. -/
def execChkSample (c : Ctx) (p : Pred) (f : FmtK) (s : State) : Host.Outcome State Fault Refusal :=
  .next (s.issueUnit c p .chk (.chkSample c p f) (f = { fmtK0 with imm := f.imm } && f.imm.toNat < 2) [] [] (perfChkSample f))

/-- chk.vlast. -/
def execChkVlast (c : Ctx) (p : Pred) (f : FmtK) (s : State) : Host.Outcome State Fault Refusal :=
  .next (s.issueUnit c p .chk (.chkVlast c p f) (f = { fmtK0 with rd := f.rd }) [f.rd.val] [] (perfChkVlast f))

end Sys2Proof.Machine
end

