-- ==== Sys2Proof/Machine/Coll.lean ====
section
/-! DEFINITION. The collective unit (R305-R307): arming (R404), the transfer that a send makes (R24, R97, R377), what a
received transfer does to its destination (R98, R299), and completion. -/

namespace Sys2Proof.Machine

/-- The entry that an ENT names in timetable `t`. -/
def State.entryT (s : State) (p t e : Nat) : EphE := s.eph (entDie e) (s.ephBase p (entDie e) t + entRel e)

/-- The sub-port of an entry. -/
def EphE.subPort (e : EphE) : SubPort :=
  ⟨⟨e.port / 8 % 4, Nat.mod_lt _ (by decide)⟩, ⟨e.port % 8, Nat.mod_lt _ (by decide)⟩, ⟨e.sub % 4, Nat.mod_lt _ (by decide)⟩⟩

/-- Word A of the peer that an entry names (R396): the peer entry of the same Horizon die. -/
def peerAddr (ent : Nat) (e : EphE) : Nat := R.HZN_PEERi_A (entDie ent) e.peer

/-- STATE codes of a peer. -/
def peerFree : Nat := 0
def peerLive : Nat := 1
def peerLostSt : Nat := 2

/-- Whether the timetable `t` of a partition has passed its last commit. -/
def State.ttValid (s : State) (p t : Nat) : Bool := flag (s.rd (R.PART_TT_CTL p)) (4 + t)

/-! Blocks of a transfer (R76-R78, R97, R377). -/

/-- Blocks of one plane along and across the group's direction. -/
def DescV.blkDims (d : DescV) : Nat × Nat :=
  let g := d.group
  if g.dir then (cdiv d.e1 g.g, cdiv d.e0 g.s) else (cdiv d.e0 g.g, cdiv d.e1 g.s)

/-- Blocks of a transfer: one where the group code names none. -/
def DescV.blkCount (d : DescV) : Nat := if d.scaled then d.blkDims.1 * d.blkDims.2 * d.e2 * d.e3 else 1

/-- The block of element `j` of a row, in the order of the scale stream. -/
def DescV.blkIx (d : DescV) (r : Row) (j : Nat) : Nat :=
  if d.scaled then
    let ix := d.scaleIx r j
    ix.1 + d.blkDims.1 * (ix.2 + d.blkDims.2 * (r.i2 + d.e2 * r.i3))
  else 0

/-- The first element of each block, in the order of the scale stream. -/
def DescV.blkFirst (d : DescV) : List (Row × Nat) :=
  let g := d.group
  (List.range d.e3).flatMap fun k => (List.range d.e2).flatMap fun m => (List.range d.blkDims.2).flatMap fun r =>
    (List.range d.blkDims.1).map fun b =>
      if g.dir then (⟨b * g.g, m, k⟩, r * g.s) else (⟨r * g.s, m, k⟩, b * g.g)

/-- Bytes of the element stream of a descriptor in format `f`. -/
def DescV.elemStream (d : DescV) (t : Tabs) (f : Nat) : Nat := d.e1 * d.e2 * d.e3 * packedBytes d.e0 (fmtWidth t f)

/-- The two streams of a transfer, the elements saturated and overflowed, and the NaN events. -/
structure Xfer where
  elems  : List Byte
  scales : List Byte
  sat    : Nat
  ovf    : Nat
  nans   : List NanEvt

/-- The transfer of a send descriptor (R97): a tensor with its scale tensor goes unchanged, another as one block. -/
def State.xfer (s : State) (j : Job) (ds sc : DescV) : Xfer :=
  let t := j.tabs
  if ds.scaled then ⟨s.streamOf t ds, ds.blkFirst.map fun x => s.byteAt (ds.scaleRun sc x.1 x.2).1, 0, 0, []⟩
  else
    let rows := ds.rows.map fun r => s.rowElems t ds r
    let e := chooseScale (amaxOf (rows.flatMap fun r => r.map (elemVal t ds.fmt))) (maxfinite t ds.fmt)
    let qs := rows.map fun r => r.map fun b => convert t j.ovf ds.fmt ((elemVal t ds.fmt b).scale (-e)).toXR
    let evs := (rows.flatMap id).zipIdx.filterMap fun x =>
      if (elemVal t ds.fmt x.1).isNan then some (nanOp 0 ds.fmt ds.fmt x.1 fmtNone 0 x.2 true) else none
    ⟨qs.flatMap fun r => packElems (fmtWidth t ds.fmt) (r.map (·.bits)), [BitVec.ofNat 8 (e + 127).toNat],
      ((qs.flatMap id).map (·.sat)).sum, ((qs.flatMap id).map (·.ovf)).sum, evs⟩

/-! Frames (R377, R378, R404). -/

/-- Bytes of a stream that one frame carries. -/
def frameData : Nat := 8192

/-- Frames of a transfer. -/
def xferFrames (total stotal : Nat) : Nat := cdiv stotal frameData + cdiv total frameData

/-- STRM byte of the tensor subheader. -/
def strmByte (f : FmtK) : Nat := f.strm.val + 128 * bnat f.grad

/-- Field K of a collective job. -/
def collK (j : Job) : FmtK :=
  match j.ins with
  | .collSlot _ _ f => f
  | _ => fmtK0

/-- The frames of a transfer, SCALE before DATA. -/
def tensorFrames (ent : Fin 65536) (fmt grp strm step : Nat) (x : Xfer) : List TensorFrame :=
  let sc := chunks frameData x.scales.length x.scales
  let el := chunks frameData x.elems.length x.elems
  let all := sc.zipIdx.map (fun y => (0, y)) ++ el.zipIdx.map (fun y => (1, y))
  all.zipIdx.map fun y =>
    { ent := ent
      kind := BitVec.ofNat 8 y.1.1
      fmt := BitVec.ofNat 8 fmt
      grp := BitVec.ofNat 8 grp
      strm := BitVec.ofNat 8 strm
      step := BitVec.ofNat 48 step
      frames := all.length
      fidx := y.2
      offset := frameData * y.1.2.2
      total := x.elems.length
      stotal := x.scales.length
      data := y.1.2.1 }

/-- Bytes on the wire that a tensor frame takes beside its data, with preamble and inter-frame gap. -/
def frameOver (tag v6 : Bool) : Nat := 14 + (if tag then 4 else 0) + (if v6 then 40 else 20) + 8 + 32 + 32 + 4 + 20

/-- Bytes on the wire of a transfer's frames. -/
def wireBytes (tag v6 : Bool) (total stotal : Nat) : Nat := xferFrames total stotal * frameOver tag v6 + total + stotal

/-- Bytes per nanosecond of a sub-port in a port mode (R366). -/
def portRate (mode : Nat) : Nat := if mode = 0 then 200 else if mode = 1 then 100 else 50

/-- Configuration of an entry's port, and whether its peer has an IPv6 address. -/
def State.portCfg (s : State) (e : EphE) : W64 := s.rd (R.HZN_ETH_CFGq (e.port / 8) (e.port % 8))
def State.peerV6 (s : State) (ent : Nat) (e : EphE) : Bool := s.rdF (peerAddr ent e) F.HZN_PEERi_A_V6 = 1

/-- Whether a transfer fits the slot of an entry (R404). -/
def State.fitsSlot (s : State) (ent : Nat) (e : EphE) (total stotal : Nat) : Bool :=
  let c := s.portCfg e
  let v6 := s.peerV6 ent e
  wireBytes (flag c 8) v6 total stotal + 40 * portRate (fld c 3 2) ≤ 4 * e.dur * portRate (fld c 3 2)

/-- A frame joins the queue of a sub-port (R385): one of a slot with the time before which it does not start and its action (R402). -/
def State.transmitAt (s : State) (sub : SubPort) (at' : Nat) (own : Option (Nat × Nat)) (f : Frame) : State :=
  { s with net := { s.net with wait := s.net.wait ++ [⟨sub, at', own, f⟩] } }

/-- A frame of other traffic joins the queue of a sub-port. -/
def State.transmit (s : State) (sub : SubPort) (f : Frame) : State := s.transmitAt sub 0 none f

/-- Whether frames of an action's slot still wait. -/
def State.sending (s : State) (p ent : Nat) : Bool := s.net.wait.any fun q => q.own = some (p, ent)

/-- The address of a peer. -/
def State.peerIp (s : State) (ent : Nat) (e : EphE) : IpAddr :=
  ⟨s.rdF (peerAddr ent e) F.HZN_PEERi_A_V6 = 1, s.rd (R.HZN_PEERi_B (entDie ent) e.peer), s.rd (R.HZN_PEERi_C (entDie ent) e.peer)⟩

/-- PANEL.MOD_ID. -/
def State.modId (s : State) : BitVec 32 := BitVec.ofNat 32 (s.rd R.PANEL_MOD_ID).toNat

/-- A stream's count of the open step (R257). -/
def State.countStream (s : State) (p strm : Nat) (f : Nat × Nat) : State :=
  let a := R.PART_VRD_CNTs p strm
  s.wrF a f (min (s.rdF a f + 1) 0xFFFFFFFF)

/-! Arming (R306, R404). -/

/-- Armed entries of a cell at most. -/
def armedMax : Nat := 256

/-- Replace the armed action of an entry. -/
def State.setArmed (s : State) (k : CellId) (a : Armed) : State :=
  s.setCell k { s.cell k with armed := (s.cell k).armed.map fun b => if b.ent = a.ent then a else b }

/-- An action that is not ready moves along its reserve chain, or completes LATE at its end (R405); on a timetable that is
no longer active it completes SWITCHED (R406). -/
def State.moveOn (s : State) (k : CellId) (a : Armed) : State :=
  let p := s.part (.cell k)
  if a.tt != s.ttActive p then s.setArmed k { a with status := some 5 }
  else
    let n := (s.entryT p a.tt a.now).next
    if n = noNext then ((s.setArmed k { a with status := some 2 }).raise p vLATE).count (R.PART_EPH_LATE_CNT p) 1
    else
      (s.setArmed k { a with now := entDie a.now * 16384 + n, reserve := true, began := false }).count
        (R.PART_EPH_RSV_CNT p) 1

/-- An action whose occurrence has already started at its arming moves along its chain at once (R404). -/
def State.skipPast (fuel : Nat) (s : State) (k : CellId) (ent : Nat) : State :=
  match fuel with
  | 0 => s
  | n + 1 =>
    let p := s.part (.cell k)
    match (s.cell k).armed.find? (·.ent = ent) with
    | some a =>
      let v := s.seenBy (16 + entDie a.now)
      if a.status.isNone && decide ((s.rd (R.PART_TT_EPOCHt p a.tt)).toNat ≤ v.time.ns.toNat) &&
          decide (v.occStart p (s.entryT p a.tt a.now) ≤ v.time.ns.toNat) then
        (s.moveOn k a).skipPast n k ent
      else s
    | none => s

/-- A descriptor that a send may name: a narrow format (R24). -/
def sendPermit : Permit := movPermit isEdgeNarrow true false

/-- The lowest cause that a coll.slot fails with (R24, R287, R306, R404); where ENT lies outside the quota, IMM says which descriptor the
action names. -/
def State.collFail (s : State) (c : Ctx) (j : Job) (f : FmtK) : Option Nat :=
  let p := s.part c
  let n := f.ent.val
  let e := s.entry p n
  let ds := descV (j.regs.getD f.ds.val)
  let imm := f.imm.toNat % 4
  let written := movPermit (· != fmtE8M0) true true
  if !s.entOk p n then
    lowest [s.bareFail c j.ins, some 5, if imm = 1 then s.movDescFail c j f.ds.val sendPermit else none,
      if imm = 2 then s.movDescFail c j f.dd.val written else none]
  else
    let want := if e.action = actSend then 1 else if e.action = actRecv || e.action = actRadd then 2 else 0
    let send := if want = 1 then
        lowest [s.movDescFail c j f.ds.val sendPermit,
          failIf (fmtWidth j.tabs e.fmt < fmtWidth j.tabs ds.fmt ||
            decide (2 ^ 24 < ds.elemStream j.tabs ds.fmt) ||
            !s.fitsSlot n e (ds.elemStream j.tabs ds.fmt) ds.blkCount) 7]
      else none
    let recv := if e.action = actRecv then s.movDescFail c j f.dd.val written
      else if e.action = actRadd then s.movDescFail c j f.dd.val (movPermit (· = fmtFP64) false true)
      else none
    lowest [s.bareFail c j.ins, failIf (want = 0 || imm != want) 7, send, recv]

/-- coll.slot: the unit arms the entry and holds the instruction until its action completes. -/
def perfCollSlot (f : FmtK) (j : Job) (c : Ctx) (s : State) : Perf :=
  match c with
  | .zen _ _ => .refuse 1 s
  | .cell k =>
    let x := s.cell k
    if armedMax ≤ x.armed.length || x.armed.any (·.ent = f.ent.val) then .wait
    else match s.collFail c j f with
      | some q => .refuse q s
      | none =>
        let a : Armed := ⟨f.ent.val, j, (s.nsAt (16 + entDie f.ent.val)).toNat, s.ttActive (s.part c), false, false, false, f.ent.val, none⟩
        .done ((s.setCell k { x with armed := x.armed ++ [a] }).skipPast 16384 k f.ent.val)
          { Flight.plain j with hold := true }

/-- coll.cancel: an action that has not begun is disarmed. -/
def perfCollCancel (f : FmtK) (j : Job) (c : Ctx) (s : State) : Perf :=
  match c with
  | .zen _ _ => .refuse 1 s
  | .cell k =>
    match (s.cell k).armed.find? fun a => a.ent = f.ent.val && a.status.isNone && !a.began with
    | some a => .done (s.setArmed k { a with status := some 4 }) { Flight.plain j with rd := some (f.rd.val, 1) }
    | none => .done s { Flight.plain j with rd := some (f.rd.val, 0) }

/-! Transfers (R97, R98, R299, R377). -/

/-- The events of a held instruction's action, to be recorded when it retires. -/
def State.addEvents (s : State) (k : CellId) (seq : Nat) (l : List NanEvt) : State :=
  if l.isEmpty then s
  else s.setCell k { s.cell k with flight := (s.cell k).flight.map fun f =>
    if f.job.seq = seq then { f with nan := l.head?, nans := l.length } else f }

/-- The status of an action abandoned under R254, or refused an allocation under R317: its RD is left unchanged. -/
def abandoned : Nat := 255

/-- The ranges that a send reads. -/
def Armed.sendRuns (a : Armed) : List Run :=
  let ds := descV (a.job.regs.getD (collK a.job).ds.val)
  ds.runs a.job.tabs ++ (if ds.scaled then ds.scaleRuns (descV (a.job.regs.getD ds.sdi)) else [])

/-- The ranges that a receive writes. -/
def Armed.recvRuns (a : Armed) : List Run :=
  let dd := descV (a.job.regs.getD (collK a.job).dd.val)
  dd.runs a.job.tabs ++ (if isEdgeNarrow dd.fmt && dd.scaled then dd.scaleRuns (descV (a.job.regs.getD dd.sdi)) else [])

/-- The frames of a transfer, each with the time at which it starts: one after another from the slot's start (R402). -/
def State.paced (s : State) (ent at' : Nat) (e : EphE) (frs : List TensorFrame) : List (Nat × TensorFrame) :=
  let c := s.portCfg e
  let n := fun (l : List TensorFrame) => (l.map fun t => t.data.length + frameOver (flag c 8) (s.peerV6 ent e)).sum
  frs.zipIdx.map fun x => (at' + cdiv (n (frs.take x.2)) (portRate (fld c 3 2)), x.1)

/-- A send begins: its frames leave in the slot that starts at `at'`, with the receiver's primary ENT. -/
def State.beginSend (s : State) (k : CellId) (a : Armed) (at' : Nat) : State :=
  let c := Ctx.cell k
  let p := s.part c
  let f := collK a.job
  let ds := descV (a.job.regs.getD f.ds.val)
  let sc := descV (a.job.regs.getD ds.sdi)
  let e := s.entryT p a.tt a.now
  let rent := (s.entryT p a.tt a.ent).rent
  let r := if ds.scaled then (s.resolve c (pagesOf a.sendRuns)).meshRead c a.sendRuns else s.unitRead c a.sendRuns
  match r.2 with
  | some q => (r.1.uncorrectable p q).setArmed k { a with began := true, status := some abandoned }
  | none =>
    let x := r.1.xfer a.job ds sc
    let s1 := ((r.1.setArmed k { a with began := true }).addEvents k a.job.seq x.nans).countConv c x.sat x.ovf
    let step := s.rdF (R.PART_ZEN_STEP p) F.PART_ZEN_STEP_STEP
    let frs := tensorFrames ⟨rent % 65536, Nat.mod_lt _ (by decide)⟩ ds.fmt ds.grp (strmByte f) step x
    s1.each (s1.paced a.now at' e frs) fun s t =>
      s.transmitAt e.subPort t.1 (some (p, a.ent)) (.tensor (s.peerIp a.now e) p t.2)

/-- Received elements as values: bits under their block's exponent. -/
def recvVals (t : Tabs) (fmt : Nat) (dd : DescV) (elems scales : List Byte) : List (Row × List (Nat × Nat)) :=
  let n := packedBytes dd.e0 (fmtWidth t fmt)
  dd.rows.zipIdx.map fun x =>
    let bs := (elems.drop (n * x.2)).take n
    (x.1, (List.range dd.e0).map fun j => (elemOf (fmtWidth t fmt) bs j, (scales.getD (dd.blkIx x.1 j) 127).toNat))

/-- The NaN events of the conversion of received elements (R64, R98); `x` holds each with its scale byte. -/
def recvNans (t : Tabs) (fmt fmtR : Nat) (x : List (Nat × Nat)) : List NanEvt :=
  x.zipIdx.filterMap fun q =>
    if q.1.2 = 255 then some ⟨0, 2, fmtR, fmtE8M0, fmtNone, 0, 0, q.2, 255, 0⟩
    else if (elemVal t fmt q.1.1).isNan then some (nanOp 0 fmtR fmt q.1.1 fmtNone 0 q.2 true)
    else none

/-- A received transfer is written into its destination (R98). -/
def State.recvWrite (s : State) (k : CellId) (a : Armed) (fmt grp : Nat) (elems scales : List Byte) : State :=
  let c := Ctx.cell k
  let p := s.part c
  let t := a.job.tabs
  let dd := descV (a.job.regs.getD (collK a.job).dd.val)
  let sc := descV (a.job.regs.getD dd.sdi)
  let keep := isEdgeNarrow dd.fmt && dd.scaled
  match s.allocateAll (writerOf c) p (pagesOf a.recvRuns) with
  | none => (s.violateInsn c 5 a.job.ins a.job.pc).setArmed k { a with status := some abandoned }
  | some s1 =>
    let s1 := s1.resolve c (pagesOf a.recvRuns)
    let s2 :=
      if keep then
        let s2 := s1.writeRuns (writerOf c) p (dd.runs t) elems
        s2.each (dd.blkFirst.zip scales) fun s x => s.sendWrite (writerOf c) p (dd.scaleRun sc x.1.1 x.1.2).1 [x.2]
      else
        let vals := recvVals t fmt { dd with grp := grp } elems scales
        let rows := vals.map fun r => (r.1, r.2.map fun q => convert t (s.ovf c) dd.fmt (scaledVal t fmt q.1 q.2).toXR)
        let all := rows.flatMap (·.2)
        let s2 := (s1.addEvents k a.job.seq (recvNans t fmt dd.fmt (vals.flatMap (·.2)))).countConv c (all.map (·.sat)).sum
          (all.map (·.ovf)).sum
        s2.each rows fun s r =>
          s.writeRuns (writerOf c) p (dd.rowRuns t r.1) (packElems (fmtWidth t dd.fmt) (r.2.map (·.bits)))
    let s3 := s2.setArmed k { a with doneTx := true }
    if (collK a.job).grad then s3.countStream p (collK a.job).strm.val F.PART_VRD_CNTs_RECV else s3

/-- One element of a received transfer is added (R299). -/
def raddStep (j : Job) (c : Ctx) (fmt : Nat) (dd : DescV) (g : GaddAcc) (x : Row × Nat × Nat × Nat × Nat) : GaddAcc :=
  match g.bad with
  | some _ => g
  | none =>
    let bits := x.2.2.1
    let sb := x.2.2.2.1
    let ix := x.2.2.2.2
    let v := scaledVal j.tabs fmt bits sb
    let fx := if v.isNan then (0, 0) else fxOf v
    let ev := if !v.isNan then []
      else if sb = 255 then [⟨0, 2, fmtNone, fmtE8M0, fmtNone, 0, 0, ix, 255, 0⟩]
      else [nanOp 0 fmtNone fmt bits fmtNone 0 ix true]
    let b := { g with sat := g.sat + fx.2, nans := g.nans ++ ev }
    let at' := ((dd.rowPart x.1 (8 * x.2.1) 8).headD (0, 0)).1
    match g.s.atomic (writerOf c) (g.s.part c) (ctxDie c) at' 8 (atomAdd 64 fx.1) with
    | .done s1 _ => { b with s := s1 }
    | .sealed s1 => { b with s := s1 }
    | .refused q s1 => if q = 5 then { b with s := s1, five := true } else { b with s := s1, eleven := true }
    | .lost s1 q => { b with s := s1, bad := some q }

/-- A received transfer is added into its destination by the rules of mov.gadd (R299). -/
def State.recvAdd (s : State) (k : CellId) (a : Armed) (fmt grp : Nat) (elems scales : List Byte) : State :=
  let c := Ctx.cell k
  let p := s.part c
  let t := a.job.tabs
  let dd := descV (a.job.regs.getD (collK a.job).dd.val)
  let rows := recvVals t fmt { dd with grp := grp } elems scales
  let els := rows.zipIdx.flatMap fun r => r.1.2.zipIdx.map fun q => (r.1.1, q.2, q.1.1, q.1.2, r.2 * dd.e0 + q.2)
  let g := els.foldl (raddStep a.job c fmt dd) ⟨s.resolve c (pagesOf (dd.runs t)), [], false, false, 0, [], none⟩
  let s1 := (g.s.countConv c g.sat 0).addEvents k a.job.seq g.nans
  let s2 := if g.five then s1.violateInsn c 5 a.job.ins a.job.pc
    else if g.eleven then s1.violateInsn c 0xB a.job.ins a.job.pc else s1
  match g.bad with
  | some q => (s2.uncorrectable p q).setArmed k { a with status := some abandoned }
  | none =>
    let s3 := s2.setArmed k { a with doneTx := true }
    if (collK a.job).grad then s3.countStream p (collK a.job).strm.val F.PART_VRD_CNTs_RECV else s3

/-! Completion (R306, R307). -/

/-- Whether a begun send has sent its last frame. -/
def State.sentAll (s : State) (p : Nat) (a : Armed) : Bool :=
  a.began && decide ((collK a.job).imm.toNat % 4 = 1) && !s.sending p a.ent

/-- The status with which an action of partition `p` completes, once it has. -/
def State.doneStatus (s : State) (p : Nat) (a : Armed) : Option Nat :=
  match a.status with
  | some q => some q
  | none => if a.doneTx || s.sentAll p a then some (bnat a.reserve) else none

/-- COLL_ACTION_COMPLETE: the action's instruction retires with its status. -/
def execCollActionComplete (c : CellId) (ent : Fin 65536) (s : State) : Host.Outcome State Fault Refusal :=
  let p := s.part (.cell c)
  .next
    (match (s.cell c).armed.find? (·.ent = ent.val) with
    | none => s
    | some a =>
      match s.doneStatus p a with
      | none => s
      | some q =>
        let f := collK a.job
        let s1 := if a.status.isNone && !a.doneTx && f.grad then s.countStream p f.strm.val F.PART_VRD_CNTs_SENT else s
        let s2 := s1.setCell c { s1.cell c with armed := (s1.cell c).armed.filter (·.ent != ent.val) }
        match (s2.cell c).flight.find? (·.job.seq = a.job.seq) with
        | some fl => s2.retire (.cell c) { fl with rd := if q = abandoned then none else some (f.rd.val, BitVec.ofNat 64 q) }
        | none => s2)

/-! The instructions. -/

/-- coll.slot: it waits at issue while the unit holds 256 armed entries or this entry (R306). -/
def execCollSlot (c : Ctx) (p : Pred) (f : FmtK) (s : State) : Host.Outcome State Fault Refusal :=
  let x := s.ctx c
  let i := Instr.collSlot c p f
  .next (s.issue c p i (f.rsv = 0 && f.ra = 0 && f.imm.toNat < 4) [f.rd.val] []
    (if armedMax ≤ x.armed.length || x.armed.any (·.ent = f.ent.val) then s.hold c i else s.enqueue c .coll i (perfCollSlot f)))

/-- coll.cancel. -/
def execCollCancel (c : Ctx) (p : Pred) (f : FmtK) (s : State) : Host.Outcome State Fault Refusal :=
  .next (s.issueUnit c p .coll (.collCancel c p f) (f = { fmtK0 with ent := f.ent, rd := f.rd }) [f.rd.val] []
    (perfCollCancel f))

end Sys2Proof.Machine
end

