-- ==== Sys2Proof/Machine/Row.lean ====
section
/-! DEFINITION. The row engine (R205-R213, R303): soft maximum, normalisation, their gradients, and the statistics
store. -/

namespace Sys2Proof.Machine

/-- Rows of a row instruction and entries of the statistics store (R205, R206). -/
def rowLim : Nat := 8192

/-- Statistics tags (R206). -/
def tagSmax : Nat := 1
def tagNorm : Nat := 2
def tagRms : Nat := 3

/-- SRC of the row engine's NaN events (R194). -/
def rowSrc : Nat := 4

/-- Formats that a row instruction reads (R205) and writes (R194). -/
def rowInPermit : Permit := ⟨fun k => (fpPar k).isSome && k != fmtFP64, 2 ^ 20, rowLim, false, true, false⟩
def rowOutPermit : Permit := ⟨fun k => k != fmtE8M0 && k != fmtFP64, 2 ^ 20, rowLim, false, true, true⟩

/-- What one row brings: its output elements, its entry, its conversions and NaN events, the counters of R208, and whether
its formula reads the inputs. -/
structure RowRes where
  ys   : List Nat
  ent  : Option (F32 × F32)
  sat  : Nat
  ovf  : Nat
  nans : List NanEvt
  mask : Nat
  pinf : Nat
  used : Bool

/-- A row under work: its converter settings, output format, the index of its first element, its inputs as FP32, and the
statistics entry (FIRST, SEC). -/
structure RowIn where
  job  : Job
  tout : Nat
  k0   : Nat
  xs   : List F32
  ds   : List F32
  m    : F32
  sec  : F32

/-- Conversion into FP32 under the instruction's overflow mode. -/
def RowIn.f32 (r : RowIn) (x : XR) : Conv := toF32 r.job.ovf x

/-- Conversion into the output format. -/
def RowIn.out (r : RowIn) (x : XR) : Conv := convert r.job.tabs r.job.ovf r.tout x

/-- Saturations and overflows of a list of conversions. -/
def satSum (l : List Conv) : Nat := l.foldl (fun a c => a + c.sat) 0
def ovfSum (l : List Conv) : Nat := l.foldl (fun a c => a + c.ovf) 0

/-- Whether one of the values is NaN. -/
def anyNan (l : List Val) : Bool := l.any (·.isNan)

/-- An operation on operands that are not NaN whose exact result is NaN is one event (R64); its operands as FP32. -/
def RowIn.invalid (r : RowIn) (res : XR) (operands : List Val) (k : Nat) (a b : F32) : List NanEvt :=
  if isNanX res && !anyNan operands then [nanOp rowSrc r.tout fmtFP32 a.toNat fmtFP32 b.toNat (r.k0 + k) false] else []

/-- An invalid sum of a row (R193). DESIGN CHOICE (log entry 74): its event records the first infinite term as operand A, no operand
B, and the row's first element. -/
def RowIn.invalidSum (r : RowIn) (terms : List F32) : List NanEvt :=
  if (xsum (terms.map f32Val)).isNan && !anyNan (terms.map f32Val) then
    [nanOp rowSrc r.tout fmtFP32 (firstInf terms).toNat fmtNone 0 r.k0 false]
  else []

/-- The events of a sum whose terms the formula computed: one for each NaN term, or one for an invalid sum (R193). The event of a
NaN term that is an input element is that of its read. -/
def RowIn.sumEvents (r : RowIn) (terms : List F32) : List NanEvt :=
  (terms.zipIdx.filter fun t => (f32Val t.1).isNan).map (fun t =>
    nanOp rowSrc r.tout fmtFP32 t.1.toNat fmtNone 0 (r.k0 + t.2) true) ++ r.invalidSum terms

/-- A row all of whose outputs are NaN. -/
def RowIn.nanRow (r : RowIn) : List Nat := r.xs.map fun _ => (r.out .nan).bits

/-- The FP32 value n. -/
def natVal (n : Nat) : Val := .fin (Dy.ofInt n)

/-- z_i of the soft maximum (R208). -/
def RowIn.zs (r : RowIn) (alpha : Val) : List Conv := r.xs.map fun x => r.f32 (alpha.mul (f32Val x)).toXR

/-- The event of a backward row whose entry holds a NaN (R209). -/
def RowIn.entryNan (r : RowIn) : RowRes :=
  ⟨r.nanRow, none, 0, 0, [nanOp rowSrc r.tout fmtFP32 (if (f32Val r.m).isNan then r.m else r.sec).toNat fmtNone 0 r.k0 true], 0, 0, false⟩

/-- Soft maximum of a row (R208). -/
def rowSoftmaxRes (alpha : Val) (r : RowIn) : RowRes :=
  let zc := r.zs alpha
  let z := zc.map (·.val)
  if anyNan z then ⟨r.nanRow, some (0x7FC00000, 0x7FC00000), satSum zc, ovfSum zc, [], 0, 0, true⟩
  else
    let m := (z.drop 1).foldl Val.max (z.headD .nan)
    let mb := BitVec.ofNat 32 (r.f32 m.toXR).bits
    match m with
    | .inf true => ⟨r.xs.map fun _ => (r.out (.zero false)).bits, some (mb, 0), satSum zc, ovfSum zc, [], 1, 0, true⟩
    | .inf false =>
      let hit := z.map fun v => v.eqv (.inf false)
      let k := (hit.filter id).length
      let y := r.out ((natVal 1).divX (natVal k))
      let n := fun (x : Nat) => (hit.filter id).length * x
      ⟨hit.map fun h => if h then y.bits else (r.out (.zero false)).bits,
        some (mb, BitVec.ofNat 32 (r.f32 (natVal k).toXR).bits), satSum zc + n y.sat, ovfSum zc + n y.ovf, [], 0, 1, true⟩
    | _ =>
      let e := z.map fun v => expX (v.sub m)
      let ec := e.map r.f32
      let sc := r.f32 (xsum (ec.map (·.val))).toXR
      let y := e.map fun x => r.out (x.over sc.val)
      let all := zc ++ ec ++ [sc] ++ y
      ⟨y.map (·.bits), some (mb, BitVec.ofNat 32 sc.bits), satSum all, ovfSum all, [], 0, 0, true⟩

/-- Gradient of the soft maximum (R209). -/
def rowSmbwdRes (alpha : Val) (r : RowIn) : RowRes :=
  let m := f32Val r.m
  let sv := f32Val r.sec
  if m.isNan then r.entryNan
  else match m with
  | .inf _ => ⟨r.xs.map fun _ => (r.out (.zero false)).bits, none, 0, 0, [], 0, 0, false⟩
  | _ =>
    if sv.isNan then r.entryNan
    else
      let zc := r.zs alpha
      let yx := zc.map fun z => (expX (z.val.sub m)).over sv
      let yc := yx.map r.f32
      let dv := r.ds.map f32Val
      let px := yc.zipWith (fun y d => (d.mul y.val).toXR) dv
      let pc := px.map r.f32
      let cs := pc.map fun c => BitVec.ofNat 32 c.bits
      let cc := r.f32 (xsum (cs.map f32Val)).toXR
      let ox := yc.zipWith (fun y d => (y.val.mul (d.sub cc.val)).toXR) dv
      let oc := ox.map r.out
      let all := zc ++ yc ++ pc ++ [cc] ++ oc
      let ev := (List.range r.xs.length).flatMap fun i =>
        let y := (yc.getD i ⟨0, 0, 0⟩).val
        let d := dv.getD i .nan
        let xb := r.xs.getD i 0
        let db := r.ds.getD i 0
        r.invalid (yx.getD i .nan) [(zc.getD i ⟨0, 0, 0⟩).val] i xb db ++
          r.invalid (px.getD i .nan) [y, d] i xb db ++ r.invalid (ox.getD i .nan) [y, d, cc.val] i xb db
      ⟨oc.map (·.bits), none, satSum all, ovfSum all, r.sumEvents cs ++ ev, 0, 0, true⟩

/-- n / √(n · (v + n · ε)) for a sum v ≥ 0: 1 / √(v/n + ε) (R210). -/
def rstdX (n : Nat) (v eps : Val) : XR :=
  match v, eps with
  | .fin a, .fin e =>
    let d := (a.add (e.mul (Dy.ofInt n))).mul (Dy.ofInt n)
    if d.m = 0 then .inf false else .num false ((Dy.ofInt n).overSqrt d)
  | .inf _, .fin _ => .zero false
  | _, _ => .nan

/-- Normalisation of a row (R210). -/
def rowNormRes (rms : Bool) (eps : Val) (r : RowIn) : RowRes :=
  let n := r.xs.length
  let xv := r.xs.map f32Val
  let mc := if rms then Conv.plain 0 else r.f32 ((xsum xv).divX (natVal n))
  let mu := mc.val
  let vx := xv.map fun x => ((x.sub mu).mul (x.sub mu)).toXR
  let vc := vx.map r.f32
  let rc := r.f32 (rstdX n (xsum (vc.map (·.val))) eps)
  let rs := rc.val
  let ox := xv.map fun x => ((x.sub mu).mul rs).toXR
  let oc := ox.map r.out
  let all := [mc] ++ vc ++ [rc] ++ oc
  let mb := BitVec.ofNat 32 mc.bits
  let ev := (List.range n).flatMap fun i =>
    let x := xv.getD i .nan
    let xb := r.xs.getD i 0
    r.invalid (vx.getD i .nan) [x, mu] i xb mb ++ r.invalid (ox.getD i .nan) [x, mu, rs] i xb (BitVec.ofNat 32 rc.bits)
  ⟨oc.map (·.bits), some (mb, BitVec.ofNat 32 rc.bits), satSum all, ovfSum all,
    (if rms then [] else r.invalidSum r.xs) ++ r.sumEvents (vc.map fun v => BitVec.ofNat 32 v.bits) ++ ev, 0, 0, true⟩

/-- Gradient of a normalisation (R211). -/
def rowNormbwdRes (rms : Bool) (r : RowIn) : RowRes :=
  let n := r.xs.length
  let mu := f32Val r.m
  let rs := f32Val r.sec
  if mu.isNan || rs.isNan then r.entryNan
  else
    let xv := r.xs.map f32Val
    let dv := r.ds.map f32Val
    let hx := xv.map fun x => ((x.sub mu).mul rs).toXR
    let hc := hx.map r.f32
    let ac := if rms then Conv.plain 0 else r.f32 ((xsum dv).divX (natVal n))
    let qx := hc.zipWith (fun h d => (d.mul h.val).toXR) dv
    let qc := qx.map r.f32
    let qs := qc.map fun c => BitVec.ofNat 32 c.bits
    let bc := r.f32 ((xsum (qs.map f32Val)).divX (natVal n))
    let ox := hc.zipWith (fun h d => (rs.mul ((d.sub ac.val).sub (h.val.mul bc.val))).toXR) dv
    let oc := ox.map r.out
    let all := hc ++ [ac] ++ qc ++ [bc] ++ oc
    let ev := (List.range n).flatMap fun i =>
      let x := xv.getD i .nan
      let d := dv.getD i .nan
      let h := (hc.getD i ⟨0, 0, 0⟩).val
      let xb := r.xs.getD i 0
      let db := r.ds.getD i 0
      r.invalid (hx.getD i .nan) [x, mu, rs] i xb db ++ r.invalid (qx.getD i .nan) [h, d] i xb db ++
        r.invalid (ox.getD i .nan) [h, d, ac.val, bc.val, rs] i xb db
    ⟨oc.map (·.bits), none, satSum all, ovfSum all, (if rms then [] else r.invalidSum r.ds) ++ r.sumEvents qs ++ ev, 0, 0, true⟩

/-- m + ln s of an entry (R207). -/
def rowLseRes (r : RowIn) : RowRes :=
  let m := f32Val r.m
  let sv := f32Val r.sec
  let x : XR := match m with
    | .inf n => .inf n
    | _ => addLnX m sv
  let c := r.out x
  let ev := if isNanX x then
      [nanOp rowSrc r.tout fmtFP32 r.m.toNat fmtFP32 r.sec.toNat r.k0 (m.isNan || sv.isNan)]
    else []
  ⟨[c.bits], none, c.sat, c.ovf, ev, 0, 0, true⟩

/-! The instructions. -/

/-- A loaded element of the row engine: FP32 bits, counts and events (R194, R205). -/
def rowLoadEl (j : Job) (tout f bits scale k : Nat) : El :=
  let v := scaledVal j.tabs f bits scale
  if v.isNan then
    ⟨canonNan fmtFP32, 0, 0, [if scale = 255 then ⟨rowSrc, 2, tout, fmtE8M0, fmtNone, 0, 0, k, 255, 0⟩
      else nanOp rowSrc tout f bits fmtNone 0 k true]⟩
  else elOf (toF32 j.ovf v.toXR)

/-- Row `i` of an input. -/
def State.rowLoad (s : State) (j : Job) (tout n k0 i : Nat) : List El :=
  let d := descV (j.regs.getD n)
  let ds := descV (j.regs.getD d.sdi)
  let row : Row := ⟨i, 0, 0⟩
  (s.rowElems j.tabs d row).zipIdx.map fun e => rowLoadEl j tout d.fmt e.1 (s.scaleByte d ds row e.2) (k0 + e.2)

/-- The bytes of row `i` of an input, with its scales. -/
def rowInRuns (j : Job) (n i : Nat) : List Run :=
  let d := descV (j.regs.getD n)
  let ds := descV (j.regs.getD d.sdi)
  d.rowRuns j.tabs ⟨i, 0, 0⟩ ++
    (if d.scaled then ((List.range d.e0).map fun k => d.scaleRun ds ⟨i, 0, 0⟩ k).eraseDups else [])

/-- Entry `b` of the statistics store. -/
def CellCtx.stat (x : CellCtx) (b : Nat) : StatEnt := SMap.get x.stats StatEnt.zero b

/-- FIRST and SEC of an entry. -/
def StatEnt.first (e : StatEnt) : F32 := BitVec.ofNat 32 e.v.toNat
def StatEnt.sec (e : StatEnt) : F32 := BitVec.ofNat 32 (e.v.toNat / 2 ^ 32)

/-- An entry of two FP32 words and a tag. -/
def statOf (first sec : F32) (tag : Nat) : StatEnt := ⟨sec.append first, tag⟩

/-- Write the entries from base `b`. -/
def State.putStats (s : State) (k : CellId) (b tag : Nat) (l : List (F32 × F32)) : State :=
  let x := s.cell k
  s.setCell k { x with stats := l.zipIdx.foldl (fun m e => SMap.set m StatEnt.zero (b + e.2) (statOf e.1.1 e.1.2 tag)) x.stats }

/-- A row instruction: its inputs DS and DT, where the rows are counted, the tag its entries must carry, the tag it
writes, the check of its scalar, the formula of a row, and the reads of a row (R207-R212). -/
structure RowOp where
  ins  : List Nat
  out  : Nat
  sb   : Nat
  need : Option Nat
  tag  : Option Nat
  okS  : Bool
  fn   : RowIn → RowRes
  cc   : Nat → Nat
  rows : Bool

/-- The state of an instruction's work on its rows: memory so far, entries, totals and events, and the row at which an
uncorrectable word ended it. -/
structure RowAcc where
  s    : State
  ents : List (F32 × F32)
  sat  : Nat
  ovf  : Nat
  nans : List NanEvt
  mask : Nat
  pinf : Nat
  done : Nat
  bad  : Option Nat

/-- One row: read, formed and written, unless an earlier row ended the instruction (R254). -/
def rowStep (o : RowOp) (k : CellId) (j : Job) (n : Nat) (a : RowAcc) (i : Nat) : RowAcc :=
  match a.bad with
  | some _ => a
  | none =>
    let c := Ctx.cell k
    let du := descV (j.regs.getD o.out)
    let k0 := i * n
    let rs := o.ins.flatMap fun q => rowInRuns j q i
    let r := (a.s.resolve c (pagesOf rs)).meshRead c rs
    match r.2 with
    | some q => { a with s := r.1, bad := some q }
    | none =>
      let l := o.ins.map fun q => r.1.rowLoad j du.fmt q k0 i
      let bits := fun (x : List El) => x.map fun e => BitVec.ofNat 32 e.bits
      let e := (r.1.cell k).stat (o.sb + i)
      let y := o.fn ⟨j, du.fmt, k0, bits (l.headD []), bits ((l.drop 1).headD []), e.first, e.sec⟩
      let s2 := r.1.writeRuns (.cell k) (r.1.part c) (du.rowRuns j.tabs ⟨i, 0, 0⟩) (packElems (fmtWidth j.tabs du.fmt) y.ys)
      let flat := l.flatten
      let used := if y.used then flat else []
      { s := s2, ents := a.ents ++ y.ent.toList, sat := a.sat + y.sat + used.foldl (fun t x => t + x.sat) 0
        ovf := a.ovf + y.ovf + used.foldl (fun t x => t + x.ovf) 0, nans := a.nans ++ sortEvts (used.flatMap (·.nans) ++ y.nans)
        mask := a.mask + y.mask, pinf := a.pinf + y.pinf, done := a.done + 1, bad := none }
where
  /-- Events of a row in the order of their elements (R66). -/
  sortEvts (l : List NanEvt) : List NanEvt := l.mergeSort fun a b => a.elem ≤ b.elem

/-- The lowest cause that a row instruction fails with (R205-R207, R273, R287, R303). -/
def State.rowFail (s : State) (k : CellId) (o : RowOp) (j : Job) : Option Nat :=
  let c := Ctx.cell k
  let du := descV (j.regs.getD o.out)
  let d0 := descV (j.regs.getD (o.ins.headD o.out))
  let rows := d0.e1
  let sameShape := fun (d : DescV) => d.e0 = d0.e0 && d.e1 = d0.e1
  let runs := du.runs j.tabs
  lowest
    ([s.engineFail c j (if o.ins.isEmpty then { rowOutPermit with lim0 := 1 } else rowOutPermit) o.out] ++
      (o.ins.map fun q => s.engineFail c j rowInPermit q) ++
      [s.quotaFail c runs,
        failIf (!(sameShape du && o.ins.all fun q => sameShape (descV (j.regs.getD q)))) 7,
        failIf (rowLim < o.sb + rows) 7, failIf (!o.okS) 7,
        match o.need with
        | some t => failIf ((List.range rows).any fun i => ((s.cell k).stat (o.sb + i)).tag != t) 6
        | none => none])

/-- A row instruction on its rows. -/
def perfRow (op : Job → RowOp) (j : Job) (c : Ctx) (s : State) : Perf :=
  match c with
  | .zen _ _ => .refuse 1 s
  | .cell k =>
    let o := op j
    if (s.cell k).engineHold j .vec then .wait
    else match s.rowFail k o j with
    | some q => .refuse q s
    | none =>
      let d0 := descV (j.regs.getD (o.ins.headD o.out))
      let du := descV (j.regs.getD o.out)
      let p := s.part c
      let read := fun (n : Nat) => pagesOf ((List.range n).flatMap fun i => o.ins.flatMap fun q => rowInRuns j q i)
      if s.switching (read d0.e1 ++ pagesOf (du.runs j.tabs)) then .wait
      else match s.allocateAll (.cell k) p (pagesOf (du.runs j.tabs)) with
      | none => .refuse 5 s
      | some s1 =>
        let a := (List.range d0.e1).foldl (rowStep o k j d0.e0)
          ⟨s1.resolve c (pagesOf (du.runs j.tabs)), [], 0, 0, [], 0, 0, 0, none⟩
        let seen := read (if a.bad.isSome then a.done + 1 else a.done)
        let s0 := a.s.count (R.PART_TIER_EMPTY_CNT p) (seen.filter s.isFree).length
        let s2 := if o.rows then s0.count (R.CELL_ROW_CNT k) a.done else s0
        let s3 := ((s2.count (R.CELL_ROW_MASK_CNT k) a.mask).count (R.CELL_ROW_PINF_CNT k) a.pinf).countConv c a.sat a.ovf
        let s4 := match o.tag, a.bad with
          | some t, none => s3.putStats k o.sb t a.ents
          | _, _ => s3
        let s5 := match a.bad with
          | some q => s4.uncorrectable p q
          | none => s4
        .done s5 { Flight.plain j with nan := a.nans.head?, nans := a.nans.length, cc := a.done * o.cc d0.e0 }

/-- ρ of R212. -/
def rho (n : Nat) : Nat := max (cdiv n 64) 4

/-- A scalar operand as FP32 (R195, R205). -/
def rowScalar (f : FmtV) (j : Job) : Val := f32Val (BitVec.ofNat 32 (j.regs.getS f.rs.val).toNat)

/-- α must be positive and finite (R208). -/
def alphaOk : Val → Bool
  | .fin d => 0 < d.m
  | _ => false

/-- ε must be finite and not negative (R210). -/
def epsOk : Val → Bool
  | .fin d => 0 ≤ d.m
  | _ => false

/-- row.softmax. -/
def softmaxOp (f : FmtV) (j : Job) : RowOp :=
  let a := rowScalar f j
  ⟨[f.ds.val], f.du.val, f.sbase.val, none, some tagSmax, alphaOk a, rowSoftmaxRes a, fun n => 3 * rho n, true⟩

/-- row.smbwd. -/
def smbwdOp (f : FmtV) (j : Job) : RowOp :=
  let a := rowScalar f j
  ⟨[f.ds.val, f.dt.val], f.du.val, f.sbase.val, some tagSmax, none, alphaOk a, rowSmbwdRes a, fun n => 2 * rho n, true⟩

/-- row.norm and row.rms. -/
def normOp (rms : Bool) (f : FmtV) (j : Job) : RowOp :=
  let e := rowScalar f j
  ⟨[f.ds.val], f.du.val, f.sbase.val, none, some (if rms then tagRms else tagNorm), epsOk e, rowNormRes rms e,
    fun n => (if rms then 2 else 3) * rho n, true⟩

/-- row.normbwd: every entry carries TAG, which is NORM or RMS (R303). -/
def normbwdOp (f : FmtV) (_ : Job) : RowOp :=
  ⟨[f.ds.val, f.dt.val], f.du.val, f.sbase.val, some f.tag.val, none, f.tag = 2 || f.tag = 3,
    rowNormbwdRes (f.tag.val = tagRms), fun n => 2 * rho n, true⟩

/-- row.lse. -/
def lseOp (f : FmtV) (_ : Job) : RowOp :=
  ⟨[], f.du.val, f.sbase.val, some tagSmax, none, true, rowLseRes, fun _ => 1, false⟩

/-- What row.stst and row.stld permit of their descriptor: FP32 of extents (2, R) (R303). -/
def statPermit (dest : Bool) : Permit := ⟨fun k => k = fmtFP32, 2, rowLim, false, true, dest⟩

/-- The lowest cause that row.stst or row.stld fails with. -/
def State.statFail (s : State) (k : CellId) (j : Job) (n sb : Nat) (dest tagOk : Bool) : Option Nat :=
  let d := descV (j.regs.getD n)
  lowest [s.engineFail (.cell k) j (statPermit dest) n, failIf (d.e0 != 2) 3,
    if dest then s.quotaFail (.cell k) (d.runs j.tabs) else none,
    failIf (rowLim < sb + d.e1 || !tagOk) 7]

/-- cc of a transfer of statistics entries (R212). -/
def statCc (rows : Nat) : Nat := max 4 (cdiv rows 64)

/-- row.stst (R207). -/
def perfRowStst (f : FmtV) (j : Job) (c : Ctx) (s : State) : Perf :=
  match c with
  | .zen _ _ => .refuse 1 s
  | .cell k =>
    if (s.cell k).engineHold j .vec then .wait
    else match s.statFail k j f.du.val f.sbase.val true true with
    | some q => .refuse q s
    | none =>
      let d := descV (j.regs.getD f.du.val)
      if s.switching (pagesOf (d.runs j.tabs)) then .wait
      else match s.allocateAll (.cell k) (s.part c) (pagesOf (d.runs j.tabs)) with
      | none => .refuse 5 s
      | some s1 =>
        let s2 := (s1.resolve c (pagesOf (d.runs j.tabs))).each (List.range d.e1) fun s i =>
          let e := (s.cell k).stat (f.sbase.val + i)
          s.writeRuns (.cell k) (s.part c) (d.rowRuns j.tabs ⟨i, 0, 0⟩) (packElems 32 [e.first.toNat, e.sec.toNat])
        .done s2 { Flight.plain j with cc := statCc d.e1 }

/-- row.stld (R207). -/
def perfRowStld (f : FmtV) (j : Job) (c : Ctx) (s : State) : Perf :=
  match c with
  | .zen _ _ => .refuse 1 s
  | .cell k =>
    if (s.cell k).engineHold j .vec then .wait
    else match s.statFail k j f.ds.val f.sbase.val false (f.tag != 0) with
    | some q => .refuse q s
    | none =>
      let d := descV (j.regs.getD f.ds.val)
      if s.switching (pagesOf (d.runs j.tabs)) then .wait else
      let r := s.unitRead c (d.runs j.tabs)
      match r.2 with
      | some a => .done (r.1.uncorrectable (s.part c) a) (Flight.plain j)
      | none =>
        let ents := (List.range d.e1).map fun i =>
          let l := r.1.rowElems j.tabs d ⟨i, 0, 0⟩
          (BitVec.ofNat 32 (l.getD 0 0), BitVec.ofNat 32 (l.getD 1 0))
        .done (r.1.putStats k f.sbase.val f.tag.val ents) { Flight.plain j with cc := statCc d.e1 }

/-- row.softmax. -/
def execRowSoftmax (c : Ctx) (p : Pred) (f : FmtV) (s : State) : Host.Outcome State Fault Refusal :=
  .next (s.issueUnit c p .row (.rowSoftmax c p f) (f = { fmtV0 with ds := f.ds, du := f.du, rs := f.rs, sbase := f.sbase }) [f.rs.val] [] (perfRow (softmaxOp f)))

/-- row.smbwd. -/
def execRowSmbwd (c : Ctx) (p : Pred) (f : FmtV) (s : State) : Host.Outcome State Fault Refusal :=
  .next (s.issueUnit c p .row (.rowSmbwd c p f) (f = { fmtV0 with ds := f.ds, dt := f.dt, du := f.du, rs := f.rs, sbase := f.sbase }) [f.rs.val] [] (perfRow (smbwdOp f)))

/-- row.norm. -/
def execRowNorm (c : Ctx) (p : Pred) (f : FmtV) (s : State) : Host.Outcome State Fault Refusal :=
  .next (s.issueUnit c p .row (.rowNorm c p f) (f = { fmtV0 with ds := f.ds, du := f.du, rs := f.rs, sbase := f.sbase }) [f.rs.val] [] (perfRow (normOp false f)))

/-- row.rms. -/
def execRowRms (c : Ctx) (p : Pred) (f : FmtV) (s : State) : Host.Outcome State Fault Refusal :=
  .next (s.issueUnit c p .row (.rowRms c p f) (f = { fmtV0 with ds := f.ds, du := f.du, rs := f.rs, sbase := f.sbase }) [f.rs.val] [] (perfRow (normOp true f)))

/-- row.normbwd. -/
def execRowNormbwd (c : Ctx) (p : Pred) (f : FmtV) (s : State) : Host.Outcome State Fault Refusal :=
  .next (s.issueUnit c p .row (.rowNormbwd c p f) (f = { fmtV0 with ds := f.ds, dt := f.dt, du := f.du, sbase := f.sbase, tag := f.tag }) [] [] (perfRow (normbwdOp f)))

/-- row.lse. -/
def execRowLse (c : Ctx) (p : Pred) (f : FmtV) (s : State) : Host.Outcome State Fault Refusal :=
  .next (s.issueUnit c p .row (.rowLse c p f) (f = { fmtV0 with du := f.du, sbase := f.sbase }) [] [] (perfRow (lseOp f)))

/-- row.stst. -/
def execRowStst (c : Ctx) (p : Pred) (f : FmtV) (s : State) : Host.Outcome State Fault Refusal :=
  .next (s.issueUnit c p .row (.rowStst c p f) (f = { fmtV0 with du := f.du, sbase := f.sbase }) [] [] (perfRowStst f))

/-- row.stld. -/
def execRowStld (c : Ctx) (p : Pred) (f : FmtV) (s : State) : Host.Outcome State Fault Refusal :=
  .next (s.issueUnit c p .row (.rowStld c p f) (f = { fmtV0 with ds := f.ds, sbase := f.sbase, tag := f.tag }) [] [] (perfRowStld f))

end Sys2Proof.Machine
end

