-- ==== Sys2Proof/Machine/Zen.lean ====
section
/-! DEFINITION. The Zenith instructions (R228, R230, R234-R239, R304) and the blocks of a pass (R227). Streams are 0 W, 1 M,
2 V, 3 G and 4 Q. -/

namespace Sys2Proof.Machine

/-- SRC of a Zenith unit's NaN events (R217). -/
def zenSrc : Nat := 5

/-- CONF of a directory entry (R223). -/
def State.zconf (s : State) (n : Nat) : W64 := s.rd (zdirAddr n 0)

/-- Elements of a block. -/
def State.zcount (s : State) (n : Nat) : Nat := fld (s.zconf n) 16 0

/-- The format field of a stream; G is FP32, or FX64 under the code of FP64 (R227). -/
def State.zfmt (s : State) (n st : Nat) : Nat :=
  let c := s.zconf n
  match st with
  | 0 => fld c 59 54
  | 1 => fld c 53 48
  | 2 => fld c 47 42
  | 3 => if flag c 60 then fmtFP64 else fmtFP32
  | _ => fld c 41 36

/-- Whether an entry has a stream: a format field of 0x3F marks it absent (R223). -/
def State.zhas (s : State) (n st : Nat) : Bool := s.zfmt n st != 0x3F

/-- The address of a stream; stream 5 is the scale tensor of Q. -/
def State.zaddr (s : State) (n st : Nat) : Nat := fld (s.rd (zdirAddr n (1 + st))) 47 0

/-- The group of Q. -/
def State.zgrp (s : State) (n : Nat) : Grp := Grp.ofCode (fld (s.zconf n) 35 28)

/-- The block length L of Q: G along the stream, or S where the group runs across it; 0 without scales (R228). -/
def State.zblk (s : State) (n : Nat) : Nat :=
  let g := s.zgrp n
  if g.gsize = 0 then 0 else if g.dir then g.s else g.g

/-- The scale exponent of M or V in word 7 of an entry. -/
def State.zscale (s : State) (n st : Nat) : Nat :=
  let k := s.rd (zdirAddr n 7)
  if st = 1 then fld k 23 16 else if st = 2 then fld k 15 8 else 127

/-- The store scale of a stream in the block in work: that of zen.setsc, or the entry's (R228). -/
def ZBlk.storeScale (b : ZBlk) (s : State) (st : Nat) : Int :=
  let d := sgrp (s.zscale b.entry st)
  if st = 1 then b.msc.getD d else if st = 2 then b.vsc.getD d else 0

/-! Blocks (R227). -/

/-- A one-dimensional descriptor. -/
def zdesc (base fmt sdi e0 e1 grp s1 : Nat) : Desc :=
  BitVec.ofNat 256 (base + fmt * 2 ^ 48 + sdi * 2 ^ 58 + e0 * 2 ^ 64 + e1 * 2 ^ 84 + 2 ^ 104 + 2 ^ 128 + grp * 2 ^ 148 +
    s1 * 2 ^ 160)

/-- The descriptors d0 to d5 of a block. DESIGN CHOICE (log entry 75): where QGRP has no block length, R228 lays out no scale bytes,
and d5 has extent 0 = 0. -/
def State.zdescs (s : State) (n : Nat) : List Desc :=
  let k := s.zcount n
  let l := s.zblk n
  let base := fun st => if s.zhas n st then s.zaddr n st else 0
  let main := (List.range 5).map fun st =>
    zdesc (base st) (s.zfmt n st) (if st = 4 then 5 else 0) k 1 (if st = 4 then fld (s.zconf n) 35 28 else 0) 0
  let qs :=
    if l = 0 then zdesc (s.zaddr n 5) fmtE8M0 0 0 1 0 0
    else if (s.zgrp n).dir then zdesc (s.zaddr n 5) fmtE8M0 0 1 (cdiv k l) 0 1
    else zdesc (s.zaddr n 5) fmtE8M0 0 (cdiv k l) 1 0 0
  main ++ [qs]

/-- The registers that a block entry loads. -/
def State.zload (s : State) (p n : Nat) (z : ZRun) (r : RegFile) : RegFile :=
  let r := (s.zdescs n).zipIdx.foldl (fun r d => r.setD d.2 d.1) r
  let r := r.setS 1 (BitVec.ofNat 64 (s.zcount n))
  let r := r.setS 2 (BitVec.ofNat 64 n)
  let r := r.setS 3 (BitVec.ofNat 64 (fld (s.rd (zdirAddr n 7)) 63 24))
  let r := r.setS 4 (if z.pass = 2 then s.rd (R.PART_VRD_NSQ p) else 0)
  let r := r.setS 5 (BitVec.ofNat 64 z.step)
  let r := (List.range 4).foldl (fun r i => r.setS (8 + i) (s.rd (zdirAddr n (8 + i)))) r
  let r := z.hp.zipIdx.foldl (fun r h => r.setS (16 + h.2) h.1) r
  r.setP 6 false

/-- A die has finished the phase of a partition (R226). -/
def State.zdieDone (s : State) (d p : Nat) : State :=
  let s := s.setZr d p { s.zr d p with done := true }
  let a := R.PART_ZEN_STAT p
  s.wr a (s.rd a ||| BitVec.ofNat 64 (2 ^ d))

/-- The next block of a pass starts, or the die has finished (R226, R227). -/
def State.zenter (s : State) (d : Fin 16) (p : Fin 64) : State :=
  let z := s.zr d p
  let c := Ctx.zen d p
  match z.todo with
  | [] => s.zdieDone d p
  | n :: rest =>
    let x := s.ctx c
    let pc := if z.pass = 2 then s.rdF (R.PART_ZEN_PC2 p) F.PART_ZEN_PC2_PC else s.rdF (R.PART_ZEN_PC1 p) F.PART_ZEN_PC1_PC
    let s := s.setCtx c { x with regs := s.zload p n z x.regs, zpc := pc, line := none, held := none }
    (s.setZr d p { z with blk := some ⟨n, 0, none, none⟩, todo := rest }).count
      (if z.pass = 2 then R.PART_ZEN_BLK2_CNT p else R.PART_ZEN_BLK1_CNT p) 1

/-- After a retirement: the block in work has ended and nothing of it is unretired, so the next one starts. -/
def State.zadvance (s : State) (c : Ctx) : State :=
  match c with
  | .cell _ => s
  | .zen d p =>
    let z := s.zr d p
    if z.pass != 0 && z.blk.isNone && !z.done && (s.ctx c).unretired.isEmpty then s.zenter d p else s

/-- The block in work ends without zen.next: its pass-two work is abandoned (R254). -/
def State.zabandon (s : State) (c : Ctx) : State :=
  match c with
  | .cell _ => s
  | .zen d p =>
    let z := s.zr d p
    if z.pass = 2 then (s.setZr d p { z with blk := none }).setCtx c { s.ctx c with waiting := [] } else s

/-- The block in work of a context. -/
def State.zcur (s : State) (c : Ctx) : Option ZBlk :=
  match c with
  | .cell _ => none
  | .zen d p => (s.zr d p).blk

/-- Change the block in work. -/
def State.setCur (s : State) (c : Ctx) (b : ZBlk) : State :=
  match c with
  | .cell _ => s
  | .zen d p => s.setZr d p { s.zr d p with blk := some b }

/-! Loads and stores (R228). -/

/-- Whether the block of an entry is frozen (R231). -/
def State.zfrozen (s : State) (n : Nat) : Bool := flag (s.zconf n) 62

/-- Whether an instruction permits a stream that the entry has. Of a frozen block no stream but G is read or written (R231):
DESIGN CHOICE (log entry 75): an instruction that names another is refused as for a stream that is absent. -/
def State.zstream (s : State) (b : ZBlk) (allowed : List Nat) (st : Nat) : Option Nat :=
  failIf (!(allowed.contains st && s.zhas b.entry st && (st == 3 || !s.zfrozen b.entry))) 7

/-- The byte range of elements [off, off + n) of a packed stream. -/
def zrunOf (addr w off n : Nat) : Run :=
  (addr + off * w / 8, if n = 0 then 0 else (off * w + n * w + 7) / 8 - off * w / 8)

/-- A loaded element of stream `st`, whose stored bits are `bits`. -/
def zloadEl (j : Job) (fmt scale st bits k : Nat) : El :=
  let v := if st = 3 && fmt = fmtFP64 then Val.fin ⟨signed 64 bits, -40⟩ else scaledVal j.tabs fmt bits scale
  if v.isNan then
    ⟨canonNan fmtFP32, 0, 0, [if scale = 255 then ⟨zenSrc, 2, fmtFP32, fmtE8M0, fmtNone, 0, 0, k, 255, 0⟩
      else nanOp zenSrc fmtFP32 fmt bits fmtNone 0 k true]⟩
  else elOf (toF32 j.ovf v.toXR)

/-- zen.ld: elements at or beyond COUNT load as +0. -/
def perfZenLd (f : FmtV) (j : Job) (c : Ctx) (s : State) : Perf :=
  match s.zcur c with
  | none => .wait
  | some b =>
    let st := f.strm.val
    let off := (j.regs.getS f.rs.val).toNat
    let fmt := s.zfmt b.entry st
    let w := fmtWidth j.tabs fmt
    let n := min 1024 (s.zcount b.entry - off)
    let r := zrunOf (s.zaddr b.entry st) w off n
    match lowest [s.zstream b [0, 1, 2, 3] st, failIf (!s.runsOk (s.part c) [r]) 4] with
    | some q => .refuse q s
    | none =>
      if s.switching (pagesOf [r]) then .wait else
      let s0 := s.setCur c { b with off := off }
      let u := s0.unitRead c [r]
      match u.2 with
      | some a => .done ((u.1.uncorrectable (s.part c) a).zabandon c) (Flight.plain j)
      | none =>
        let v := leNat (u.1.bytesAt r.1 r.2) / 2 ^ (off * w % 8)
        u.1.tileDone c j f.td.val (tileEls fun k =>
          if k < n then zloadEl j fmt (s.zscale b.entry st) st (v / 2 ^ (w * k) % 2 ^ w) k else ⟨0, 0, 0, []⟩) fastCc

/-- The random word of element `x` of a parameter stream (R235). -/
def srWord (seed : W64) (step x st : Nat) : Nat :=
  let m := 2 ^ 64
  let z := (seed.toNat + step * 0x9E3779B97F4A7C15 + (4 * (x % 2 ^ 40) + st) * 0xD1B54A32D192ED03) % m
  let z := (z ^^^ z / 2 ^ 30) * 0xBF58476D1CE4E5B9 % m
  let z := (z ^^^ z / 2 ^ 27) * 0x94D049BB133111EB % m
  let z := z ^^^ z / 2 ^ 31
  z / 2 ^ 32

/-- The value that stochastic rounding takes before the range rules: `y` itself where its quantum divides it, else the
adjacent value above when u < fraction · 2³² (R236). -/
def srRound (p : FpPar) (y : Dy) (u : Nat) : Dy :=
  if y.m = 0 then y
  else
    let q : Int := max y.ex p.emin - p.m
    if q ≤ y.e then y
    else
      let h := pow2 (q - y.e)
      let n := y.m / (h : Int)
      let r := (y.m % (h : Int)).toNat
      if r = 0 then y else if u * h < r * 2 ^ 32 then ⟨n + 1, q⟩ else ⟨n, q⟩

/-- An element stored with stochastic rounding (R236). -/
def srEl (j : Job) (fmt : Nat) (a : F32) (sc : Int) (u k : Nat) : El :=
  let v := (f32Val a).scale (-sc)
  let x := match v, fpPar fmt with
    | .fin d, some p => (srRound p d u).toXR
    | _, _ => v.toXR
  let c := convert j.tabs j.ovf fmt x
  ⟨c.bits, c.sat, c.ovf, if v.isNan then [nanOp zenSrc fmt fmtFP32 a.toNat fmtNone 0 k true] else []⟩

/-- The scale exponent of the block of Q that holds tile element `k`: whole blocks of `l` elements (R82, R228). -/
def zqScale (t : Tabs) (fmt l n k : Nat) (tile : List F32) : Int :=
  let lo := k / l * l
  chooseScale (amaxOf ((List.range (min l (n - lo))).map fun i => f32Val (tile.getD (lo + i) 0))) (maxfinite t fmt)

/-- Store elements as packed bits from bit offset `off · w` of a stream, keeping the neighbouring elements' bits. -/
def State.zput (s : State) (c : Ctx) (addr w off : Nat) (last : Bool) (els : List Nat) : State :=
  let r := zrunOf addr w off els.length
  let old := leNat (s.bytesAt r.1 r.2)
  let b := off * w % 8
  let v := els.foldr (fun e acc => e % 2 ^ w + 2 ^ w * acc) 0
  let top := b + els.length * w
  let new := old % 2 ^ b + v * 2 ^ b + (if last then 0 else old / 2 ^ top * 2 ^ top)
  s.sendWrite (writerOf c) (s.part c) r.1 (leBytes r.2 new)

/-- zen.st: elements at or beyond COUNT are not written. -/
def perfZenSt (f : FmtV) (j : Job) (c : Ctx) (s : State) : Perf :=
  match s.zcur c, c with
  | some b, .zen d p =>
    let st := f.strm.val
    let e := b.entry
    let off := (j.regs.getS f.rs.val).toNat
    let fmt := s.zfmt e st
    let w := fmtWidth j.tabs fmt
    let n := min 1024 (s.zcount e - off)
    let l := s.zblk e
    let r := zrunOf (s.zaddr e st) w off n
    let qs : List Run := if st = 4 && l != 0 && n != 0 then [(s.zaddr e 5 + off / l, cdiv n l)] else []
    let whole := st != 4 || l = 0 || (off % l = 0 && ((off + n) % l = 0 || off + n = s.zcount e))
    match lowest [s.zstream b [0, 1, 2, 4] st, failIf (!whole) 7, failIf (!s.runsOk p (r :: qs)) 4,
        s.quotaFail c (r :: qs)] with
    | some q => .refuse q s
    | none =>
      if s.switching (pagesOf (r :: qs)) then .wait else
      match s.allocateAll (writerOf c) p (pagesOf (r :: qs)) with
      | none => .refuse 5 s
      | some s1 =>
        let s1 := (s1.setCur c { b with off := off }).resolve c (pagesOf (r :: qs))
        let t := (s.ctx c).tile f.ta.val
        let z := s.zr d p
        let pix := fld (s.rd (zdirAddr e 7)) 63 24
        let sr := st != 4 && fmt != fmtFP32
        let sc := fun k => if st = 4 then (if l = 0 then 0 else zqScale j.tabs fmt l n k t) else b.storeScale s st
        let els := (List.range n).map fun k =>
          let a := t.getD k 0
          if sr then srEl j fmt a (sc k) (srWord z.seed z.step (pix + off + k) st) k
          else storeEl j zenSrc fmt a (sc k) k
        let s2 := s1.zput c (s.zaddr e st) w off (off + n = s.zcount e) (els.map (·.bits))
        let s3 := s2.each (qs.flatMap fun q => (List.range q.2).map fun m => (q.1 + m, m * l)) fun s q =>
          s.sendWrite (writerOf c) p q.1 [BitVec.ofInt 8 (sc q.2 + 127)]
        let ev := s3.evts c els
        let s4 := s3.count (R.PART_ZEN_SR_CNT p) (if sr then n else 0)
        .done (s4.countConv c (els.foldl (fun a x => a + x.sat) 0) (els.foldl (fun a x => a + x.ovf) 0))
          { Flight.plain j with nan := ev.1, nans := ev.2 }
  | _, _ => .wait

/-- zen.setsc: the signed exponent in s[RS], clamped. -/
def perfZenSetsc (f : FmtV) (j : Job) (c : Ctx) (s : State) : Perf :=
  match s.zcur c with
  | none => .wait
  | some b =>
    match s.zstream b [1, 2] f.strm.val with
    | some q => .refuse q s
    | none =>
      let e := max (-127) (min 127 (j.regs.getS f.rs.val).toInt)
      .done (s.setCur c (if f.strm = 1 then { b with msc := some e } else { b with vsc := some e })) (Flight.plain j)

/-! Tile operations (R230, R304). -/

/-- zen.nsq: exact squares in units of 2⁻²⁹⁸. -/
def perfZenNsq (f : FmtV) (j : Job) (c : Ctx) (s : State) : Perf :=
  match c with
  | .cell _ => .refuse 1 s
  | .zen d p =>
    let z := s.zr d p
    if z.pass = 2 then .refuse 7 s
    else
      let t := (s.ctx c).tile f.ta.val
      let step := fun (z : ZRun) (a : F32) => match f32Val a with
        | .nan => { z with anan := true }
        | .inf _ => { z with ainf := true }
        | .fin q => { z with acc := z.acc + ((q.mul q).at (-298)).toNat }
      let els := t.zipIdx.map fun a => (⟨0, 0, 0,
        if (f32Val a.1).isNan then [nanOp zenSrc fmtNone fmtFP32 a.1.toNat fmtNone 0 a.2 true] else []⟩ : El)
      let ev := s.evts c els
      .done (s.setZr d p (t.foldl step z)) { Flight.plain j with nan := ev.1, nans := ev.2 }

/-- zen.amax: an infinity counts as the largest finite value; a NaN element gives the canonical NaN. -/
def perfZenAmax (f : FmtV) (j : Job) (c : Ctx) (s : State) : Perf :=
  let t := (s.ctx c).tile f.ta.val
  let bad := t.zipIdx.filter fun a => (f32Val a.1).isNan
  let mag := fun (a : F32) => match f32Val a with
    | .inf _ => 0x7F7FFFFF
    | .fin q => (toF32 false q.abs.toXR).bits
    | .nan => 0
  let v := if bad.isEmpty then t.foldl (fun m a => max m (mag a)) 0 else canonNan fmtFP32
  let ev := s.evts c (bad.map fun a => ⟨0, 0, 0, [nanOp zenSrc fmtFP32 fmtFP32 a.1.toNat fmtNone 0 a.2 true]⟩)
  .done s { Flight.plain j with rd := some (f.rs.val, BitVec.ofNat 64 v), nan := ev.1, nans := ev.2 }

/-- zen.sgn. -/
def perfZenSgn (f : FmtV) (j : Job) (c : Ctx) (s : State) : Perf :=
  let t := (s.ctx c).tile f.ta.val
  s.tileDone c j f.td.val (tileEls fun k =>
    let a := t.getD k 0
    let v := f32Val a
    if v.isNan then ⟨canonNan fmtFP32, 0, 0, [nanOp zenSrc fmtFP32 fmtFP32 a.toNat fmtNone 0 k true]⟩
    else ⟨if v.isZero then 0 else if v.isNeg then 0xBF800000 else 0x3F800000, 0, 0, []⟩) fastCc

/-! Batched LDLᵀ (R237, R238). -/

/-- What the factorisation of a lane gathers. -/
structure Ldl where
  l    : List (List F32)
  d    : List F32
  ok   : Bool
  sat  : Nat
  ovf  : Nat
  nans : List NanEvt

/-- One converted expression: an expression that is NaN is one NaN event, of KIND 1 where no operand is NaN. -/
def ldlConv (j : Job) (x : XR) (a : F32) (opNan : Bool) (elem : Nat) : F32 × Nat × Nat × List NanEvt :=
  let c := toF32 j.ovf x
  (BitVec.ofNat 32 c.bits, c.sat, c.ovf,
    if isNanX x then [nanOp zenSrc fmtFP32 fmtFP32 a.toNat fmtNone 0 elem (opNan || (f32Val a).isNan)] else [])

/-- The lane's matrix as a function of row and column, and the element number of (0, 0). -/
structure Lane where
  n    : Nat
  a    : Nat → Nat → F32
  elem : Nat

/-- Column `k` of an attempt with pivot offset `lift`. -/
def ldlColumn (j : Job) (m : Lane) (lift tau : F32) (r : Ldl) (k : Nat) : Ldl :=
  let lv := fun i c => f32Val ((r.l.getD i []).getD c 0)
  let dv := fun c => f32Val (r.d.getD c 0)
  let js := List.range k
  let sum := xsum (js.map fun c => ((lv k c).mul (lv k c)).mul (dv c))
  let e := (((f32Val (m.a k k)).add (f32Val lift)).sub sum)
  let pk := ldlConv j e.toXR (m.a k k) (sum.isNan) (m.elem + k * m.n + k)
  let dk := f32Val pk.1
  let ok := r.ok && ((f32Val tau).scale (-24)).lt dk
  let r1 : Ldl := { r with d := r.d ++ [pk.1], ok := ok, sat := r.sat + pk.2.1, ovf := r.ovf + pk.2.2.1, nans := r.nans ++ pk.2.2.2 }
  (List.range (m.n - 1 - k)).foldl (fun r i0 =>
    let i := k + 1 + i0
    let sm := xsum (js.map fun c => ((lv i c).mul (lv k c)).mul (dv c))
    let q := ldlConv j (((f32Val (m.a i k)).sub sm).divX dk) (m.a i k) (sm.isNan || dk.isNan) (m.elem + i * m.n + k)
    { r with l := r.l.set i ((r.l.getD i []) ++ [q.1]), sat := r.sat + q.2.1, ovf := r.ovf + q.2.2.1, nans := r.nans ++ q.2.2.2 }) r1

/-- One attempt of a lane. -/
def ldlAttempt (j : Job) (m : Lane) (eps : Val) (tau : F32) (t : Nat) (r : Ldl) : Ldl :=
  let lf := ldlConv j (((natVal t).mul eps).mul (f32Val tau)).toXR tau false m.elem
  let r0 : Ldl := ⟨List.replicate m.n [], [], true, r.sat + lf.2.1, r.ovf + lf.2.2.1, r.nans ++ lf.2.2.2⟩
  (List.range m.n).foldl (ldlColumn j m lf.1 tau) r0

/-- A lane: its final attempt and the attempt that succeeded, and its retries. -/
structure LaneRes where
  r    : Ldl
  won  : Option Nat
  tries : Nat

/-- Attempts from `t` on, `fuel` of them. -/
def ldlTry (j : Job) (m : Lane) (eps : Val) (tau : F32) (fuel t : Nat) (r : Ldl) : LaneRes :=
  match fuel with
  | 0 => ⟨r, none, 3⟩
  | k + 1 =>
    let r1 := ldlAttempt j m eps tau t r
    if r1.ok then ⟨r1, some t, t⟩ else ldlTry j m eps tau k (t + 1) r1

/-- Factor a lane: τ, then up to four attempts. -/
def ldlLane (j : Job) (m : Lane) (eps : Val) : LaneRes :=
  let tr := xsum ((List.range m.n).map fun k => f32Val (m.a k k))
  let tau := ldlConv j (tr.divX (natVal m.n)) (m.a 0 0) ((List.range m.n).any fun k => (f32Val (m.a k k)).isNan) m.elem
  let r0 : Ldl := ⟨[], [], false, tau.2.1, tau.2.2.1, tau.2.2.2⟩
  let good := match f32Val tau.1 with
    | .fin d => decide (0 < d.m)
    | _ => false
  if good then ldlTry j m eps tau.1 4 0 r0 else ⟨r0, none, 0⟩

/-- Element (i, k) that a lane writes: L below the diagonal, D on it, +0 above; a failed lane has L = I and D = +0. -/
def LaneRes.out (r : LaneRes) (i k : Nat) : F32 :=
  if r.won.isNone || i < k then 0 else if i = k then r.r.d.getD k 0 else (r.r.l.getD i []).getD k 0

/-- What zen.ldlt permits of its descriptors. -/
def ldltPermit (dest : Bool) : Permit := ⟨fun k => k = fmtFP32, 64, 64 * 512, false, false, dest⟩

/-- The lowest cause of zen.ldlt. -/
def State.ldltFail (s : State) (c : Ctx) (j : Job) (f : FmtV) : Option Nat :=
  let ds := descV (j.regs.getD f.ds.val)
  let dt := descV (j.regs.getD f.dt.val)
  let eps := f32Val (BitVec.ofNat 32 (j.regs.getS f.rs.val).toNat)
  let pos := match eps with
    | .fin d => decide (0 < d.m)
    | _ => false
  lowest [s.descFail (s.part c) j.tabs (ldltPermit false) ds ds, s.descFail (s.part c) j.tabs (ldltPermit true) dt dt,
    failIf (ds.grp != 0 || dt.grp != 0 || ds.e1 % ds.e0 != 0 || decide (512 * ds.e0 < ds.e1)) 3,
    failIf (!sameExtents ds dt || !pos) 7, s.quotaFail c (dt.runs j.tabs)]

/-- zen.ldlt. -/
def perfZenLdlt (f : FmtV) (j : Job) (c : Ctx) (s : State) : Perf :=
  let ds := descV (j.regs.getD f.ds.val)
  let dt := descV (j.regs.getD f.dt.val)
  let p := s.part c
  match s.ldltFail c j f with
  | some q => .refuse q s
  | none =>
    if s.switching (pagesOf (ds.runs j.tabs ++ dt.runs j.tabs)) then .wait else
    let u := s.unitRead c (ds.runs j.tabs)
    match u.2 with
    | some a => .done ((u.1.uncorrectable p a).zabandon c) (Flight.plain j)
    | none =>
      match u.1.allocateAll (writerOf c) p (pagesOf (dt.runs j.tabs)) with
      | none => .refuse 5 s
      | some s1 =>
        let s1 := s1.resolve c (pagesOf (dt.runs j.tabs))
        let n := ds.e0
        let rows := ds.rows.map (u.1.rowElems j.tabs ds)
        let eps := f32Val (BitVec.ofNat 32 (j.regs.getS f.rs.val).toNat)
        let lanes := (List.range (ds.e1 / n)).map fun b =>
          ldlLane j ⟨n, fun i k => BitVec.ofNat 32 ((rows.getD (b * n + i) []).getD k 0), b * n * n⟩ eps
        let s2 := s1.each lanes.zipIdx fun s x =>
          s.each (List.range n) fun s i =>
            s.writeRuns (writerOf c) p (dt.rowRuns j.tabs ⟨x.2 * n + i, 0, 0⟩)
              (packElems 32 ((List.range n).map fun k => (x.1.out i k).toNat))
        let st := fun (r : LaneRes) => match r.won with
          | some t => (toF32 false (natVal t).toXR).bits
          | none => 0xBF800000
        let old := (s.ctx c).tile f.tx.val
        let tile := (List.range 1024).map fun k =>
          if 512 ≤ k then (0 : F32) else match lanes[k]? with
            | some r => BitVec.ofNat 32 (st r)
            | none => old.getD k 0
        let s3 := s2.setCtx c ((s2.ctx c).setTile f.tx.val tile)
        let lost := (lanes.filter (·.won.isNone)).length
        let s4 := (s3.count (R.PART_ZEN_LFAIL_CNT p) lost).count (R.PART_ZEN_LIFT_CNT p) (lanes.foldl (fun a r => a + r.tries) 0)
        let ev := s4.evts c (lanes.map fun r => ⟨0, 0, 0, r.r.nans⟩)
        .done (s4.countConv c (lanes.foldl (fun a r => a + r.r.sat) 0) (lanes.foldl (fun a r => a + r.r.ovf) 0))
          { Flight.plain j with nan := ev.1, nans := ev.2, pd := if lost = 0 then [] else [(f.pd.val, true), (6, true)] }

/-! zen.next (R227, R228, R239). -/

/-- The words that a block writes back: SCR0-SCR3, its scales, and in pass two FB; of a frozen block none (R231). -/
def State.zback (s : State) (p : Nat) (z : ZRun) (b : ZBlk) (r : RegFile) : State :=
  if s.zfrozen b.entry then s else
  let s := s.each (List.range 4) fun s i => s.wr (zdirAddr b.entry (8 + i)) (r.getS (8 + i))
  let a := zdirAddr b.entry 7
  let byte := fun (e : Int) => (e + 127).toNat
  let s := match b.msc with
    | some e => s.wrF a (23, 16) (byte e)
    | none => s
  let s := match b.vsc with
    | some e => s.wrF a (15, 8) (byte e)
    | none => s
  if z.pass = 2 then (s.wrF a (0, 0) (bnat (r.getP 6))).count (R.PART_ZEN_FB_CNT p) (bnat (r.getP 6)) else s

/-- zen.next: the block ends once every earlier instruction of it has retired. -/
def perfZenNext (j : Job) (c : Ctx) (s : State) : Perf :=
  match c, s.zcur c with
  | .zen d p, some b =>
    let x := s.ctx c
    if !x.flight.isEmpty then .wait
    else
      let z := s.zr d p
      .done ((s.zback p z b x.regs).setZr d p { z with blk := none }) (Flight.plain j)
  | _, _ => .wait

/-- zen.ld. -/
def execZenLd (c : Ctx) (p : Pred) (f : FmtV) (s : State) : Host.Outcome State Fault Refusal :=
  .next (s.issueUnit c p .zen (.zenLd c p f) (f = { fmtV0 with td := f.td, strm := f.strm, rs := f.rs }) [f.rs.val] [] (perfZenLd f))

/-- zen.st. -/
def execZenSt (c : Ctx) (p : Pred) (f : FmtV) (s : State) : Host.Outcome State Fault Refusal :=
  .next (s.issueUnit c p .zen (.zenSt c p f) (f = { fmtV0 with ta := f.ta, strm := f.strm, rs := f.rs }) [f.rs.val] [] (perfZenSt f))

/-- zen.setsc. -/
def execZenSetsc (c : Ctx) (p : Pred) (f : FmtV) (s : State) : Host.Outcome State Fault Refusal :=
  .next (s.issueUnit c p .zen (.zenSetsc c p f) (f = { fmtV0 with strm := f.strm, rs := f.rs }) [f.rs.val] [] (perfZenSetsc f))

/-- zen.nsq. -/
def execZenNsq (c : Ctx) (p : Pred) (f : FmtV) (s : State) : Host.Outcome State Fault Refusal :=
  .next (s.issueUnit c p .zen (.zenNsq c p f) (f = { fmtV0 with ta := f.ta }) [] [] (perfZenNsq f))

/-- zen.amax. -/
def execZenAmax (c : Ctx) (p : Pred) (f : FmtV) (s : State) : Host.Outcome State Fault Refusal :=
  .next (s.issueUnit c p .zen (.zenAmax c p f) (f = { fmtV0 with ta := f.ta, rs := f.rs }) [f.rs.val] [] (perfZenAmax f))

/-- zen.sgn. -/
def execZenSgn (c : Ctx) (p : Pred) (f : FmtV) (s : State) : Host.Outcome State Fault Refusal :=
  .next (s.issueUnit c p .zen (.zenSgn c p f) (f = { fmtV0 with td := f.td, ta := f.ta }) [] [] (perfZenSgn f))

/-- zen.ldlt. -/
def execZenLdlt (c : Ctx) (p : Pred) (f : FmtV) (s : State) : Host.Outcome State Fault Refusal :=
  .next (s.issueUnit c p .zen (.zenLdlt c p f)
    (f = { fmtV0 with ds := f.ds, dt := f.dt, rs := f.rs, tx := f.tx, pd := f.pd }) [f.rs.val] [f.pd.val, 6] (perfZenLdlt f))

/-- zen.next. -/
def execZenNext (c : Ctx) (p : Pred) (f : FmtV) (s : State) : Host.Outcome State Fault Refusal :=
  .next (s.issueUnit c p .zen (.zenNext c p f) (f = fmtV0) [] [] perfZenNext)

end Sys2Proof.Machine
end

