-- ==== Sys2Proof/Machine/Accept.lean ====
section
/-! DEFINITION. The events of instructions between issue and retirement (R261, R267-R269). -/

namespace Sys2Proof.Machine

/-- What the unit of an instruction does with it at the head of its queue; array passes have their own rows. -/
def perfOf (i : Instr) : Option (Job → Ctx → State → Perf) :=
  match i with
  | .movCopy _ _ f => some (perfMovCopy f)
  | .movLds _ _ f => some (perfMovLds f)
  | .movSts _ _ f => some (perfMovSts f)
  | .movAadd32 _ _ f => some (perfMovAadd32 f)
  | .movAadd64 _ _ f => some (perfMovAadd64 f)
  | .movAaddfx _ _ f => some (perfMovAadd64 f)
  | .movSwap _ _ f => some (perfMovSwap f)
  | .movGadd _ _ f => some (perfMovGadd f)
  | .movTake _ _ f => some (perfMovTake f)
  | .movSpill _ _ f => some (perfMovSpill f)
  | .movFill _ _ f => some (perfMovFill f)
  | .movHint _ _ f => some (perfMovHint f)
  | .vecAdd _ _ f => some (perfVec2 f fastCc (fun a b => (a.add b).toXR))
  | .vecSub _ _ f => some (perfVec2 f fastCc (fun a b => (a.sub b).toXR))
  | .vecMul _ _ f => some (perfVec2 f fastCc (fun a b => (a.mul b).toXR))
  | .vecMax _ _ f => some (perfVec2 f fastCc (fun a b => (a.max b).toXR))
  | .vecMin _ _ f => some (perfVec2 f fastCc (fun a b => (a.min b).toXR))
  | .vecDiv _ _ f => some (perfVec2 f slowCc Val.divX)
  | .vecAbs _ _ f => some (perfVec1 f fastCc (fun v => v.abs.toXR))
  | .vecNeg _ _ f => some (perfVec1 f fastCc (fun v => v.neg.toXR))
  | .vecSqrt _ _ f => some (perfVec1 f slowCc Val.sqrtX)
  | .vecRsqrt _ _ f => some (perfVec1 f slowCc Val.rsqrtX)
  | .vecExp2 _ _ f => some (perfVec1 f slowCc exp2X)
  | .vecLog2 _ _ f => some (perfVec1 f slowCc log2X)
  | .vecFma _ _ f => some (perfVecFma f)
  | .vecSel _ _ f => some (perfVecSel f)
  | .vecLdexp _ _ f => some (perfVecLdexp f)
  | .vecCmp _ _ f => some (perfVecCmp f)
  | .vecRnd _ _ f => some (perfVecRnd f)
  | .vecMov _ _ f => some (perfVecMov f)
  | .vecRsum _ _ f => some (perfVecReduce f true true)
  | .vecCsum _ _ f => some (perfVecReduce f true false)
  | .vecRmax _ _ f => some (perfVecReduce f false true)
  | .vecCmax _ _ f => some (perfVecReduce f false false)
  | .vecAcc _ _ f => some (perfVecAcc f)
  | .vecLd _ _ f => some (perfVecLd f)
  | .vecSt _ _ f => some (perfVecSt f)
  | .rowSoftmax _ _ f => some (perfRow (softmaxOp f))
  | .rowSmbwd _ _ f => some (perfRow (smbwdOp f))
  | .rowNorm _ _ f => some (perfRow (normOp false f))
  | .rowRms _ _ f => some (perfRow (normOp true f))
  | .rowNormbwd _ _ f => some (perfRow (normbwdOp f))
  | .rowLse _ _ f => some (perfRow (lseOp f))
  | .rowStst _ _ f => some (perfRowStst f)
  | .rowStld _ _ f => some (perfRowStld f)
  | .zenLd _ _ f => some (perfZenLd f)
  | .zenSt _ _ f => some (perfZenSt f)
  | .zenSetsc _ _ f => some (perfZenSetsc f)
  | .zenNsq _ _ f => some (perfZenNsq f)
  | .zenAmax _ _ f => some (perfZenAmax f)
  | .zenSgn _ _ f => some (perfZenSgn f)
  | .zenLdlt _ _ f => some (perfZenLdlt f)
  | .zenNext _ _ _ => some perfZenNext
  | .collSlot _ _ f => some (perfCollSlot f)
  | .collCancel _ _ f => some (perfCollCancel f)
  | .chkVerdict _ _ _ => some perfChkVerdict
  | .chkRetract _ _ _ => some perfChkRetract
  | .chkSample _ _ f => some (perfChkSample f)
  | .chkVlast _ _ f => some (perfChkVlast f)
  | _ => none

/-- Whether the units of a context work: those of a partition on a Zenith unit only in its slices (R219). -/
def State.working (s : State) : Ctx → Bool
  | .cell _ => true
  | .zen d p => s.inSlice d.val p.val

/-- Accept the head of a unit's queue. -/
def State.acceptHead (s : State) (c : Ctx) (u : UnitId) : State :=
  match s.headJob c u with
  | none => s
  | some j => match perfOf j.ins with
    | some f => s.verdictDone c (s.accept c j (f j c s))
    | none => s

/-- UNIT_ACCEPT. -/
def execUnitAccept (c : Ctx) (u : UnitId) (s : State) : Host.Outcome State Fault Refusal :=
  .next
    (if !s.working c then s
    else match c, u with
      | .cell k, .dusk => s.acceptPass k .dusk
      | .cell k, .dawn => s.acceptPass k .dawn
      | _, _ => s.acceptHead c u)

/-- The oldest instruction of a unit whose retirement waits for nothing but its effects. -/
def CellCtx.oldest (x : CellCtx) (u : UnitId) : Option Flight := x.flight.find? fun f => f.job.unit = u && !f.hold

/-- INSTRUCTION_RETIRE. -/
def execInstructionRetire (c : Ctx) (u : UnitId) (s : State) : Host.Outcome State Fault Refusal :=
  .next
    (match (s.ctx c).oldest u with
    | some f => if s.working c then (s.retire c f).zadvance c else s
    | none => s)

/-- A cell can issue nothing further (R269). -/
def State.stopFetch (s : State) (k : CellId) : State :=
  (s.setCell k { s.cell k with line := none, held := none, stopReq := 0 }).setRun k stStopped causeFetch 0

/-- The work that remains of a die in the current pass is abandoned (R269). -/
def State.zabandonPass (s : State) (d : Fin 16) (p : Fin 64) : State :=
  let c := Ctx.zen d p
  ((s.setZr d p { s.zr d p with blk := none, todo := [] }).setCtx c { s.ctx c with waiting := [], held := none }).zadvance c

/-- A fetch that leaves its context without an instruction. -/
def State.noFetch (s : State) (c : Ctx) : State :=
  match c with
  | .cell k => s.stopFetch k
  | .zen d p => s.zabandonPass d p

/-- First byte and length of a fetch: the line in the cell's own SRAM, elsewhere the word (R267). -/
def State.fetchRun (s : State) (c : Ctx) (pc : Nat) : Run :=
  if s.ownPage c (pc / pageSize) then (pc / 64 * 64, 64) else (pc, 16)

/-- The word at the PC in the line held (R267, R268). -/
def CellCtx.lineWord (x : CellCtx) (pc : Nat) : Option Nat :=
  match x.line with
  | none => none
  | some l =>
    if l.base ≤ pc && pc + 16 ≤ l.base + l.bytes.length then some (leNat ((l.bytes.drop (pc - l.base)).take 16)) else none

/-- Whether the word at the PC was read as uncorrectable (R269). -/
def CellCtx.lineBad (x : CellCtx) (pc : Nat) : Bool :=
  match x.line with
  | none => false
  | some l => l.bad.contains pc

/-- Read the line or the word that holds the next word to issue. -/
def State.fetchLine (s : State) (c : Ctx) : State :=
  let pc := s.pc c
  let p := s.part c
  if pc % 16 != 0 || !s.pageOk p (pc / pageSize) || s.isFree (pc / pageSize) then (s.violate c 4 0 0 pc).noFetch c
  else if s.switching [pc / pageSize] then s
  else
    let r := s.fetchRun c pc
    let s1 := s.resolve c [pc / pageSize]
    let q := s1.meshRead c [r]
    let words := (List.range (r.2 / 16)).map (r.1 + 16 * ·)
    let bad := words.filter fun a => !(s1.marked s1.ue [(a, 16)]).isEmpty
    let bad := if bad.isEmpty && q.2.isSome then words else bad
    q.1.setCtx c { q.1.ctx c with line := some ⟨r.1, q.1.bytesAt r.1 r.2, bad⟩ }

/-- A context whose next word was read as uncorrectable issues nothing from it (R269): UNC is raised and the cell stops, or the
work that remains of the die's pass is abandoned. -/
def State.fetchBad (s : State) (c : Ctx) : State :=
  if (s.ctx c).lineBad (s.pc c) then (s.uncorrectable (s.part c) (s.pc c)).noFetch c else s

/-- A word whose class or minor opcode the instruction reference does not list is issued and refused (R275, R287): the table
of commands has no row for it (log entry 7). -/
def State.issueUnlisted (s : State) (c : Ctx) : State :=
  let x := s.ctx c
  let pc := s.pc c
  match x.lineWord pc with
  | none => s
  | some w =>
    let cls := bitsOf w 127 124
    let minor := bitsOf w 123 116
    let p : Pred := ⟨w.testBit 115, ⟨bitsOf w 114 112 % 8, Nat.mod_lt _ (by decide)⟩⟩
    if minorListed cls minor || !s.running c || x.held.isSome || x.pendP.contains p.psel.val then s
    else if !predTrue x.regs p then s.predOff c
    else (s.violate c 1 cls minor pc).issuedAt c (pc + 16)

/-- INSTRUCTION_FETCH: a line that is held and not left is not read again. A word of it that was read as uncorrectable stops
the context when it is due. -/
def execInstructionFetch (c : Ctx) (s : State) : Host.Outcome State Fault Refusal :=
  .next
    (if !s.running c then s
    else (if ((s.ctx c).lineWord (s.pc c)).isSome then s else s.fetchLine c).fetchBad c |>.issueUnlisted c)

end Sys2Proof.Machine
end

