-- ==== Sys2Proof/Machine/AlmStep.lean ====
section
/-! DEFINITION. The Almanac's slots between steps (R163-R188): writes of a slot, close, step end, storms, errors and
checkpoints. -/

namespace Sys2Proof.Machine

/-- The ladders of a partition as written (R177). -/
def ladderAddr (p j : Nat) : Nat := R.PART_LADDER0 p + 8 * j

/-- TOP and rung `i` of a ladder. -/
def ladTop (v : W64) : Nat := fld v 25 24
def ladRung (v : W64) (i : Nat) : Nat := fld v (6 * i + 5) (6 * i)

/-- A format that a slot or a rung may hold: a Dawn operand format except FP64 (R167, R177). -/
def slotFmtOk (f : Nat) : Bool := fmtAssigned f && f != fmtE8M0 && f != fmtFP64

/-- A ladder that may be written (R177). -/
def ladderOk (v : W64) : Bool := (List.range (ladTop v + 1)).all fun i => slotFmtOk (ladRung v i)

/-- Whether the preset of a policy is permitted (R178, R414). -/
def State.presetOk (s : State) (p : Nat) (v : W64) : Bool := flag (s.rd (R.PART_CAP2 p)) (4 + fld v 1 0)

/-- The policy in force (R178). -/
structure Policy where
  upSat     : Nat
  upOutl    : Nat
  upShed    : Nat
  downOutl  : Nat
  downQuiet : Nat
  moveHold  : Nat

def policyOf (v c : W64) : Policy :=
  match fld v 1 0 with
  | 0 => ⟨64, 8192, 1024, 255, 16, 4⟩
  | 1 => ⟨16, 2048, 256, 128, 64, 8⟩
  | 2 => ⟨2, 512, 32, 32, 255, 16⟩
  | _ => ⟨fld c 63 48, fld c 47 32, fld c 31 16, fld c 15 8, fld c 7 0, fld v 31 24⟩

/-- A write of the policy registers takes effect (R178). -/
def State.policyIn (s : State) (p : Nat) : State :=
  s.setAlm p { s.almOf p with pol := s.rd (R.PART_ALM_POLICY p), polC := s.rd (R.PART_ALM_POLICY_C p) }

/-! Fields of word 9. -/

def fPOS : Nat × Nat := (63, 62)
def fFMT : Nat × Nat := (61, 56)
def fSTNS : Nat × Nat := (55, 48)
def fXH : Nat × Nat := (47, 45)
def fCOLD : Nat × Nat := (44, 40)
def fHOLD : Nat × Nat := (39, 32)
def fQUIET : Nat × Nat := (31, 16)
def fHPTR : Nat × Nat := (15, 12)
def fHCNT : Nat × Nat := (11, 7)
def fREQ : Nat × Nat := (6, 6)
def fUSED : Nat × Nat := (5, 5)
def fSATF : Nat × Nat := (4, 4)
def fQUIETF : Nat × Nat := (3, 3)

/-- A field of a word, and a word with the field replaced. -/
def getF (v : W64) (f : Nat × Nat) : Nat := fld v f.1 f.2
def putF (v : W64) (f : Nat × Nat) (x : Nat) : W64 := fldPut v f.1 f.2 x

/-- FMT and S_TNS of a slot are derived (R175, R176); POS beyond TOP becomes TOP, but not in a pinned slot (R179). -/
def State.deriveSlot (s : State) (p n : Nat) : State :=
  let c := s.confOf p n
  let l := (s.almOf p).lads.getD (fld c 55 54) 0
  let w := s.slotW n 9
  let pos := if flag c 62 then getF w fPOS else min (getF w fPOS) (ladTop l)
  let f := if flag c 62 then fld c 61 56 else ladRung l pos
  let w := putF (putF w fPOS pos) fFMT f
  let sc := tensorScale (s.refTabs p) f (fld c 51 49 + getF w fXH) (s.histMax p n) (signed 8 (getF w fSTNS))
  s.wr (almAddr n 9) (putF w fSTNS (unsigned 8 sc))

/-- Words of a slot back at their reset values. -/
def State.resetWords (s : State) (n : Nat) (ws : List Nat) : State :=
  s.each ws fun s w => s.wr (almAddr n w) (csrReset (almAddr n w))

/-- A slot leaves any pending write and any report held for it. -/
def State.forgetSlot (s : State) (p n : Nat) : State :=
  let a := s.almOf p
  s.setAlm p { a with conf := SMap.set a.conf none n none, held := a.held.filter (·.slot != n) }

/-- A slot is cleared to its reset values. -/
def State.clearSlot (s : State) (p n : Nat) : State := (s.forgetSlot p n).resetWords n (List.range 16)

/-- A slot is initialised from word 8 (R167, R184). -/
def State.initSlot (s : State) (p n cold : Nat) : State :=
  let s := (s.forgetSlot p n).resetWords n ((List.range 8) ++ [10, 11, 12, 13, 14, 15])
  let c := s.slotW n 8
  let w := putF (putF (putF (putF 0 fPOS (fld c 53 52)) fSTNS (fld c 43 36)) fCOLD cold) fHPTR 15
  let s := (s.wr (almAddr n 9) w).deriveSlot p n
  s.wr (almAddr n 9) (putF (s.slotW n 9) fSTNS (fld c 43 36))

/-- Whether no step is open or pending (R167, R173). -/
def State.almIdle (s : State) (p : Nat) : Bool :=
  s.rdF (R.PART_ALM_STEP p) F.PART_ALM_STEP_OPEN = 0 && s.rdF (R.PART_ALM_STEP p) F.PART_ALM_STEP_PEND = 0

/-- The writable bits of word 8. -/
def confMask : Nat := 2 ^ 64 - 2 ^ 36

/-- A pending write of word 8 takes effect. -/
def State.confNow (s : State) (p n : Nat) : State :=
  let a := s.almOf p
  if flag (s.slotW n 8) 63 then s.setAlm p { a with conf := SMap.set a.conf none n none } else s.clearSlot p n

/-- A write of word 8 by its rules (R167). -/
def State.putConf (s : State) (p n : Nat) (v : W64) : State :=
  let a := s.almOf p
  let was := s.confOf p n
  let new := BitVec.ofNat 64 (v.toNat &&& confMask)
  let s1 := s.wr (almAddr n 8) new
  if !flag was 63 then (if flag new 63 then s1.initSlot p n (if flag new 44 then 16 else 0) else s1)
  else if s.almIdle p then
    (let s2 := s1.confNow p n
     if flag new 63 then s2.deriveSlot p n else s2)
  else s1.setAlm p { a with conf := SMap.set a.conf none n (some was) }

/-- ALM_SLOT_CONF_WRITE. A slot in no range is written as partition 0's (R417; log entry 78). -/
def execAlmSlotConfWrite (pl : Plane) (n : Fin 16384) (v : W64) (s : State) : Host.Outcome State Fault Refusal :=
  .next (s.guarded pl (almAddr n 8) [failIf (!slotFmtOk (fld v 61 56) || fld v 43 36 = 0x80) 7]
    (match s.slotOwner n with
      | some p => s.putConf p n v
      | none => s.putConf 0 n v))

/-- ALM_RANGE_WRITE (R165). -/
def execAlmRangeWrite (pl : Plane) (p : Fin 64) (v : W64) (s : State) : Host.Outcome State Fault Refusal :=
  let a := R.PART_ALM_RANGE p
  let old := s.rd a
  let b := fld v 13 0
  let n := fld v 30 16
  let other := (List.range 64).any fun q => q != p.val && n != 0 && s.almCount q != 0 &&
    decide (b < s.almBase q + s.almCount q) && decide (s.almBase q < b + n)
  let valid := fun (q b n : Nat) => (List.range n).any fun i => flag (s.confOf q (b + i)) 63
  let far := decide (16384 < b + n)
  .next (s.guarded pl a
    (roLow a v [failIf (far || other) 7, failIf (valid p (fld old 13 0) (fld old 30 16) || (!far && valid p b n)) 6]) (s.putReg pl a v))

/-! Close (R171, R172, R182). -/

/-- The flags of a slot at the close. -/
def closeFlags (pol : Policy) (pin : Bool) (conv sat shed outl : Nat) (w : W64) : W64 :=
  let used := decide (0 < conv)
  let quiet := used && sat = 0 && shed = 0 && decide (outl * 2 ^ 20 ≤ pol.downOutl * conv)
  let req := used && !pin && (decide (pol.upSat * conv < sat * 2 ^ 20) || decide (pol.upOutl * conv < outl * 2 ^ 20) ||
    decide (pol.upShed * conv < shed * 2 ^ 20))
  putF (putF (putF (putF w fREQ (bnat req)) fUSED (bnat used)) fSATF (bnat (decide (0 < sat)))) fQUIETF (bnat quiet)

/-- A slot at the close (R172). -/
def State.closeSlot (s : State) (p n : Nat) : State :=
  let a := s.almOf p
  let w10 := s.slotW n 10
  let w11 := s.slotW n 11
  let w12 := s.slotW n 12
  let w := closeFlags (policyOf a.pol a.polC) (flag (s.confOf p n) 62) (fld w12 63 24) (fld w11 63 32) (fld w11 31 0)
    (fld w12 23 0) (s.slotW n 9)
  (((s.wr (almAddr n 9) w).wr (almAddr n 10) (BitVec.ofNat 64 (fld w10 63 32))).wr (almAddr n 11) 0).wr (almAddr n 12) 0

/-- Whether the step is a numeric storm (R182). -/
def State.stormy (s : State) (p : Nat) : Bool :=
  let live := (s.validSlots p).filter fun n => !flag (s.confOf p n) 62 && getF (s.slotW n 9) fUSED = 1
  let q := (live.filter fun n => getF (s.slotW n 9) fREQ = 1).length
  decide (0 < live.length) && decide (fld (s.almOf p).pol 15 8 * live.length < q * 256)

/-- Whether the last pass accepted in the step has retired (R171). -/
def State.passesIn (s : State) (p : Nat) : Bool :=
  (s.present p).all fun c => ((s.cell c).dusk ++ (s.cell c).dawn).all fun w => decide ((s.almOf p).closed < w.step)

/-- The close. -/
def State.almClose (s : State) (p : Nat) : State :=
  let s := s.policyIn p
  let s := s.each (s.validSlots p) fun s n => s.closeSlot p n
  let a := s.almOf p
  let now := a.held.filter (·.step = a.closed + 1)
  let s := s.setAlm p { a with closed := a.closed + 1, held := a.held.filter (·.step != a.closed + 1) }
  let s := s.each now fun s r => s.repNow r.slot r
  let st := R.PART_ALM_STEP p
  let s := (s.wrF st F.PART_ALM_STEP_OPEN (bnat (!now.isEmpty))).wrF st F.PART_ALM_STEP_PEND 1
  if s.stormy p then ((s.wrF st F.PART_ALM_STEP_STORM 1).raise p vOVF).count (R.PART_ALM_STORM_CNT p) 1
  else s.wrF st F.PART_ALM_STEP_STORM 0

/-- ALMANAC_CLOSE. -/
def execAlmanacClose (p : Fin 64) (s : State) : Host.Outcome State Fault Refusal :=
  let a := s.almOf p
  .next (if a.closed < a.contrib && a.closed = a.ended && s.passesIn p then s.almClose p else s)

/-! Caps on mode codes (R415). -/

/-- The lowest-coded permitted code of a mask, among `n` codes. -/
def lowestCode (mask n : Nat) : Nat := ((List.range n).find? fun c => mask.testBit c).getD 0

/-- The mode codes in force that CAP2 of a partition does not permit (R415): OVF, PRESET and PLACE at bits 0 to 2. -/
def State.forbidden (s : State) (p : Nat) : Nat :=
  let cap := s.rd (R.PART_CAP2 p)
  let pf := F.PART_TIER_CFG_PLACE
  let no := fun (v : W64) => !(fld cap 2 0).testBit (fld v pf.1 pf.2)
  bnat (flag (s.rd (R.PART_NUM_MODE p)) 0 && !flag cap 8) + 2 * bnat (!s.presetOk p (s.rd (R.PART_ALM_POLICY p))) +
    4 * bnat (no (s.rd (R.PART_TIER_CFG p)) || no (s.tierCfg p))

/-- The mode codes that a lowered cap has forbidden, and that are still forbidden, are replaced, and each counts (R415). -/
def State.capForce (s : State) (p : Nat) : State :=
  let cap := s.rd (R.PART_CAP2 p)
  let bad := s.forbidden p &&& (s.almOf p).force
  let clip := fun (s : State) (k : Nat) (f : State → State) => if bad.testBit k then (f s).count (R.PART_CAP_CLIP_CNT p) 1 else s
  let s := s.setAlm p { s.almOf p with force := 0 }
  let s := clip s 0 fun s => s.wrF (R.PART_NUM_MODE p) (0, 0) 0
  let s := clip s 1 fun s => (s.wrF (R.PART_ALM_POLICY p) F.PART_ALM_POLICY_PRESET (lowestCode (fld cap 7 4) 4)).policyIn p
  clip s 2 fun s =>
    let pf := F.PART_TIER_CFG_PLACE
    let k := lowestCode (fld cap 2 0) 3
    let s := s.wrF (R.PART_TIER_CFG p) pf k
    { s with tiers := { s.tiers with
      cfg := SMap.set s.tiers.cfg (csrReset (R.PART_TIER_CFG p)) p (fldPut (s.tierCfg p) pf.1 pf.2 k) } }

/-! Checkpoints (R185-R187). -/

/-- Where an image lies. -/
def State.ckptAddr (s : State) (p : Nat) : Nat := s.rdF (R.PART_ALM_CKPT_ADDR p) F.PART_ALM_CKPT_ADDR_ADDR / 128 * 128

/-- STATUS and FAIL of PART.ALM_CKPT. -/
def State.ckptStatus (s : State) (p st fail : Nat) : State :=
  (s.wrF (R.PART_ALM_CKPT p) F.PART_ALM_CKPT_STATUS st).wrF (R.PART_ALM_CKPT p) F.PART_ALM_CKPT_FAIL fail

/-- The image of the slots of a range, in slot order; words 10 to 12 are written as 0. -/
def State.slotBytes (s : State) (p : Nat) : List Byte :=
  (s.almSlots p).flatMap fun n => (List.range 16).flatMap fun w =>
    leBytes 8 (if 10 ≤ w && w ≤ 12 then 0 else (s.slotW n w).toNat)

/-- An image (R186). -/
def State.almImage (s : State) (p : Nat) : List Byte :=
  let body := s.slotBytes p
  let reg := fun a => leBytes 8 (s.rd a).toNat
  leBytes 4 0x4E4D4C41 ++ leBytes 2 1 ++ leBytes 2 (s.almCount p) ++ leBytes 4 (crc32c body) ++ leBytes 4 0 ++
    reg (R.PART_ALM_STEP p) ++ reg (R.PART_ALM_POLICY p) ++ reg (R.PART_ALM_POLICY_C p) ++
    ((List.range 4).flatMap fun j => reg (ladderAddr p j)) ++ leBytes 56 0 ++ body

/-- A save (R185). -/
def State.almSave (s : State) (p : Nat) : State :=
  let img := s.almImage p
  let r : Run := (s.ckptAddr p, img.length)
  if !s.runsOk p [r] then s.ckptStatus p 3 1
  else match s.allocateAll .host p (runPages r) with
    | none => s.ckptStatus p 3 1
    | some s1 => (s1.write .host p r.1 img).ckptStatus p 2 0

/-- A failed restore: every valid slot of the range goes into cold scaling (R187). -/
def State.restoreFail (s : State) (p why : Nat) : State :=
  let l := s.validSlots p
  ((s.each l fun s n => s.initSlot p n 16).count (R.PART_ALM_LOST_CNT p) l.length).ckptStatus p 3 why

/-- A policy register or ladder is written as a host write would be (R187). -/
def State.restoreReg (s : State) (pl : Plane) (a : Nat) (fail : Option Nat) (v : W64) : State :=
  s.guarded pl a (roLow a v [fail]) (s.putReg pl a v)

/-- The 64-bit word at byte `o` of a list. -/
def wordAt (bs : List Byte) (o : Nat) : W64 := BitVec.ofNat 64 (leNat ((bs.drop o).take 8))

/-- The bits that word `w` of a slot holds (R166): not the reserved ones of words 8 and 9. -/
def slotMask (w : Nat) : W64 := BitVec.ofNat 64 (if w = 8 then confMask else if w = 9 then 2 ^ 64 - 8 else 2 ^ 64 - 1)

/-- A restore that passed its checks (R187). -/
def State.restoreImage (s : State) (p : Fin 64) (img : List Byte) (k : Nat) : State :=
  let base := s.almBase p
  let s := s.each (List.range k) fun s i =>
    s.forgetSlot p (base + i) |>.each (List.range 16) fun s w =>
      s.wr (almAddr (base + i) w) (if 10 ≤ w && w ≤ 12 then 0 else wordAt img (128 + 128 * i + 8 * w) &&& slotMask w)
  let st := wordAt img 16
  let s := s.wr (R.PART_ALM_STEP p) (BitVec.ofNat 64 (fld st 55 48 * 2 ^ 48 + fld st 47 0))
  let pl := Plane.session p
  let pv := wordAt img 24
  let s := s.restoreReg pl (R.PART_ALM_POLICY p) (failIf (!s.presetOk p pv) 6) pv
  let s := s.restoreReg pl (R.PART_ALM_POLICY_C p) none (wordAt img 32)
  let s := s.each (List.range 4) fun s j =>
    let v := wordAt img (40 + 8 * j)
    s.restoreReg pl (ladderAddr p j) (failIf (!ladderOk v) 7) v
  s.ckptStatus p 2 0

/-- A restore (R187). One that meets data that cannot be corrected leaves the slots unchanged (R254). DESIGN CHOICE (log entry 79): it
ends as failed with FAIL 0x4, and an image whose COUNT is 0, which the save of an empty range writes, restores no slot and is done. -/
def State.almRestore (s : State) (p : Fin 64) : State :=
  let a := s.ckptAddr p
  if !s.runsOk p [(a, 128)] then s.restoreFail p 1
  else
    let h := s.readChecked p [(a, 128)]
    let hd := h.1.bytesAt a 128
    let k := leNat ((hd.drop 6).take 2)
    match h.2 with
    | some q => (h.1.uncorrectable p q).ckptStatus p 3 4
    | none =>
      if leNat (hd.take 4) != 0x4E4D4C41 || leNat ((hd.drop 4).take 2) != 1 then h.1.restoreFail p 2
      else if s.almCount p < k then h.1.restoreFail p 3
      else if !s.runsOk p [(a, 128 * (k + 1))] then h.1.restoreFail p 1
      else
        let b := h.1.readChecked p [(a + 128, 128 * k)]
        match b.2 with
        | some q => (b.1.uncorrectable p q).ckptStatus p 3 4
        | none =>
          let body := b.1.bytesAt (a + 128) (128 * k)
          if crc32c body != leNat ((hd.drop 8).take 4) then b.1.restoreFail p 4 else b.1.restoreImage p (hd ++ body) k

/-- Request a checkpoint operation: 1 save, 2 restore (R185). -/
def State.ckptRequest (s : State) (pl : Plane) (p op : Nat) : State :=
  let a := R.PART_ALM_CKPT p
  s.guarded pl a [failIf (s.rdF a F.PART_ALM_CKPT_STATUS = 1) 6]
    ((s.setAlm p { s.almOf p with op := op }).ckptStatus p 1 0)

/-- ALM_CKPT_SAVE. -/
def execAlmCkptSave (pl : Plane) (p : Fin 64) (s : State) : Host.Outcome State Fault Refusal := .next (s.ckptRequest pl p 1)

/-- ALM_CKPT_RESTORE. -/
def execAlmCkptRestore (pl : Plane) (p : Fin 64) (s : State) : Host.Outcome State Fault Refusal := .next (s.ckptRequest pl p 2)

/-- The pending operation is performed. -/
def State.ckptPerform (s : State) (p : Fin 64) : State :=
  let op := (s.almOf p).op
  let s1 := s.setAlm p { s.almOf p with op := 0 }
  if op = 1 then s1.almSave p else if op = 2 then s1.almRestore p else s

/-- ALM_CKPT_PERFORM: at once when no step is open or pending. -/
def execAlmCkptPerform (p : Fin 64) (s : State) : Host.Outcome State Fault Refusal :=
  .next (if s.almIdle p then s.ckptPerform p else s)

/-! Step end (R180, R181). -/

/-- The outcomes of a step end. -/
def wordDiscard (w : W64) : Bool := [vNAN, vPLX, vCONS, vUNC, vRETR].any (flag w)
def wordOverflow (w : W64) : Bool := !wordDiscard w && flag w vOVF

/-- The history step of a used slot (R181, step 3). -/
def State.histStep (s : State) (n : Nat) : State :=
  let w := s.slotW n 9
  if getF w fUSED = 1 then
    let h := (getF w fHPTR + 1) % 16
    let s := s.wrF (almAddr n (h / 2)) (32 * (h % 2) + 31, 32 * (h % 2)) (fld (s.slotW n 10) 31 0)
    let q := if getF w fQUIETF = 1 then min (getF w fQUIET + 1) 65535 else 0
    s.wr (almAddr n 9) (putF (putF (putF (putF w fHPTR h) fHCNT (min (getF w fHCNT + 1) 16)) fCOLD (getF w fCOLD - 1)) fQUIET q)
  else s

/-- Extra headroom (R181, step 4). -/
def headroomStep (overflow storm : Bool) (w : W64) : W64 :=
  let xh := min 7 (getF w fXH + bnat (overflow && getF w fSATF = 1) + bnat storm)
  if !overflow && 0 < xh && 8 ≤ getF w fQUIET then putF (putF w fXH (xh - 1)) fQUIET 0 else putF w fXH xh

/-- A ladder move: up, down or none (R181, step 5). -/
def ladderStep (pol : Policy) (top : Nat) (normal : Bool) (w : W64) : Option Bool :=
  let pos := getF w fPOS
  if getF w fREQ = 1 && pos < top then some true
  else if normal && pol.downQuiet != 0 && decide (pol.downQuiet ≤ getF w fQUIET) && getF w fXH = 0 && 0 < pos then some false
  else none

/-- The update of one slot at a step end, steps 2 to 5. -/
def State.endSlot (s : State) (p n : Nat) (overflow storm held : Bool) : State :=
  let a := s.almOf p
  let pol := policyOf a.pol a.polC
  let c := s.confOf p n
  let w := s.slotW n 9
  let s := s.wr (almAddr n 9) (if flag c 62 then w else putF w fHOLD (getF w fHOLD - 1))
  let s := s.histStep n
  let w := headroomStep overflow storm (s.slotW n 9)
  let s := s.wr (almAddr n 9) w
  if flag c 62 || held || storm || getF w fHOLD != 0 then s
  else match ladderStep pol (ladTop (a.lads.getD (fld c 55 54) 0)) (!overflow) w with
    | none => s
    | some up =>
      let pos := getF w fPOS
      (s.wr (almAddr n 9) (putF (putF (putF w fPOS (if up then pos + 1 else pos - 1)) fQUIET 0) fHOLD pol.moveHold)).count
        (if up then R.PART_ALM_UP_CNT p else R.PART_ALM_DOWN_CNT p) 1

/-- The update of a partition at a step end that is no DISCARD. -/
def State.endUpdate (s : State) (p : Nat) (w : W64) : State :=
  let st := R.PART_ALM_STEP p
  let s := s.policyIn p
  let storm := s.rdF st F.PART_ALM_STEP_STORM = 1
  let fh := s.rdF st F.PART_ALM_STEP_FHOLD - 1
  let s := (s.wrF st F.PART_ALM_STEP_FHOLD fh).wrF st F.PART_ALM_STEP_COUNT (s.rdF st F.PART_ALM_STEP_COUNT + 1)
  let s := s.each (s.validSlots p) fun s n => s.endSlot p n (wordOverflow w) storm (fh != 0)
  let a := s.almOf p
  let s := s.each (a.conf.map (·.1)) fun s n => s.confNow p n
  let s := s.setAlm p { s.almOf p with lads := (List.range 4).map fun j => s.rd (ladderAddr p j) }
  let s := s.each (s.validSlots p) fun s n => s.deriveSlot p n
  let s := if storm then s.wrF st F.PART_ALM_STEP_FHOLD (fld (s.almOf p).pol 7 4) else s
  (s.wrF st F.PART_ALM_STEP_PEND 0).wrF st F.PART_ALM_STEP_STORM 0

/-- The step end (R180, R181, R185, R187). -/
def State.almEnd (s : State) (p : Fin 64) (w : W64) : State :=
  let st := R.PART_ALM_STEP p
  let s :=
    if (s.almOf p).op = 2 then s.ckptPerform p
    else
      let s1 :=
        if wordDiscard w then
          (((s.policyIn p).wrF st F.PART_ALM_STEP_PEND 0).wrF st F.PART_ALM_STEP_STORM 0).count (R.PART_ALM_DISC_CNT p) 1
        else s.endUpdate p w
      s1.ckptPerform p
  let s := ((s.wrF st F.PART_ALM_STEP_PEND 0).wrF st F.PART_ALM_STEP_STORM 0).setAlm p { s.almOf p with ended := (s.almOf p).ended + 1, verdict := none }
  (s.capForce p).stepEnded p

/-- ALMANAC_STEP_END. -/
def execAlmanacStepEnd (p : Fin 64) (s : State) : Host.Outcome State Fault Refusal :=
  let a := s.almOf p
  .next (match a.verdict with
    | some w => if a.ended < a.closed then s.almEnd p w else s
    | none => s)

/-- ALM_SLOT_UE (R184). A slot in no range is reinitialised as partition 0's (log entry 78); no partition counts it. -/
def execAlmSlotUe (n : Fin 16384) (w : Fin 16) (s : State) : Host.Outcome State Fault Refusal :=
  .next (match s.slotOwner n with
    | none => (if w = 8 then s.clearSlot 0 n else s.initSlot 0 n 16).fault 0x0B 0 1 255 (n.val / 1024) [n.val] 0 none
    | some p =>
      let s1 := if w = 8 then s.clearSlot p n else s.initSlot p n 16
      (s1.count (R.PART_ALM_LOST_CNT p) 1).fault 0x0B 0 1 p (n.val / 1024) [n.val] 0 none)

end Sys2Proof.Machine
end

