-- ==== Sys2Proof/Machine/Slots.lean ====
section
/-! DEFINITION. Slot states, backing and their registers (R27-R33, R416), the reset of a cell (R465), and the backing that a
rejoined slot takes (R448). -/

namespace Sys2Proof.Machine

/-- The codes of Table: Slot state encoding (R27). -/
def slotActive : Nat := 0
def slotSpare : Nat := 1
def slotFenced : Nat := 2
def slotRetired : Nat := 3

/-- LOGICAL of a slot that is not ACTIVE (R32). -/
def noLogical : Nat := 0xFFFF

/-- Change one of the counts of PANEL.CELL_COUNT (R31). -/
def State.tally (s : State) (st : Nat) (up : Bool) : State :=
  let f := (16 * st + 15, 16 * st)
  let v := s.rdF R.PANEL_CELL_COUNT f
  s.wrF R.PANEL_CELL_COUNT f (if up then v + 1 else v - 1)

/-- The register that holds a slot's state, and its field (R28). -/
def slotReg (c : CellId) : Nat := R.DIE_SLOT_STATE0 c.die.val + 8 * (c.slot.val / 32)
def slotFld (c : CellId) : Nat × Nat := (2 * (c.slot.val % 32) + 1, 2 * (c.slot.val % 32))

/-- A slot changes state: DIE.SLOT_STATE, CELL.ID and PANEL.CELL_COUNT change together (R30-R32). -/
def State.setSlot (s : State) (c : CellId) (st l : Nat) (p : Option Nat) : State :=
  let s := (s.tally (s.slotState c) false).tally st true
  let a := R.CELL_ID c
  ((((s.wrF (slotReg c) (slotFld c) st).wrF a F.CELL_ID_STATE st).wrF a F.CELL_ID_LOGICAL l).wrF a F.CELL_ID_OWNED
    (bnat p.isSome)).wrF a F.CELL_ID_PART (p.getD 0)

/-- The LMAP entry of a logical cell (R29). -/
def State.setBacking (s : State) (l : Nat) (c : Option CellId) : State :=
  s.wrF (R.DIE_LMAPj (l / 64) (l % 64 / 8)) (8 * (l % 8) + 7, 8 * (l % 8))
    (match c with
    | some k => 128 + k.slot.val
    | none => 0)

/-- The partition that owns a logical cell (R416). -/
def State.ownerOf (s : State) (l : Nat) : Option Nat :=
  (List.range 64).find? fun p => (s.rd (R.PART_CELLMAPj p (l / 64))).toNat.testBit (l % 64)

/-- A slot backs a logical cell of its die. -/
def State.activate (s : State) (c : CellId) (l : Nat) : State := (s.setBacking l (some c)).setSlot c slotActive l (s.ownerOf l)

/-- The absent logical cells of a die, lowest first (R33). -/
def State.absent (s : State) (d : Nat) : List Nat :=
  ((List.range 64).map (64 * d + ·)).filter fun l => (s.backing l).isNone

/-- Which slot state change a fault record tells of (R442): fenced, rejoined or retired. -/
def slotFencedEvent : Nat := 0
def slotRejoinedEvent : Nat := 1
def slotRetiredEvent : Nat := 2

/-- The fault record of a slot state change (R442). -/
def State.slotRecord (s : State) (c : CellId) (event p : Nat) : State :=
  s.faultOf 0x0C event 0 8 p c.die.val [c.slot.val] 3 none

/-- The counters of a cell are 0. -/
def State.zeroCounters (s : State) (c : CellId) : State :=
  let b := cellBase c
  let isCnt := fun (a : Nat) => decide (b ≤ a) && decide (a < b + 0x10000) && ((regAt a).map (·.cnt)).getD false
  { s with csr := s.csr.filter fun x => !isCnt x.1 }

/-- The program state of a cell as after reset (R270, R278): the SRAM tester is not part of it. -/
def State.clearCell (s : State) (c : CellId) : State :=
  let x := s.cell c
  let s := s.setCell c { CellCtx.reset with tester := x.tester, trans := x.trans }
  s.each [R.CELL_SEQ_STAT c, R.CELL_DUSK_STAT c, R.CELL_DAWN_STAT c] fun s a => s.wr a (csrReset a)

/-- A slot that rejoins has an IDLE sequencer with nothing to issue; its registers stay (R16, R448, log entry 46). -/
def State.parkCell (s : State) (c : CellId) : State :=
  (s.setCell c { s.cell c with line := none, held := none, wait := none, haltBar := none, stopReq := 0 }).setRun c stIdle 0 0

/-- A CELL reset (R465). -/
def State.cellReset (s : State) (c : CellId) : State := (s.clearCell c).zeroCounters c

/-- A slot that REJOIN made SPARE backs the lowest absent cell of its die (R448). -/
def State.rejoinBack (s : State) (c : CellId) : State :=
  let s1 := { s with rejoined := s.rejoined.filter (· != c) }
  match s.absent c.die.val with
  | l :: _ => if s.slotState c = slotSpare then s1.activate c l else s1
  | [] => s1

/-- The partition whose absent cell a rejoined slot is to back. -/
def State.rejoinPart (s : State) (c : CellId) : Option Nat := (s.absent c.die.val).head?.bind s.ownerOf

/-- The backings that come before a launch of a partition (R448). -/
def State.rejoinLaunch (s : State) (p : Nat) : State :=
  s.each (s.rejoined.filter fun c => s.rejoinPart c = some p) State.rejoinBack

end Sys2Proof.Machine
end

