-- ==== Sys2Proof/Machine/Launch.lean ====
section
/-! DEFINITION. Launches (R279, R280, R440). -/

namespace Sys2Proof.Machine

/-- What a launch names. -/
structure LaunchV where
  first  : Nat
  count  : Nat
  pc     : Nat
  stride : Nat
  arg    : W64

/-- The present cells that a launch names, with their ranks; an absent cell keeps its rank and does not start (R440). -/
def State.launchCells (s : State) (p : Nat) (l : LaunchV) : List (CellId × Nat) :=
  (List.range l.count).filterMap fun i =>
    match (s.relLogical p (l.first + i)).bind s.backing with
    | some c => some (c, i)
    | none => none

/-- Start one cell with launch rank `i` (R279). -/
def State.launchCell (s : State) (l : LaunchV) (c : CellId) (i : Nat) : State :=
  let r : RegFile := { RegFile.reset with scal := (((RegFile.reset.setS 1 (BitVec.ofNat 64 (l.first + i))).setS 2
    (BitVec.ofNat 64 l.count)).setS 3 l.arg).setS 4 (BitVec.ofNat 64 i) |>.scal }
  let s := s.setCell c { s.cell c with regs := r, line := none, held := none, stopReq := 0, wait := none, haltBar := none }
  ((s.setRun c stRun 0 0).setPc (.cell c) (l.pc + i * l.stride)).wake c

/-- A launch is performed when every present cell that it names is IDLE (R279), and it names cells of the partition only (log
entry 8); answers whether it was. -/
def State.launch (s : State) (p : Nat) (l : LaunchV) : Option State :=
  let cs := s.launchCells p l
  if decide (l.first + l.count ≤ (s.owned p).length) && cs.all (fun x => decide (s.runState x.1 = stIdle)) then some (s.each cs fun s x => s.launchCell l x.1 x.2) else none

end Sys2Proof.Machine
end

