-- ==== Sys2Proof/Machine/Eph.lean ====
section
/-! DEFINITION. The Ephemeris at work (R394-R409): slots, reserves, verdict chains, events, peers, timetables, and the
frames of peers (R245, R377, R378, R386). -/

namespace Sys2Proof.Machine

/-! Conditions of service (R370, R394, R397, R403, R459). -/

/-- PHASE of MGMT.BOOT_STAT. -/
def State.phase (s : State) : Nat := s.rdF R.MGMT_BOOT_STAT F.MGMT_BOOT_STAT_PHASE

/-- Phases of start-up (R458, R460). -/
def phOff : Nat := 0
def phRom : Nat := 1
def phRails : Nat := 2
def phFuses : Nat := 3
def phConfig : Nat := 4
def phStacks : Nat := 5
def phCells : Nat := 6
def phLinks : Nat := 7
def phTime : Nat := 8
def phReady : Nat := 9
def phShutdown : Nat := 10
def phFailed : Nat := 11

/-- Whether the module performs ASTP frames and RoCEv2 requests (R459). -/
def State.ready (s : State) : Bool := s.phase = phReady

/-- Clock states (R393). -/
def merFreerun : Nat := 0
def merLocking : Nat := 1
def merLocked : Nat := 2
def merHoldover : Nat := 3

/-- STATE of PANEL.MER_STAT. -/
def State.merState (s : State) : Nat := s.rdF R.PANEL_MER_STAT F.PANEL_MER_STAT_STATE

/-- Whether slots are served (R394). -/
def State.clockOk (s : State) : Bool := merLocked ≤ s.merState

/-- Whether a sub-port has link up. -/
def State.linkIs (s : State) (sub : SubPort) : Bool := flag (s.rd (R.HZN_ETH_STATq sub.h.val sub.q.val)) sub.k.val

/-- A received frame is accepted (R387). -/
def State.received (s : State) (sub : SubPort) (n : Nat) : State :=
  s.count (R.HZN_ETH_RX_CNTqk sub.h.val sub.q.val sub.k.val) n

/-- A discarded frame (R366, R368, R369, R459). -/
def State.dropFrames (s : State) (sub : SubPort) (n : Nat) : State :=
  s.count (R.HZN_ETH_DROP_CNTqk sub.h.val sub.q.val sub.k.val) n

/-- A frame of a peer that reaches its sub-port: before READY it is discarded (R459). -/
def State.peerFrame (s : State) (sub : SubPort) (eff : State) : State :=
  if !s.linkIs sub then s else if !s.ready then s.dropFrames sub 1 else eff

/-- Meridian time on a Horizon die (R389). -/
def State.hnow (s : State) (h : Nat) : Nat := (s.nsAt (16 + h)).toNat

/-- Whether the occurrence of an entry in the current period has started (R397). -/
def State.slotDue (s : State) (p : Nat) (e : EphE) : Bool :=
  decide ((s.rd (R.PART_TT_EPOCHt p (s.ttActive p))).toNat ≤ s.time.ns.toNat) && decide (s.occStart p e ≤ s.time.ns.toNat)

/-- The partition and ENT of an entry of a committed active timetable whose occurrence has started, on the clock of its die. -/
def State.dueEntry (s : State) (h i : Nat) : Option (Nat × Nat) :=
  match s.ephOwner h i with
  | some (p, t, n) =>
    if t = s.ttActive p && s.ttValid p t && (s.seenBy (16 + h)).slotDue p (s.eph h i) then some (p, h * 16384 + n) else none
  | none => none

/-- Whether an entry transmits and whether it receives. -/
def EphE.tx (e : EphE) : Bool := e.action = actSend || e.action = actVxch
def EphE.rx (e : EphE) : Bool := e.action = actRecv || e.action = actRadd || e.action = actVxch

/-- Whether two entries use one sub-port in one direction. -/
def EphE.meets (a b : EphE) : Bool := a.port = b.port && a.sub = b.sub && ((a.tx && b.tx) || (a.rx && b.rx))

/-- The end of the slot of an entry that starts at `at'`, in nanoseconds. -/
def EphE.slotEnd (e : EphE) (at' : Nat) : Nat := at' + 4 * e.dur

/-- The armed actions of a partition with their cells. -/
def State.allArmed (s : State) (p : Nat) : List (CellId × Armed) :=
  (s.present p).flatMap fun k => (s.cell k).armed.map fun a => (k, a)

/-- The start of the slot that an action stands at: in the period of its arming (R404). -/
def State.armedStart (s : State) (p : Nat) (a : Armed) : Nat := s.occAt p a.tt a.at_ (s.entryT p a.tt a.now)

/-- Whether an action or a verdict chain stands at an entry of the active timetable. -/
def State.occupied (s : State) (p ent : Nat) : Bool :=
  (s.allArmed p).any (fun x => x.2.now = ent && x.2.status.isNone && x.2.tt = s.ttActive p) ||
    (s.ttOf p).chains.any fun c => c.now = ent && !c.past && c.tt = s.ttActive p

/-- Whether another partition's slot keeps the sub-port from an entry whose slot starts at `t0` (R403). -/
def State.bumped (s : State) (p : Nat) (e : EphE) (t0 : Nat) : Bool :=
  (List.range 64).any fun q => q != p && s.ttValid q (s.ttActive q) && (s.ents q).any fun n =>
    let y := s.entry q n
    let a := s.occAt q (s.ttActive q) t0 y
    e.meets y && decide (t0 < y.slotEnd a) && (decide (a < t0) || (a = t0 && decide (q < p))) &&
      (y.kind = 0 || s.occupied q n)

/-! Slots of transfers (R402-R405). -/

/-- A cell whose unit is not awake when its event falls wakes late (R408). -/
def State.wakeLate (s : State) (p : Nat) (k : CellId) : State :=
  if s.rdF (R.CELL_CLK_STAT k) F.CELL_CLK_STAT_RUN = 1 then s.wake k
  else (s.count (R.PART_EPH_WAKE_LATE_CNT p) 1).wake k

/-- Frames of an action that have not left are dropped. -/
def State.dropOwn (s : State) (p ent : Nat) : State :=
  { s with net := { s.net with wait := s.net.wait.filter fun q => q.own != some (p, ent) } }

/-- An armed action completes LOST (R409). -/
def State.loseArmed (s : State) (p : Nat) (k : CellId) (a : Armed) : State :=
  ((s.setArmed k { a with status := some 3 }).count (R.PART_EPH_LOST_CNT p) 1).dropOwn p a.ent

/-- Key of a partition's staged transfer. -/
def stageKey (p ent : Nat) : Nat := p * 65536 + ent

/-- The staged frames of a transfer. -/
def State.staged (s : State) (p ent : Nat) : List TensorFrame := SMap.get s.net.stage [] (stageKey p ent)

/-- Replace the staged frames of a transfer. -/
def State.setStage (s : State) (p ent : Nat) (l : List TensorFrame) : State :=
  { s with net := { s.net with stage := SMap.set s.net.stage [] (stageKey p ent) l } }

/-- Whether every frame of a transfer is staged (R378). -/
def wholeTransfer (l : List TensorFrame) : Bool := l.head?.any fun t => l.length = t.frames

/-- Staging of a transfer is released; an incomplete one counts on the sub-port (R378). -/
def State.unstage (s : State) (p ent : Nat) (sub : SubPort) : State :=
  (s.setStage p ent []).count (R.HZN_ASTP_INCOMPL_CNTqk sub.h.val sub.q.val sub.k.val) (bnat (!(s.staged p ent).isEmpty))

/-- Whether an action receives. -/
def Armed.recv (a : Armed) : Bool := (collK a.job).imm.toNat % 4 = 2

/-- An action that its slot has not served moves along its chain: what it has staged is released, and what it has not sent is
dropped, to be sent again as a whole (R378, R385, R405). -/
def State.notServed (s : State) (p : Nat) (x : CellId × Armed) : State :=
  let sub := (s.entryT p x.2.tt x.2.now).subPort
  ((if x.2.recv then s.unstage p x.2.ent sub else s).dropOwn p x.2.ent).moveOn x.1 x.2

/-- The action that takes a slot: that of the lowest primary entry (R405). -/
def lowestArmed (l : List (CellId × Armed)) : Option (CellId × Armed) :=
  l.foldl (fun o x => match o with
    | some y => if x.2.ent < y.2.ent then some x else some y
    | none => some x) none

/-- Whether an action may be served in the slot that starts at `at'` (R370, R394, R405). -/
def State.slotReady (s : State) (p : Nat) (e : EphE) (a : Armed) (at' : Nat) : Bool :=
  s.clockOk && s.modId != 0 && s.linkIs e.subPort && decide (a.at_ + 1000 ≤ at') && !s.bumped p e at'

/-- The slot of a transfer entry that starts at `at'` begins. A send whose data a page in SWITCH holds does not begin yet (R319). -/
def State.xferStart (s : State) (p ent : Nat) (e : EphE) (at' : Nat) : State :=
  let l := (s.allArmed p).filter fun x => x.2.now = ent && x.2.tt = s.ttActive p && x.2.status.isNone && !x.2.began &&
    !x.2.doneTx && decide (s.armedStart p x.2 = at')
  if s.rdF (peerAddr ent e) F.HZN_PEERi_A_STATE = peerLostSt then s.each l fun s x => s.loseArmed p x.1 x.2
  else match lowestArmed l with
    | none => s
    | some w =>
      let s := s.each (l.filter (· != w)) fun s x => s.notServed p x
      if s.slotReady p e w.2 at' then
        let s := s.wakeLate p w.1
        if e.action != actSend then s.setArmed w.1 { w.2 with began := true }
        else if s.switching (pagesOf w.2.sendRuns) then s
        else s.beginSend w.1 w.2 at'
      else (s.count (R.PART_EPH_BUMP_CNT p) (bnat (s.bumped p e at'))).notServed p w

/-! Verdict chains (R249, R255, R409). -/

/-- Replace a chain. -/
def State.setChain (s : State) (p : Nat) (c : Chain) : State :=
  let t := s.ttOf p
  s.setTt p { t with chains := t.chains.filter (fun x => !(x.ent = c.ent && x.tt = c.tt)) ++ [c] }

/-- The member sends a record on a chain, in the slot that starts at `at'`. -/
def State.sendVerdict (s : State) (p : Nat) (c : Chain) (e : EphE) (at' : Nat) (r : VerdictRec) : State :=
  let rent := (s.entryT p c.tt c.ent).rent
  (s.setChain p { c with sent := true }).transmitAt e.subPort at' (some (p, c.ent)) (.verdict (s.peerIp c.ent e) p rent r)

/-- The record of R255 stands for the member's own; one whose final verdict has formed sends it and holds none. -/
def State.standLate (s : State) (p : Nat) : State :=
  if s.vphase p = 3 then s
  else
    let r := s.lateRec p
    (s.setVrd p { s.vrdOf p with own := some r, late := true }).joinLocal p r

/-- A chain goes to its next slot. -/
def State.chainNext (s : State) (p : Nat) (c : Chain) (e : EphE) : State :=
  (s.setChain p { c with now := entDie c.now * 16384 + e.next }).count (R.PART_EPH_RSV_CNT p) 1

/-- A slot of a chain starts at `at'`: a sealed member sends its record combined with those of the rounds before; one that cannot send
goes to the next slot of the chain; in the last one a member that is not sealed sends the record of R255. -/
def State.chainStart (s : State) (p : Nat) (c : Chain) (e : EphE) (at' : Nat) : State :=
  let bump := s.bumped p e at'
  let up := s.clockOk && s.modId != 0 && s.linkIs e.subPort && !bump
  let s := s.count (R.PART_EPH_BUMP_CNT p) (bnat bump)
  let last := e.next = noNext
  if c.sent then s.setChain p c
  else match (s.vrdOf p).own with
    | some r => if up then s.sendVerdict p c e at' (((s.vrdOf p).result c.at_).getD r) else if last then s.setChain p c else s.chainNext p c e
    | none =>
      if !last then s.chainNext p c e
      else if up then (s.standLate p).sendVerdict p c e at' (s.lateRec p)
      else s.setChain p c

/-- The slot of a VXCH entry starts at `at'`: a primary opens its chain's occurrence. A group of one uses no slot (R252). -/
def State.vxchStart (s : State) (p ent : Nat) (e : EphE) (at' : Nat) : State :=
  let t := s.ttActive p
  let cs := (s.ttOf p).chains.filter fun c => c.tt = t
  if s.rdF (peerAddr ent e) F.HZN_PEERi_A_STATE = peerLostSt then
    s.count (R.PART_EPH_LOST_CNT p) (bnat (e.kind = 0))
  else if s.lone p then s
  else
    let s := s.each (cs.filter fun c => c.now = ent && !c.past && c.ent != ent && decide (s.occAt p t c.at_ e = at'))
      fun s c => s.chainStart p c e at'
    if e.kind != 0 then s
    else match cs.find? fun c => c.ent = ent && c.at_ = at' with
      | none => s.chainStart p ⟨ent, t, at', ent, false, false, false⟩ e at'
      | some c => if c.now = ent && !c.past && !c.sent then s.chainStart p c e at' else s

/-- EPH_SLOT_START: a slot that is over does not start. -/
def execEphSlotStart (h : Fin 4) (i : Fin 16384) (s : State) : Host.Outcome State Fault Refusal :=
  .next
    (match s.dueEntry h.val i.val with
    | some (p, ent) =>
      let e := s.eph h.val i.val
      let at' := s.entStart p ent
      if e.slotEnd at' ≤ s.hnow h.val then s
      else if e.action = actVxch then s.vxchStart p ent e at'
      else if e.action = actSend || e.action = actRecv || e.action = actRadd then s.xferStart p ent e at'
      else s
    | none => s)

/-! Lost peers (R386, R409). -/

/-- A peer of a Horizon die becomes LOST: its armed actions complete, and a record is raised. -/
def State.losePeer (s : State) (h i : Nat) : State :=
  let a := R.HZN_PEERi_A h i
  let p := s.rdF a F.HZN_PEERi_A_PART
  let s := s.wrF a F.HZN_PEERi_A_STATE peerLostSt
  let l := (s.allArmed p).filter fun x =>
    x.2.status.isNone && !x.2.doneTx && entDie x.2.ent = h && decide ((s.entryT p x.2.tt x.2.ent).peer = i)
  let s := s.each l fun s x => s.loseArmed p x.1 x.2
  s.fault 0x0D 0 1 p h [i] 3 none

/-- A verdict chain has ended: MISS counts a chain without a record, and a second miss loses the peer. -/
def State.chainEnd (s : State) (p : Nat) (c : Chain) : State :=
  let s := s.setChain p { c with past := true }
  let e := s.entryT p c.tt c.ent
  let a := peerAddr c.ent e
  if c.got || s.rdF a F.HZN_PEERi_A_STATE != peerLive then s
  else
    let m := s.rdF a F.HZN_PEERi_A_MISS + 1
    let s := s.wrF a F.HZN_PEERi_A_MISS m
    if 2 ≤ m then s.losePeer (entDie c.ent) e.peer else s

/-! Slot ends (R378, R405). -/

/-- Frames are accepted until 40 ns after the end of a slot, and from 40 ns before its start (R402). -/
def slotSlack : Nat := 40

/-- The slot of a chain ends: a record that could not leave in it counts as not sent. -/
def State.chainSlotEnd (s : State) (p : Nat) (c : Chain) (e : EphE) : State :=
  let c := { c with sent := c.sent && !s.sending p c.ent }
  let s := s.dropOwn p c.ent
  if c.sent && c.got then s.setChain p { c with past := true }
  else if e.next = noNext then s.chainEnd p c
  else s.chainNext p c e

/-- The slot of an action ends: one that it has not served goes on. A received transfer that is whole waits only for its destination. -/
def State.xferSlotEnd (s : State) (p : Nat) (x : CellId × Armed) : State :=
  if x.2.recv then (if wholeTransfer (s.staged p x.2.ent) then s else s.notServed p x)
  else if s.sentAll p x.2 then s
  else s.notServed p x

/-- EPH_SLOT_END: it acts on what stands at a slot that is over. -/
def execEphSlotEnd (h : Fin 4) (i : Fin 16384) (s : State) : Host.Outcome State Fault Refusal :=
  .next
    (match s.ephOwner h.val i.val with
    | none => s
    | some (p, t, n) =>
      let ent := h.val * 16384 + n
      let e := s.eph h.val i.val
      let now := s.hnow h.val
      if e.action = actVxch then
        s.each ((s.ttOf p).chains.filter fun c => c.tt = t && c.now = ent && !c.past &&
          decide (e.slotEnd (s.occAt p t c.at_ e) + slotSlack ≤ now)) fun s c => s.chainSlotEnd p c e
      else
        s.each ((s.allArmed p).filter fun x => x.2.tt = t && x.2.now = ent && x.2.status.isNone && !x.2.doneTx &&
          decide (e.slotEnd (s.armedStart p x.2) + (if x.2.recv then slotSlack else 0) ≤ now)) fun s x => s.xferSlotEnd p x)

/-! Frames of peers. -/

/-- Whether the fields of a tensor frame agree with one another (R377). -/
def frameShaped (t : TensorFrame) : Bool :=
  let ns := cdiv t.stotal frameData
  let j := if t.fidx < ns then t.fidx else t.fidx - ns
  let len := if t.fidx < ns then t.stotal else t.total
  t.frames = xferFrames t.total t.stotal && decide (t.fidx < t.frames) && t.kind.toNat = bnat (decide (ns ≤ t.fidx)) &&
    t.offset = frameData * j && t.data.length = min frameData (len - t.offset) && decide (t.total ≤ 2 ^ 24)

/-- Whether a time lies in the window in which a slot's frames are accepted (R402). -/
def EphE.window (e : EphE) (at' now : Nat) : Bool := decide (at' ≤ now + slotSlack) && decide (now ≤ e.slotEnd at' + slotSlack)

/-- Whether the receive that stands at its entry takes frames now: its slot has begun, or begins with the first frame (R394, R402,
R405). -/
def State.recvOpen (s : State) (p : Nat) (a : Armed) : Bool :=
  let e := s.entryT p a.tt a.now
  let at' := s.armedStart p a
  s.clockOk && e.window at' (s.hnow (entDie a.now)) && s.rdF (peerAddr a.now e) F.HZN_PEERi_A_STATE = peerLive &&
    (a.began || s.slotReady p e a at')

/-- Whether a tensor frame matches an armed receive (R378). -/
def State.matchesRecv (s : State) (p : Nat) (hd : AstpHdr) (t : TensorFrame) (x : CellId × Armed) : Bool :=
  let a := x.2
  let e := s.entryT p a.tt a.now
  let f := collK a.job
  let dd := descV (a.job.regs.getD f.dd.val)
  let g := { dd with grp := t.grp.toNat }
  a.ent = t.ent.val && a.status.isNone && !a.doneTx && a.recv && s.recvOpen p a &&
    decide (hd.sub = e.subPort) && s.rdF (peerAddr a.now e) F.HZN_PEERi_A_MODID = hd.srcMod.toNat &&
    t.step.toNat = s.rdF (R.PART_ZEN_STEP p) F.PART_ZEN_STEP_STEP && isEdgeNarrow t.fmt.toNat &&
    decide (fmtWidth a.job.tabs t.fmt.toNat ≤ fmtWidth a.job.tabs e.fmt) && t.strm.toNat = strmByte f &&
    g.group.codeOk && t.total = dd.elemStream a.job.tabs t.fmt.toNat && t.stotal = g.blkCount && frameShaped t &&
    (!(isEdgeNarrow dd.fmt && dd.scaled && decide (e.action = actRecv)) ||
      (t.fmt.toNat = dd.fmt && t.grp.toNat = dd.grp))

/-- The bytes of a stream from its staged frames. -/
def stagedBytes (l : List TensorFrame) (lo n : Nat) : List Byte :=
  (List.range n).flatMap fun i => match l.find? (·.fidx = lo + i) with
    | some t => t.data
    | none => []

/-- A transfer that is wholly staged is written or added (R378), once no page of its destination is in SWITCH (R319). -/
def State.complete (s : State) (p : Nat) (x : CellId × Armed) : State :=
  let l := s.staged p x.2.ent
  match l.head? with
  | none => s
  | some t =>
    if !wholeTransfer l || s.switching (pagesOf x.2.recvRuns) then s
    else
      let ns := cdiv t.stotal frameData
      let sc := stagedBytes l 0 ns
      let el := stagedBytes l ns (t.frames - ns)
      let s := s.setStage p x.2.ent []
      let s := { s with net := { s.net with done := s.net.done ++ [(stageKey p x.2.ent, t.step.toNat)] } }
      if (s.entryT p x.2.tt x.2.now).action = actRadd then s.recvAdd x.1 x.2 t.fmt.toNat t.grp.toNat el sc
      else s.recvWrite x.1 x.2 t.fmt.toNat t.grp.toNat el sc

/-- A TENSOR frame meets the armed receives of its partition (R378). -/
def State.tensorIn (s : State) (hd : AstpHdr) (t : TensorFrame) : State :=
  let p := hd.part.val
  let sub := hd.sub
  let stray := s.count (R.HZN_ASTP_STRAY_CNTqk sub.h.val sub.q.val sub.k.val) 1
  if 2 ≤ t.kind.toNat then s.count (R.HZN_ASTP_BAD_CNTqk sub.h.val sub.q.val sub.k.val) 1
  else if s.net.done.contains (stageKey p t.ent.val, t.step.toNat) then
    s.count (R.HZN_ASTP_DUP_CNTqk sub.h.val sub.q.val sub.k.val) (bnat (t.fidx + 1 = t.frames))
  else match (s.allArmed p).find? (s.matchesRecv p hd t) with
    | none => stray
    | some x =>
      let l := s.staged p t.ent.val
      let same := l.all fun u => u.fmt = t.fmt && u.grp = t.grp && u.frames = t.frames && u.total = t.total && u.stotal = t.stotal
      if !same then stray
      else if l.any (·.fidx = t.fidx) then s
      else ((s.received sub 1).setStage p t.ent.val (l ++ [t])).complete p x

/-- ASTP_TENSOR. -/
def execAstpTensor (hd : AstpHdr) (t : TensorFrame) (s : State) : Host.Outcome State Fault Refusal :=
  .next (s.peerFrame hd.sub (s.tensorIn hd t))

/-- The slots of a chain: its primary entry and its reserves, as ENTs. -/
def State.chainEnts (fuel : Nat) (s : State) (p t ent : Nat) : List Nat :=
  match fuel with
  | 0 => []
  | k + 1 =>
    let n := (s.entryT p t ent).next
    ent :: (if n = noNext then [] else s.chainEnts k p t (entDie ent * 16384 + n))

/-- Whether a record of a chain is accepted now: in any slot of it (R402, R409). -/
def State.chainOpen (s : State) (p : Nat) (c : Chain) : Bool :=
  (s.chainEnts 8192 p c.tt c.ent).any fun n =>
    let e := s.entryT p c.tt n
    e.window (s.occAt p c.tt c.at_ e) (s.hnow (entDie n))

/-- The chain of an ENT that may receive a record: an open one, or that of a primary slot about to start. -/
def State.chainFor (s : State) (p ent : Nat) : Option Chain :=
  match (s.ttOf p).chains.find? fun c => c.ent = ent && !c.got && !c.past with
  | some c => if s.chainOpen p c then some c else none
  | none =>
    let t := s.ttActive p
    let e := s.entryT p t ent
    let now := s.hnow (entDie ent)
    let at' := s.occAt p t (now + slotSlack) e
    if s.entOk p ent && s.ttValid p t && e.action = actVxch && e.kind = 0 && !s.lone p && decide (now < at') && decide (at' ≤ now + slotSlack) then
      some ⟨ent, t, at', ent, false, false, false⟩
    else none

/-- A VERDICT frame: a record of a peer's chain is combined, and one of the member's step and group makes the chain received, whether
or not it comes too late to be combined (R250, R256, R409). -/
def State.verdictIn (s : State) (hd : AstpHdr) (ent : Nat) (r : VerdictRec) : State :=
  let p := hd.part.val
  match s.chainFor p ent with
  | none => s
  | some c =>
    let e := s.entryT p c.tt c.ent
    let a := peerAddr c.ent e
    if !s.clockOk || s.modId = 0 || s.rdF a F.HZN_PEERi_A_MODID != hd.srcMod.toNat || s.rdF a F.HZN_PEERi_A_STATE != peerLive ||
        decide (hd.sub ≠ e.subPort) then s
    else
      let t := (s.received hd.sub 1).recordIn p c.at_ r
      if !s.mine p r then t
      else
        let t := (t.setChain p { c with got := true }).wrF a F.HZN_PEERi_A_MISS 0
        if s.vphase p = 3 then t else t.setVrd p { t.vrdOf p with rounds := (t.vrdOf p).rounds ++ [c.ent] }

/-- ASTP_VERDICT. -/
def execAstpVerdict (hd : AstpHdr) (ent : Fin 65536) (r : VerdictRec) (s : State) : Host.Outcome State Fault Refusal :=
  .next (s.peerFrame hd.sub (s.verdictIn hd ent.val r))

/-- A FAREWELL: its sender is lost from the receipt (R386). -/
def State.farewellIn (s : State) (hd : AstpHdr) : State :=
  if hd.srcMod = 0 then s
  else
    (s.received hd.sub 1).each (List.range 4) fun s h => s.each (List.range 4096) fun s i =>
      let v := s.rd (R.HZN_PEERi_A h i)
      if fld v 63 62 = peerLive && fld v 31 0 = hd.srcMod.toNat then s.losePeer h i else s

/-- ASTP_FAREWELL. -/
def execAstpFarewell (hd : AstpHdr) (_reason : Byte) (_time : W64) (s : State) : Host.Outcome State Fault Refusal :=
  .next (s.peerFrame hd.sub (s.farewellIn hd))

/-! Events (R394, R408). -/

/-- A VDEADLINE: the final verdict of the open step forms, unless it has. A group of one has no deadline (R252). -/
def State.vdeadline (s : State) (p : Nat) : State :=
  if s.vphase p = 3 || s.lone p then s
  else (s.wrF (R.PART_VRD_STAT p) F.PART_VRD_STAT_STEP (s.vstep p)).formFinal p

/-- The launch held in PART.ELAUNCHj. -/
def State.elaunch (s : State) (p j : Nat) : LaunchV :=
  ⟨s.rdF (R.PART_ELAUNCHj_0 p j) F.PART_ELAUNCHj_0_FIRST, s.rdF (R.PART_ELAUNCHj_0 p j) F.PART_ELAUNCHj_0_COUNT,
    s.rdF (R.PART_ELAUNCHj_1 p j) F.PART_ELAUNCHj_1_PC, (s.rd (R.PART_ELAUNCHj_2 p j)).toNat, s.rd (R.PART_ELAUNCHj_3 p j)⟩

/-- Whether a cell's core clock is stopped. -/
def State.asleep (s : State) (k : CellId) : Bool := s.rdF (R.CELL_CLK_STAT k) F.CELL_CLK_STAT_RUN != 1

/-- A LAUNCH: the cells that rejoined slots are to back are backed before it (R448). -/
def State.ephLaunch (s : State) (p : Nat) (e : EphE) : State :=
  let s := s.rejoinLaunch p
  let l := s.elaunch p (e.low % 8)
  match (if s.clockOk then s.launch p l else none) with
  | some s1 => s1.count (R.PART_EPH_WAKE_LATE_CNT p) (bnat ((s.launchCells p l).any fun x => s.asleep x.1))
  | none => s.count (R.PART_LAUNCH_MISS_CNT p) 1

/-- A BARRIER. -/
def State.ephBarrier (s : State) (p ent : Nat) (e : EphE) : State :=
  if !s.clockOk then s.count (R.PART_EPH_LATE_CNT p) 1
  else if s.nbar p ≤ e.low % 64 then
    s.csrRefuse (.session ⟨p % 64, Nat.mod_lt _ (by decide)⟩)
      (ephAddr (entDie ent) (s.ephBase p (entDie ent) (s.ttActive p) + entRel ent) 0) 0xC
  else s.barAdvance p (e.low % 64) 1

/-- An event is performed, once in its occurrence. -/
def State.fireEvent (s : State) (p ent at' : Nat) : State :=
  let e := s.entry p ent
  let s := s.setFired p ent at'
  if e.action = actVdeadline then s.vdeadline p
  else if e.action = actLaunch then s.ephLaunch p e
  else s.ephBarrier p ent e

/-- Whether an entry is an event. -/
def EphE.event (e : EphE) : Bool := e.action = actVdeadline || e.action = actLaunch || e.action = actBarrier

/-- The events up to an ENT that fall at one time and have not been performed, in ascending order (R408). -/
def State.dueEvents (s : State) (p ent at' : Nat) : List Nat :=
  (s.ents p).filter fun n => decide (n ≤ ent) && (s.entry p n).event && s.entStart p n = at' &&
    !(s.ttOf p).fired.contains (n, at')

/-- The event of an entry with a given action, with those of its timetable that fall at the same time and come before it. -/
def State.eventAt (s : State) (h i act : Nat) : State :=
  match s.dueEntry h i with
  | some (p, ent) =>
    let at' := s.entStart p ent
    if (s.eph h i).action != act then s else s.each (s.dueEvents p ent at') fun s n => s.fireEvent p n at'
  | none => s

/-- VDEADLINE. -/
def execVdeadline (h : Fin 4) (i : Fin 16384) (s : State) : Host.Outcome State Fault Refusal := .next (s.eventAt h.val i.val actVdeadline)

/-- EPH_LAUNCH. -/
def execEphLaunch (h : Fin 4) (i : Fin 16384) (s : State) : Host.Outcome State Fault Refusal := .next (s.eventAt h.val i.val actLaunch)

/-- EPH_BARRIER. -/
def execEphBarrier (h : Fin 4) (i : Fin 16384) (s : State) : Host.Outcome State Fault Refusal := .next (s.eventAt h.val i.val actBarrier)

/-- The next start of an entry's occurrence at or after now, on the clock of its die. -/
def State.nextStart (s : State) (p t h : Nat) (e : EphE) : Nat :=
  let now := s.hnow h
  let a := s.occAt p t now e
  if now ≤ a then a else a + 4 * s.rdF (R.PART_TT_CFGt p t) F.PART_TT_CFGt_PERIOD

/-- EPH_PREWAKE: from LEAD ns before the next occurrence, the clocks of the cells that a launch or a slot names. -/
def execEphPrewake (h : Fin 4) (i : Fin 16384) (s : State) : Host.Outcome State Fault Refusal :=
  .next
    (match s.ephOwner h.val i.val with
    | some (p, t, _) =>
      let e := s.eph h.val i.val
      if t != s.ttActive p || !s.ttValid p t ||
          decide (s.hnow h.val + s.rdF (R.PART_EPH_WAKE p) F.PART_EPH_WAKE_LEAD < s.nextStart p t h.val e) then s
      else if e.action = actLaunch then
        s.each (s.launchCells p (s.elaunch p (e.low % 8))) fun s x => s.wake x.1
      else if e.tx || e.rx then
        (match (s.relLogical p e.cell).bind s.backing with
        | some k => s.wake k
        | none => s)
      else s
    | none => s)

/-! Host writes (R396, R398, R400, R406). -/

/-- The partition for which a plane writes. -/
def planePart : Plane → Nat
  | .session p => p.val
  | .mgmt => 0
  | .cell _ => 0

/-- PEER_WRITE: partition 0 and the management plane write the entry of a partition as that partition (R417). -/
def execPeerWrite (pl : Plane) (h : Fin 4) (i : Fin 4096) (word : Fin 4) (v : W64) (s : State) :
    Host.Outcome State Fault Refusal :=
  let a := R.HZN_PEERi_A h.val i.val
  let s1 := s.putReg pl (a + 8 * word.val) v
  let p := (s.peerOwner h.val i.val).getD (planePart pl)
  .next (s.guarded pl (a + 8 * word.val) []
    (if word.val != 0 then s1
    else if s1.rdF a F.HZN_PEERi_A_MODID = 0 then s1.wrF a F.HZN_PEERi_A_STATE peerFree
    else ((s1.wrF a F.HZN_PEERi_A_PART p).wrF a F.HZN_PEERi_A_STATE peerLive).wrF a F.HZN_PEERi_A_MISS 0))

/-- Whether two ranges given by first and length have an element in common. -/
def rangesMeet (a n b m : Nat) : Bool := n != 0 && m != 0 && decide (a < b + m) && decide (b < a + n)

/-- EPH_RANGE_WRITE. -/
def execEphRangeWrite (pl : Plane) (p : Fin 64) (h : Fin 4) (v : W64) (s : State) : Host.Outcome State Fault Refusal :=
  let a := R.PART_EPH_RANGEh p.val h.val
  let b := fld v 13 0
  let n := fld v 29 16
  let old := s.rd a
  let empty := fun lo k => (List.range k).all fun i => decide ((s.eph h.val (lo + i)).action = actNone)
  .next (s.guarded pl a (roLow a v
    [failIf (decide (16384 < b + 2 * n) || (List.range 64).any fun q => q != p.val &&
        rangesMeet b (2 * n) (fld (s.rd (R.PART_EPH_RANGEh q h.val)) 13 0) (2 * fld (s.rd (R.PART_EPH_RANGEh q h.val)) 29 16)) 7,
      failIf (!(empty (fld old 13 0) (2 * fld old 29 16) && empty b (min (2 * n) 16384)) ||
        decide (s.rdF (R.PART_CAP1 p.val) F.PART_CAP1_EPH < n)) 6])
    (s.putReg pl a v))

/-- A write of an Ephemeris entry (R398): refused in the active timetable, and a standby one loses its VALID. An entry in no range is
outside every session's rights, and the management plane's to write (R417). -/
def State.putEph (s : State) (pl : Plane) (h i w : Nat) (v : W64) : State :=
  let a := ephAddr h i w
  match s.ephOwner h i with
  | none => s.guarded pl a [] (s.putReg pl a v)
  | some (p, t, _) =>
    s.guarded pl a [failIf (decide (t = s.ttActive p)) 6]
      (let s := s.putReg pl a v
       s.wr (R.PART_TT_CTL p) (fldPut (s.rd (R.PART_TT_CTL p)) (4 + t) (4 + t) 0))

/-! The commit check (R400). -/

/-- The timetable that is not active. -/
def State.standby (s : State) (p : Nat) : Nat := 1 - s.ttActive p

/-- The entries in use of a timetable, with their ENTs. -/
def State.usedEntries (s : State) (p t : Nat) : List (Nat × EphE) :=
  ((s.ents p).map fun n => (n, s.entryT p t n)).filter fun x => x.2.action != actNone

/-- Check RANGE of one entry. -/
def State.rangeOk (s : State) (p per : Nat) (e : EphE) : Bool :=
  let xfer := e.action = actSend || e.action = actRecv || e.action = actRadd
  decide (e.start + e.dur ≤ per) && decide (64 ≤ e.dur) && decide (e.action ≤ actBarrier) && e.rsv = 0 &&
    (!xfer || isEdgeNarrow e.fmt) && (e.action != actLaunch || decide (e.low < 8)) &&
    (e.action != actBarrier || decide (e.low < s.nbar p)) && (e.action != actVdeadline || e.low = 0)

/-- Check CHAIN of one entry. -/
def State.chainOk (s : State) (p t : Nat) (x : Nat × EphE) : Bool :=
  let e := x.2
  let y := s.entryT p t (entDie x.1 * 16384 + e.next)
  (e.kind = 0 || e.rent = 0) &&
    (e.next = noNext ||
      (decide (e.next < s.ephN p (entDie x.1)) && y.kind = 1 && y.action = e.action && y.port = e.port && y.sub = e.sub &&
        y.peer = e.peer && decide (e.start + e.dur ≤ y.start)))

/-- Whether two slots lie at least 40 ns apart in every period. -/
def apart (per : Nat) (a b : EphE) : Bool :=
  let far := fun (x y : EphE) => decide (x.start + x.dur + 10 ≤ y.start)
  (far a b && decide (b.start + b.dur + 10 ≤ a.start + per)) || (far b a && decide (a.start + a.dur + 10 ≤ b.start + per))

/-- Whether an entry uses a port and a peer. -/
def EphE.uses (e : EphE) : Bool := e.tx || e.rx

/-- Check PEER of one entry. -/
def State.peerOk (s : State) (p : Nat) (x : Nat × EphE) : Bool :=
  let e := x.2
  let v := s.rd (peerAddr x.1 e)
  !e.uses || ((fld v 63 62 = peerLive || fld v 63 62 = peerLostSt) && fld v 57 52 = p &&
    flag (s.rd (R.HZN_ETH_CFGq (e.port / 8) (e.port % 8))) 0)

/-- The first failing check of a timetable, 0 for none. -/
def State.commitFail (s : State) (p t : Nat) : Nat :=
  let per := s.rdF (R.PART_TT_CFGt p t) F.PART_TT_CFGt_PERIOD
  let l := s.usedEntries p t
  let u := l.filter fun x => x.2.uses
  if per = 0 || !l.all (fun x => s.rangeOk p per x.2) then 1
  else if !l.all (s.chainOk p t) then 2
  else if u.any (fun x => u.any fun y => x.1 != y.1 && x.2.meets y.2 && !apart per x.2 y.2) then 3
  else if !l.all (s.peerOk p) then 4
  else if u.any (fun x =>
      let sum := fun (d : EphE → Bool) => ((u.filter fun y => d y.2 && y.2.port = x.2.port && y.2.sub = x.2.sub).map (·.2.dur)).sum
      let cap := s.rdF (R.PART_CAP1 p) F.PART_CAP1_SLOT
      decide (cap * per < 256 * sum EphE.tx) || decide (cap * per < 256 * sum EphE.rx)) then 5
  else 0

/-- STATUS codes of PART.TT_CTL. -/
def ttChecking : Nat := 1
def ttOk : Nat := 2
def ttFailed : Nat := 3

/-- TT_COMMIT. -/
def execTtCommit (pl : Plane) (p : Fin 64) (s : State) : Host.Outcome State Fault Refusal :=
  let a := R.PART_TT_CTL p.val
  .next (s.guarded pl a [failIf (decide (s.rdF a F.PART_TT_CTL_STATUS = ttChecking)) 6]
    (s.wrF a F.PART_TT_CTL_STATUS ttChecking))

/-- TT_COMMIT_DONE. -/
def execTtCommitDone (p : Fin 64) (s : State) : Host.Outcome State Fault Refusal :=
  let a := R.PART_TT_CTL p.val
  let t := s.standby p.val
  let q := s.commitFail p.val t
  .next
    (if s.rdF a F.PART_TT_CTL_STATUS = ttChecking then
      let s := (s.wrF a F.PART_TT_CTL_STATUS (if q = 0 then ttOk else ttFailed)).wrF a F.PART_TT_CTL_FAIL q
      s.wr a (fldPut (s.rd a) (4 + t) (4 + t) (bnat (q = 0)))
    else s)

/-- TT_SWITCH. -/
def execTtSwitch (pl : Plane) (p : Fin 64) (s : State) : Host.Outcome State Fault Refusal :=
  let a := R.PART_TT_CTL p.val
  .next (s.guarded pl a [failIf (!s.ttValid p.val (s.standby p.val)) 6]
    (s.setTt p.val { s.ttOf p.val with sw := (s.ttOf p.val).sw ++ [((s.rd (R.PART_TT_SWAT p.val)).toNat, s.ttActive p.val)] }))

/-- The first period boundary of a timetable at or after a time (R406). -/
def State.boundary (s : State) (p t at' : Nat) : Nat :=
  let e := (s.rd (R.PART_TT_EPOCHt p t)).toNat
  let per := 4 * s.rdF (R.PART_TT_CFGt p t) F.PART_TT_CFGt_PERIOD
  if at' ≤ e then e else if per = 0 then at' else e + per * cdiv (at' - e) per

/-- The active timetable changes (R406). -/
def State.switchTt (s : State) (p : Nat) : State :=
  let a := R.PART_TT_CTL p
  let s := s.each ((s.allArmed p).filter fun x => x.2.status.isNone && !x.2.began) fun s x =>
    s.setArmed x.1 { x.2 with status := some 5 }
  let tt := s.ttOf p
  let s := s.setTt p { tt with
    chains := tt.chains.map fun c => if c.sent || c.got then c else { c with past := true }
    fired := [] }
  ((s.wrF a F.PART_TT_CTL_ACTIVE (s.standby p)).wrF a F.PART_TT_CTL_CLEAN 0).count (R.PART_EPH_SWITCH_CNT p) 1

/-- TIMETABLE_SWITCH: every request to leave the active timetable whose boundary has come is met by one switch. -/
def execTimetableSwitch (p : Fin 64) (s : State) : Host.Outcome State Fault Refusal :=
  let tt := s.ttOf p.val
  let live := tt.sw.filter fun w => w.2 = s.ttActive p.val
  let due := fun (w : Nat × Nat) => decide (s.boundary p.val (s.standby p.val) w.1 ≤ s.time.ns.toNat)
  .next
    (if live.any due then (s.setTt p.val { tt with sw := live.filter fun w => !due w }).switchTt p.val else s)

end Sys2Proof.Machine
end

