-- ==== Sys2Proof/Machine/Net.lean ====
section
/-! DEFINITION. Ethernet ports and sub-ports (R366-R369, R371, R385): configuration, link, flush, address resolution, echo
and discarded frames. -/

namespace Sys2Proof.Machine

/-- Configuration of the port of a sub-port. -/
def cfgOf (sub : SubPort) : Nat := R.HZN_ETH_CFGq sub.h.val sub.q.val

/-- Status of the port of a sub-port. -/
def ethStat (sub : SubPort) : Nat := R.HZN_ETH_STATq sub.h.val sub.q.val

/-- Sub-ports of a port in a mode (R366). -/
def subPorts (mode : Nat) : Nat := if mode = 0 then 1 else if mode = 1 then 2 else 4

/-- Set a bit of a sub-port in a field of ETH_STATq. -/
def State.setSubBit (s : State) (sub : SubPort) (f : Nat × Nat) (b : Bool) : State :=
  s.wrF (ethStat sub) f (bitsPut (s.rdF (ethStat sub) f) sub.k.val sub.k.val (bnat b))

/-- Whether the sub-port can train: its port is enabled and its mode has it (R366, R367). -/
def State.subEnabled (s : State) (sub : SubPort) : Bool :=
  s.rdF (cfgOf sub) F.HZN_ETH_CFGq_EN = 1 && decide (sub.k.val < subPorts (s.rdF (cfgOf sub) F.HZN_ETH_CFGq_MODE))

/-- LINK_UP. -/
def execLinkUp (sub : SubPort) (s : State) : Host.Outcome State Fault Refusal :=
  .next (if s.subEnabled sub && decide (phCells ≤ s.phase) && decide (s.phase ≤ phReady) then
    s.setSubBit sub F.HZN_ETH_STATq_UP true else s)

/-- A flush drops frames of an action or chain: a send that it cuts short moves along its reserves, and a verdict record counts as not
sent (R385, R405). -/
def State.cutShort (s : State) (p ent : Nat) : State :=
  let s := s.each ((s.allArmed p).filter fun x => x.2.ent = ent && x.2.status.isNone && !x.2.recv && x.2.began) fun s x => s.notServed p x
  let t := s.ttOf p
  s.setTt p { t with chains := t.chains.map fun c => if c.ent = ent then { c with sent := false } else c }

/-- The frames in the queue of a sub-port are discarded. -/
def State.flushQueue (s : State) (sub : SubPort) : State :=
  let own := ((s.net.wait.filter fun q => q.sub = sub).filterMap (·.own)).eraseDups
  let s := { s with net := { s.net with wait := s.net.wait.filter fun q => q.sub != sub, asked := s.net.asked.filter fun a => a.1 != sub } }
  s.each own fun s x => s.cutShort x.1 x.2

/-- A sub-port resets (R385): its link is down, the frames in its queue are discarded, and the transfers staged from it become
incomplete. Sessions, their frames and the RoCEv2 responder keep their state. FLUSH is set from the first step until the last. -/
def State.subReset (s : State) (sub : SubPort) : State :=
  let s := s.setSubBit sub F.HZN_ETH_STATq_FLUSH true
  let s := s.setSubBit sub F.HZN_ETH_STATq_UP false
  let s := s.flushQueue sub
  let s := s.each (s.net.stage.map (·.1)) fun s k =>
    let p := k / 65536
    let e := s.entry p (k % 65536)
    if e.subPort = sub then s.unstage p (k % 65536) sub else s
  s.setSubBit sub F.HZN_ETH_STATq_FLUSH false

/-- Every sub-port of a port resets. -/
def State.portReset (s : State) (h : Fin 4) (q : Fin 8) : State :=
  s.each (List.finRange 4) fun s k => s.subReset ⟨h, q, k⟩

/-- SUBPORT_RESET. -/
def execSubportReset (sub : SubPort) (s : State) : Host.Outcome State Fault Refusal := .next (s.subReset sub)

/-- ETH_CFG_WRITE: a change of MODE or MEDIA, and a write of EN = 0, reset the port (R367, R385). -/
def execEthCfgWrite (pl : Plane) (h : Fin 4) (q : Fin 8) (v : W64) (s : State) : Host.Outcome State Fault Refusal :=
  let a := R.HZN_ETH_CFGq h.val q.val
  let f := fun (x : W64) => (fld x 5 4, fld x 3 2)
  let t := s.putReg pl a v
  .next (s.guarded pl a (roLow a v [failIf (pl != .mgmt) 4, failIf (fld v 5 4 = 3 || fld v 3 2 = 3) 7])
    (if f (s.rd a) = f v && flag v 0 then t else t.portReset h q))

/-! Address resolution and echo (R368). -/

/-- The IPv4 address of a sub-port, 0 where IPv4 is off. -/
def State.ip4 (s : State) (sub : SubPort) : W64 := s.rd (R.HZN_ETH_IP4qk sub.h.val sub.q.val sub.k.val)

/-- Whether an address is the sub-port's own. -/
def State.ownIp (s : State) (sub : SubPort) (ip : IpAddr) : Bool :=
  let hi := s.rd (R.HZN_ETH_IP6Hqk sub.h.val sub.q.val sub.k.val)
  let lo := s.rd (R.HZN_ETH_IP6Lqk sub.h.val sub.q.val sub.k.val)
  if ip.v6 then (hi != 0 || lo != 0) && ip.hi = hi && ip.lo = lo else s.ip4 sub != 0 && ip.lo = s.ip4 sub

/-- The MAC address of a sub-port. -/
def State.macOf (s : State) (sub : SubPort) : BitVec 48 :=
  BitVec.ofNat 48 (s.rd (R.HZN_ETH_MACqk sub.h.val sub.q.val sub.k.val)).toNat

/-- ARP_REQUEST. -/
def execArpRequest (sub : SubPort) (target sender : IpAddr) (mac : BitVec 48) (s : State) :
    Host.Outcome State Fault Refusal :=
  .next (if s.linkIs sub && !target.v6 && s.ownIp sub target then
    (s.received sub 1).transmit sub (.arp mac sender target) else s)

/-- NEIGHBOUR_SOLICITATION. -/
def execNeighbourSolicitation (sub : SubPort) (target sender : IpAddr) (mac : BitVec 48) (s : State) :
    Host.Outcome State Fault Refusal :=
  .next (if s.linkIs sub && target.v6 && s.ownIp sub target then
    (s.received sub 1).transmit sub (.neighbour mac sender target) else s)

/-- ECHO_REQUEST. -/
def execEchoRequest (sub : SubPort) (dst src : IpAddr) (data : List Byte) (s : State) :
    Host.Outcome State Fault Refusal :=
  .next (if s.linkIs sub && s.ownIp sub dst then (s.received sub 1).transmit sub (.echo src dst data) else s)

/-- Sixty seconds in nanoseconds. -/
def macHold : Nat := 60000000000

/-- PEER_MAC_RESOLVED. -/
def execPeerMacResolved (sub : SubPort) (ip : IpAddr) (mac : BitVec 48) (s : State) : Host.Outcome State Fault Refusal :=
  let rest := s.net.macs.filter fun m => !(m.sub = sub && m.ip = ip)
  .next (if s.linkIs sub then
    let s := s.received sub 1
    { s with net := { s.net with
      macs := rest ++ [⟨sub, ip, mac, s.time.ns.toNat⟩]
      asked := s.net.asked.filter (· != (sub, ip)) } }
  else s)

/-- PEER_MAC_EXPIRE. -/
def execPeerMacExpire (sub : SubPort) (ip : IpAddr) (s : State) : Host.Outcome State Fault Refusal :=
  let old := fun (m : MacEnt) => m.sub = sub && m.ip = ip && decide (m.time + macHold ≤ s.time.ns.toNat)
  .next { s with net := { s.net with macs := s.net.macs.filter fun m => !old m } }

/-! Discarded frames. -/

/-- Whether a frame with a VLAN tag is accepted (R367). -/
def State.vlanOk (s : State) (sub : SubPort) (vid : Nat) : Bool :=
  s.rdF (cfgOf sub) F.HZN_ETH_CFGq_TAG = 1 && s.rdF (cfgOf sub) F.HZN_ETH_CFGq_VID = vid

/-- Whether a UDP port is one that the module listens on: that of ASTP, and those of RoCEv2 and PTP (R369, R379, R391). -/
def State.listens (s : State) (port : Nat) : Bool :=
  port = s.rdF R.PANEL_ASTP_CFG F.PANEL_ASTP_CFG_UDP_PORT || [4791, 319, 320].contains port

/-- ETH_FRAME_DROP: a frame whose tag matches, or to a port that the module listens on, is not discarded for that; a packet with a bad
ICRC is discarded without count, which none of R366, R368, R369 and R459 gives it (log entry 77). -/
def execEthFrameDrop (sub : SubPort) (why : DropCause) (s : State) : Host.Outcome State Fault Refusal :=
  let fecu := s.rdF (ethStat sub) F.HZN_ETH_STATq_FECU
  .next
    (if !s.linkIs sub then s
    else match why with
      | .badIcrc => s
      | .vlanId v => if s.vlanOk sub v then s else s.dropFrames sub 1
      | .udpPort n => if s.listens n then s else s.dropFrames sub 1
      | .fecError n => (s.wrF (ethStat sub) F.HZN_ETH_STATq_FECU (min (fecu + n) 0xFF)).dropFrames sub 1
      | _ => s.dropFrames sub 1)

/-- The assigned ASTP message types (R375). -/
def astpTypes : List Nat := [0x01, 0x02, 0x03, 0x10, 0x11, 0x12, 0x13, 0x14, 0x15, 0x16, 0x20, 0x30, 0x31, 0x3F]

/-- Bytes `lo` to `lo + n − 1` of a frame as a number. -/
def frameNum (bs : List Byte) (lo n : Nat) : Nat := leNat ((bs.drop lo).take n)

/-- Whether a UDP payload passes the checks of an ASTP frame (R371). -/
def astpGood (udpLen : Nat) (bs : List Byte) : Bool :=
  let len := frameNum bs 20 2
  frameNum bs 0 2 = 0x5341 && frameNum bs 2 1 = 1 && decide (len ≤ 8224) && decide (32 + len ≤ udpLen) &&
    astpTypes.contains (frameNum bs 3 1) && frameNum bs 28 4 = crc32c (bs.take 28 ++ (bs.drop 32).take len)

/-- ASTP_FRAME_BAD. -/
def execAstpFrameBad (sub : SubPort) (udpLen : Nat) (bytes : List Byte) (s : State) : Host.Outcome State Fault Refusal :=
  .next (if !s.linkIs sub || astpGood udpLen bytes then s
    else if s.ready then s.count (R.HZN_ASTP_BAD_CNTqk sub.h.val sub.q.val sub.k.val) 1
    else s.dropFrames sub 1)

end Sys2Proof.Machine
end

