-- ==== Sys2Proof/Machine/Ptp.lean ====
section
/-! DEFINITION. Meridian time (R388-R390) and the PTP instance (R391-R393). -/

namespace Sys2Proof.Machine

/-- Set STATE of PANEL.MER_STAT. -/
def State.setMer (s : State) (k : Nat) : State := s.wrF R.PANEL_MER_STAT F.PANEL_MER_STAT_STATE k

/-- The two counts of consecutive offsets. -/
def State.setOffs (s : State) (good bad : Nat) : State := { s with ptp := { s.ptp with good := good, bad := bad } }

/-- A move from LOCKED or HOLDOVER to LOCKING or FREERUN (R393). -/
def State.unlock (s : State) (k : Nat) : State :=
  (((s.setMer k).setOffs 0 0).count R.PANEL_MER_UNLOCK_CNT 1).fault 0x0A 0 1 255 (s.rdF R.PANEL_MER_STAT F.PANEL_MER_STAT_PORT)
    [s.rdF R.PANEL_MER_STAT F.PANEL_MER_STAT_SUB] 3 none

/-- The number of the port of a sub-port. -/
def portNo (sub : SubPort) : Nat := 8 * sub.h.val + sub.q.val

/-- Whether a sub-port has a PTP Port: it is enabled in its port's mode, and PORTS names the port (R391, R392). -/
def State.ptpPort (s : State) (sub : SubPort) : Bool := s.subEnabled sub && flag (s.rd R.PANEL_PTP_CFG) (portNo sub)

/-- Whether a message is of the module's domain and transport (R391). -/
def State.ptpMine (s : State) (domain : Byte) (transport : Fin 4) : Bool :=
  domain.toNat = s.rdF R.PANEL_PTP_CFG F.PANEL_PTP_CFG_DOMAIN && transport.val = s.rdF R.PANEL_PTP_CFG F.PANEL_PTP_CFG_TRANSPORT

/-- The first difference of two lists of numbers: whether the first list is lower. -/
def lexLt : List Nat → List Nat → Bool
  | a :: r, b :: q => decide (a < b) || (a = b && lexLt r q)
  | _, _ => false

/-- Whether dataset `a` is better than `b` in the default dataset comparison (R391). Of two of one grandmaster, that with fewer steps is
better, or better by topology where they differ by 1; of equal ones, that of the lower sender, then of the lower receiving port. -/
def Better (a b : Announce) : Bool :=
  let top := fun (x : Announce) => [x.steps, x.sender.toNat, x.senderPort, portNo x.sub, x.sub.k.val]
  if a.gmId = b.gmId then lexLt (top a) (top b)
  else
    lexLt [a.priority1, a.clockClass, a.accuracy, a.variance, a.priority2, a.gmId.toNat]
      [b.priority1, b.clockClass, b.accuracy, b.variance, b.priority2, b.gmId.toNat]

/-- A source is selected (R393). -/
def State.select (s : State) (a : Announce) : State :=
  let s := { s with ptp := { s.ptp with source := some a, utc := a.utc } }
  let s := ((s.wrF R.PANEL_MER_STAT F.PANEL_MER_STAT_PORT (portNo a.sub)).wrF R.PANEL_MER_STAT F.PANEL_MER_STAT_SUB
    a.sub.k.val).wr R.PANEL_MER_GM a.gmId
  if s.merState = merFreerun then (s.setMer merLocking).setOffs 0 0 else s

/-- The best of some datasets. -/
def bestOf (l : List Announce) : Option Announce :=
  l.foldl (fun o x => match o with
    | some y => if Better x y then some x else some y
    | none => some x) none

/-- The best master clock algorithm over the masters that the PTP Ports hear (R391): the best one is the source. -/
def State.bmca (s : State) : State :=
  match bestOf (s.ptp.masters.filter fun a => s.ptpPort a.sub) with
  | some a => s.select a
  | none => ({ s with ptp := { s.ptp with source := none } }).wr R.PANEL_MER_GM 0

/-- Whether two Announce messages come from one master over one sub-port. -/
def sameMaster (a b : Announce) : Bool := a.sub = b.sub && a.sender = b.sender && a.senderPort = b.senderPort

/-- PTP_ANNOUNCE. -/
def execPtpAnnounce (a : Announce) (s : State) : Host.Outcome State Fault Refusal :=
  .next
    (if !(s.ptpPort a.sub && s.ptpMine a.domain a.transport && decide (a.steps < 255)) then s
    else { s with ptp := { s.ptp with masters := s.ptp.masters.filter (fun b => !sameMaster a b) ++ [a] } }.bmca)

/-- An offset as OFFSET shows it: 32 bits, two's complement, saturating. -/
def offset32 (x : Int) : Nat := unsigned 32 (max (-(2 ^ 31)) (min x (2 ^ 31 - 1)))

/-- An offset above 1 µs is removed by one step of the counter (R390). -/
def State.stepTime (s : State) (x : Int) : State :=
  let t := BitVec.ofInt 64 ((s.time.ns.toNat : Int) - x)
  ({ s with time := { s.time with ns := t, frac := 0 } }).count R.PANEL_MER_STEP_CNT 1

/-- The servo sets the rate of the counter within ±200 ppm (R390). -/
def State.servo (s : State) : State :=
  { s with time := { s.time with rate := max (-200000) (min (Config.servo s.time.free) 200000), free := s.time.free + 1 } }

/-- A measured offset moves the clock state (R393). -/
def State.offsetState (s : State) (x : Int) : State :=
  let near := decide (x.natAbs ≤ 20)
  let g := s.ptp.good + 1
  let b := s.ptp.bad + 1
  if s.merState = merLocking then
    (if !near then s.setOffs 0 0 else if 16 ≤ g then (s.setMer merLocked).setOffs 0 0 else s.setOffs g 0)
  else if s.merState = merLocked then
    (if near then s.setOffs 0 0 else if 4 ≤ b then s.unlock merLocking else s.setOffs 0 b)
  else if s.merState = merHoldover then
    (if !near then s.setOffs 0 0 else if 4 ≤ g then (s.setMer merLocked).setOffs 0 0 else s.setOffs g 0)
  else s

/-- PTP_SYNC. -/
def execPtpSync (sub : SubPort) (domain : Byte) (transport : Fin 4) (logInt : Int) (offset : Int) (s : State) :
    Host.Outcome State Fault Refusal :=
  let mine := match s.ptp.source with
    | some a => decide (a.sub = sub)
    | none => false
  .next
    (if !(mine && s.ptpPort sub && s.ptpMine domain transport && decide (-7 ≤ logInt) && decide (logInt ≤ 0)) then s
    else
      let s := s.wrF R.PANEL_MER_STAT F.PANEL_MER_STAT_OFFSET (offset32 offset)
      let s := if s.merState ≤ merLocking && decide (1000 < offset.natAbs) then s.stepTime offset
        else if s.merState = merHoldover then s else s.servo
      s.offsetState offset)

/-- PTP_DELAY_RESP: a path delay measurement completes. -/
def execPtpDelayResp (sub : SubPort) (domain : Byte) (transport : Fin 4) (delay : Nat) (s : State) :
    Host.Outcome State Fault Refusal :=
  .next
    (if s.ptpPort sub && s.ptpMine domain transport then
      { s with ptp := { s.ptp with delay := SMap.set s.ptp.delay none (4 * portNo sub + sub.k.val) (some delay) } }
    else s)

/-- PTP_DELAY_REQ. -/
def execPtpDelayReq (sub : SubPort) (s : State) : Host.Outcome State Fault Refusal :=
  .next (if s.ptpPort sub && s.linkIs sub then s.transmit sub (.delayReq (s.rdF R.PANEL_PTP_CFG F.PANEL_PTP_CFG_DOMAIN)) else s)

/-- The clock goes to HOLDOVER, where the servo holds its last rate. -/
def State.holdover (s : State) : State :=
  let s := (s.setMer merHoldover).setOffs 0 0
  { s with ptp := { s.ptp with since := s.time.ns.toNat } }

/-- SYNC_TIMEOUT. -/
def execSyncTimeout (s : State) : Host.Outcome State Fault Refusal :=
  .next (if s.merState = merLocked then s.holdover else s)

/-- SOURCE_DISAPPEARS: the best of the other masters is the source after it. -/
def execSourceDisappears (s : State) : Host.Outcome State Fault Refusal :=
  .next
    (match s.ptp.source with
    | none => s
    | some a =>
      let s1 := if s.merState = merLocked then s.holdover else s
      { s1 with ptp := { s1.ptp with masters := s1.ptp.masters.filter fun b => !sameMaster a b } }.bmca)

/-- HOLDOVER_EXPIRE: HOLD_MAX has passed. -/
def execHoldoverExpire (s : State) : Host.Outcome State Fault Refusal :=
  let lim := s.ptp.since + 1000000 * s.rdF R.PANEL_PTP_CFG F.PANEL_PTP_CFG_HOLD_MAX
  .next
    (if s.merState = merHoldover && decide (lim ≤ s.time.ns.toNat) then
      s.unlock (if s.ptp.source.isSome then merLocking else merFreerun)
    else s)

end Sys2Proof.Machine
end

