-- ==== Sys2Proof/Machine/Part.lean ====
section
/-! DEFINITION. Control of a partition: RUN_CTL (R282), the NaN trap (R69), modes (R56), barrier counters (R283), fences
(R328), caps (R411-R415), the partition table (R416) and debug accesses (R418). -/

namespace Sys2Proof.Machine

/-! RUN_CTL. -/

/-- RUN_CTL_STOP. -/
def execRunCtlStop (pl : Plane) (p : Fin 64) (s : State) : Host.Outcome State Fault Refusal :=
  .next (s.guarded pl (R.PART_RUN_CTL p.val) [] (s.requestStop p.val causeHost))

/-- A stopped cell returns to RUN and reads its line afresh. -/
def State.resumeCell (s : State) (c : CellId) : State :=
  ((s.setCell c { s.cell c with line := none, held := none, stopReq := 0 }).setRun c stRun 0 0).wake c

/-- Cause of a stopped cell. -/
def State.stopCause (s : State) (c : CellId) : Nat := s.rdF (R.CELL_SEQ_STAT c) F.CELL_SEQ_STAT_CAUSE

/-- Cells that RESUME returns to RUN. -/
def State.resumable (s : State) (c : CellId) : Bool :=
  s.runState c = stStopped && (s.stopCause c = causeNan || s.stopCause c = causeHost)

/-- RUN_CTL_RESUME. -/
def execRunCtlResume (pl : Plane) (p : Fin 64) (s : State) : Host.Outcome State Fault Refusal :=
  .next (s.guarded pl (R.PART_RUN_CTL p.val) [failIf (flag (s.rd (R.PART_NAN_TRAP0 p.val)) 63) 6]
    (s.each ((s.present p.val).filter s.resumable) State.resumeCell))

/-- RUN_CTL_ABORT. -/
def execRunCtlAbort (pl : Plane) (p : Fin 64) (s : State) : Host.Outcome State Fault Refusal :=
  .next (s.guarded pl (R.PART_RUN_CTL p.val) []
    (s.each (s.present p.val) fun s c =>
      let st := s.runState c
      if st = stRun || st = stWaitBar || st = stWaitTime || st = stStopped then s.halting c none else s))

/-! Registers of a partition with rules of their own. -/

/-- NAN_TRAP_CLEAR. -/
def execNanTrapClear (pl : Plane) (p : Fin 64) (s : State) : Host.Outcome State Fault Refusal :=
  .next (s.guarded pl (R.PART_NAN_TRAP0 p.val) [] ((s.wrF (R.PART_NAN_TRAP0 p.val) F.PART_NAN_TRAP0_VALID 0).setTrap p.val none))

/-- NUM_MODE_WRITE. -/
def execNumModeWrite (pl : Plane) (p : Fin 64) (v : W64) (s : State) : Host.Outcome State Fault Refusal :=
  let a := R.PART_NUM_MODE p.val
  .next (s.guarded pl a (roLow a v [failIf (flag v 0 && !flag (s.rd (R.PART_CAP2 p.val)) 8) 6]) (s.putReg pl a v))

/-- Armed fences that have not passed and whose counter ceases to be present never pass (R328). -/
def State.deadFences (s : State) (p : Nat) : State :=
  let ks := (List.range 16).filter fun k =>
    let v := s.rd (R.PART_RFENCEk_A p k)
    flag v 63 && decide (s.nbar p ≤ fld v 53 48) && !s.tiers.passed.contains (16 * p + k) && !s.tiers.dead.contains (16 * p + k)
  { s with tiers := { s.tiers with dead := s.tiers.dead ++ ks.map (16 * p + ·) } }

/-- BAR_CFG_WRITE. -/
def execBarCfgWrite (pl : Plane) (p : Fin 64) (v : W64) (s : State) : Host.Outcome State Fault Refusal :=
  let a := R.PART_BAR_CFG p.val
  let n := fld v 6 0
  .next (s.guarded pl a
    (roLow a v [failIf (decide (64 < n)) 7,
      failIf (decide (s.rdF (R.PART_CAP1 p.val) F.PART_CAP1_NBAR < n) ||
        !(s.present p.val).all fun c => decide (s.runState c = stIdle)) 6])
    ((s.putReg pl a v).deadFences p.val))

/-- A fence is armed afresh. -/
def State.rearm (s : State) (p k : Nat) : State :=
  let x := 16 * p + k
  { s with tiers := { s.tiers with passed := s.tiers.passed.filter (· != x), dead := s.tiers.dead.filter (· != x) } }

/-- RFENCE_WRITE. -/
def execRfenceWrite (pl : Plane) (p : Fin 64) (k : Fin 16) (isB : Bool) (v : W64) (s : State) :
    Host.Outcome State Fault Refusal :=
  let a := if isB then R.PART_RFENCEk_B p.val k.val else R.PART_RFENCEk_A p.val k.val
  .next (s.guarded pl a (roLow a v [failIf (!isB && decide (s.nbar p.val ≤ fld v 53 48)) 0xC])
    (((s.putReg pl a v).rearm p.val k.val).fenceCheck p.val k.val))

/-- RFENCE_PASS. -/
def execRfencePass (p : Fin 64) (k : Fin 16) (s : State) : Host.Outcome State Fault Refusal :=
  .next (s.fenceCheck p.val k.val)

/-! Caps (R411-R415). -/

/-- Address of cap register `k`. -/
def capAddr (p k : Nat) : Nat :=
  match k with
  | 0 => R.PART_CAP0 p
  | 1 => R.PART_CAP1 p
  | 2 => R.PART_CAP2 p
  | _ => R.PART_CAP3 p

/-- The value of a cap field over the partitions. -/
def State.capSum (s : State) (reg : Nat → Nat) (f : Nat × Nat) : Nat := ((List.range 64).map fun p => s.rdF (reg p) f).sum

/-- First page and number of pages of a partition. -/
def State.capPages (s : State) (p : Nat) : Nat × Nat :=
  (s.rdF (R.PART_CAP3 p) F.PART_CAP3_PBASE, s.rdF (R.PART_CAP3 p) F.PART_CAP3_PCOUNT)

/-- Whether the caps hold together (R412) after a write for partition `p`, whose PRESETS and PLACES are not 0. -/
def State.capsOk (s : State) (p : Nat) : Bool :=
  let r := s.capPages p
  s.rdF (R.PART_CAP2 p) F.PART_CAP2_PRESETS != 0 && s.rdF (R.PART_CAP2 p) F.PART_CAP2_PLACES != 0 &&
  decide (s.capSum R.PART_CAP0 F.PART_CAP0_CELLS ≤ 1024) && decide (s.capSum R.PART_CAP0 F.PART_CAP0_ONCHIP ≤ 98304) &&
    decide (s.capSum R.PART_CAP0 F.PART_CAP0_STACK ≤ 33538048) && decide (s.capSum R.PART_CAP1 F.PART_CAP1_EPH ≤ 8192) &&
    decide (s.capSum R.PART_CAP1 F.PART_CAP1_ZEN ≤ 256) &&
    (r.2 = 0 || (List.range 64).all fun q => q = p || (s.capPages q).2 = 0 || !rangesMeet r.1 r.2 (s.capPages q).1 (s.capPages q).2)

/-- A limit register above its cap is set to it at once (R415). -/
def State.clipTo (s : State) (p a : Nat) (f : Nat × Nat) (cap : Nat) : State :=
  if cap < s.rdF a f then (s.wrF a f cap).count (R.PART_CAP_CLIP_CNT p) 1 else s

/-- What a lowered cap forces (R415): limits at once; mode codes that it newly forbids, beside those of `was`, at the next step end or at
once where no step is open or pending. -/
def State.clipCaps (s : State) (p was : Nat) : State :=
  let a := s.almOf p
  let s := s.setAlm p { a with force := a.force ||| ((7 - was) &&& s.forbidden p) }
  let s := s.clipTo p (R.PART_TIER_QUOTA p) F.PART_TIER_QUOTA_ONCHIP (s.rdF (R.PART_CAP0 p) F.PART_CAP0_ONCHIP)
  let s := s.clipTo p (R.PART_TIER_QUOTA p) F.PART_TIER_QUOTA_STACK (s.rdF (R.PART_CAP0 p) F.PART_CAP0_STACK)
  let s := s.clipTo p (R.PART_ZEN_SHARE p) F.PART_ZEN_SHARE_SHARE (s.rdF (R.PART_CAP1 p) F.PART_CAP1_ZEN)
  if s.almIdle p then s.capForce p else s

/-- CAP_WRITE: a performed write extends M5 (R480). -/
def execCapWrite (pl : Plane) (p : Fin 64) (k : Fin 4) (v : W64) (s : State) : Host.Outcome State Fault Refusal :=
  let a := capAddr p.val k.val
  let w := match regAt a with
    | some r => BitVec.ofNat 64 (v.toNat &&& r.ro)
    | none => 0
  let s1 := s.wr a w
  .next (s.guarded pl a
    [failIf (!s1.capsOk p.val) 7] ((s1.clipCaps p.val (s.forbidden p.val)).measure 5 (.cap a w)))

/-! The partition table (R416). -/

/-- CELL.ID of the slot that backs a logical cell shows its owner. -/
def State.showOwner (s : State) (l : Nat) (p : Option Nat) : State :=
  match s.backing l with
  | none => s
  | some c =>
    let a := R.CELL_ID c
    (s.wrF a F.CELL_ID_OWNED (bnat p.isSome)).wrF a F.CELL_ID_PART (p.getD 0)

/-- CELLMAP_WRITE. -/
def execCellmapWrite (pl : Plane) (p : Fin 64) (j : Fin 16) (v : W64) (s : State) : Host.Outcome State Fault Refusal :=
  let a := R.PART_CELLMAPj p.val j.val
  let old := s.rd a
  let s1 := s.wr a v
  let idle := fun (cs : List CellId) => cs.all fun c => decide (s.runState c = stIdle)
  let taken := (List.range 64).any fun q => q != p.val && (s.rd (R.PART_CELLMAPj q j.val) &&& v) != 0
  .next (s.guarded pl a
    [failIf taken 7,
      failIf (decide (s.rdF (R.PART_CAP0 p.val) F.PART_CAP0_CELLS < (s1.owned p.val).length) || !idle (s.present p.val) ||
        !idle (s1.present p.val)) 6]
    (s1.each (List.range 64) fun s i =>
      if v.toNat.testBit i then s.showOwner (64 * j.val + i) (some p.val)
      else if old.toNat.testBit i then s.showOwner (64 * j.val + i) none
      else s))

/-! Debug accesses (R418). -/

/-- Whether CELL.DBG_SEL selects a value. -/
def dbgSelOk (file ix : Nat) : Bool :=
  match file with
  | 0 => ix < 32
  | 1 => ix < 64
  | 2 => ix < 8
  | 3 => ix < 8192
  | _ => false

/-- The value that CELL.DBG_SEL selects. -/
def dbgRead (x : CellCtx) (file ix : Nat) : W64 :=
  match file with
  | 0 => x.regs.getS ix
  | 1 => BitVec.ofNat 64 (bitsOf (x.regs.getD (ix / 4)).toNat (64 * (ix % 4) + 63) (64 * (ix % 4)))
  | 2 => BitVec.ofNat 64 (bnat (x.regs.getP ix))
  | _ => BitVec.ofNat 64 ((x.tile (ix / 1024)).getD (ix % 1024) 0).toNat

/-- Write the value that CELL.DBG_SEL selects. -/
def dbgWrite (x : CellCtx) (file ix : Nat) (v : W64) : CellCtx :=
  match file with
  | 0 => { x with regs := x.regs.setS ix v }
  | 1 =>
    let d := BitVec.ofNat 256 (bitsPut (x.regs.getD (ix / 4)).toNat (64 * (ix % 4) + 63) (64 * (ix % 4)) v.toNat)
    { x with regs := x.regs.setD (ix / 4) d }
  | 2 => { x with regs := x.regs.setP ix (flag v 0) }
  | _ => x.setTile (ix / 1024) ((x.tile (ix / 1024)).set (ix % 1024) (BitVec.ofNat 32 v.toNat))

/-- Whether a plane has debug accesses: a session of partition 0. -/
def dbgPlane : Plane → Bool
  | .session p => p = 0
  | _ => false

/-- DBG_DATA_ACCESS: after it CELL.DBG_DATA holds the selected value. -/
def execDbgDataAccess (pl : Plane) (c : CellId) (write : Option W64) (s : State) : Host.Outcome State Fault Refusal :=
  let a := R.CELL_DBG_DATA c
  let file := s.rdF (R.CELL_DBG_SEL c) F.CELL_DBG_SEL_FILE
  let ix := s.rdF (R.CELL_DBG_SEL c) F.CELL_DBG_SEL_INDEX
  let st := s.runState c
  .next
    (if !dbgPlane pl then s.csrRefuse pl a 4
    else if !(st = stIdle || st = stStopped) then s.csrRefuse pl a 6
    else if !dbgSelOk file ix then s.csrRefuse pl a 7
    else
      let s := match write with
        | some v => s.setCell c (dbgWrite (s.cell c) file ix v)
        | none => s
      s.wr a (dbgRead (s.cell c) file ix))

end Sys2Proof.Machine
end

