-- ==== Sys2Proof/Machine/Lode.lean ====
section
/-! DEFINITION. Lodestar (R470-R482): images and the boot ROM, the configuration copies, the signing state, the firmware
commands and the quote. -/

namespace Sys2Proof.Machine

/-! Images (R471-R473). -/

/-- The `n` bytes at byte `o` of an image's header, as a number (R471). -/
def imgField (i : FwImage) (o n : Nat) : Nat := leNat ((i.header.drop o).take n)

/-- SVN and FW of an image (R471). -/
def imgSvn (i : FwImage) : Nat := imgField i 8 4
def imgFw (i : FwImage) : Nat := imgField i 12 4

/-- Bytes of an image slot's body and of a vendor signature at most (R470, R471). -/
def bodyMax : Nat := 32 * 2 ^ 20 - 4096
def vendorSigLen : Nat := 1776

/-- Whether the fixed fields of a header are right, and every byte shown as 0 is 0 (R471, R472). -/
def headerOk (i : FwImage) : Bool :=
  i.header.length = 256 && imgField i 0 4 = 0x57465753 && imgField i 4 2 = 1 && imgField i 6 1 = 1 && decide (imgField i 16 4 ≤ bodyMax) &&
    imgField i 20 4 = vendorSigLen && ((i.header.drop 7).take 1 ++ (i.header.drop 24).take 8 ++ i.header.drop 64).all (· = 0)

/-- Whether an image verifies (R472). -/
def State.verifies (s : State) (i : FwImage) : Bool :=
  headerOk i && decide (s.lode.svn ≤ imgSvn i) && decide (imgSvn i ≤ 64) && i.sigOk && i.hashOk

/-- The image in a slot: `b` names slot B. -/
def Lode.img (l : Lode) (b : Bool) : Option FwImage := if b then l.imgB else l.imgA

/-- Whether a slot holds an image that verifies. -/
def State.slotOk (s : State) (b : Bool) : Bool := (s.lode.img b).any s.verifies

/-- Set OK of a slot to the result of a check. -/
def State.checkSlot (s : State) (b : Bool) : State :=
  s.wrF R.MGMT_FW_STAT (if b then F.MGMT_FW_STAT_OK_B else F.MGMT_FW_STAT_OK_A) (bnat (s.slotOk b))

/-- The running slot. -/
def State.runSlot (s : State) : Bool := s.rdF R.MGMT_FW_STAT F.MGMT_FW_STAT_SLOT = 1

/-! The signing state (R477-R479). -/

def idReady : Nat := 0
def idUncertain : Nat := 2
def idExhausted : Nat := 3

/-- STATE of MGMT.ID_STAT. -/
def State.idState (s : State) : Nat := s.rdF R.MGMT_ID_STAT F.MGMT_ID_STAT_STATE

/-- SVN_FUSE and LEFT show what the fuses hold: 0 until FUSES has loaded them (R9, R458). -/
def State.showFuses (s : State) : State :=
  if s.lode.loaded then
    (s.wrF R.MGMT_FW_STAT F.MGMT_FW_STAT_SVN_FUSE s.lode.svn).wrF R.MGMT_ID_STAT F.MGMT_ID_STAT_LEFT (1024 - s.lode.burned.length)
  else s

/-- Show the signing state. -/
def State.setId (s : State) (st chunk leaf : Nat) : State :=
  (((s.wrF R.MGMT_ID_STAT F.MGMT_ID_STAT_STATE st).wrF R.MGMT_ID_STAT F.MGMT_ID_STAT_CHUNK chunk).wrF R.MGMT_ID_STAT
    F.MGMT_ID_STAT_LEAF leaf).showFuses

/-- The signing state when Lodestar starts (R479). -/
def State.idStart (s : State) : State :=
  let c := s.lode.burned.length
  let gap := !(List.range c).all s.lode.burned.contains
  let ahead := s.lode.clean.any fun r => decide (c ≤ r.1)
  let st := if gap || ahead || s.idState = idUncertain then idUncertain else idReady
  match s.lode.clean with
  | some (k, leaf) => if k + 1 = c && decide (leaf ≤ 1024) then s.setId st k leaf else s.setId st 0 1024
  | none => s.setId st 0 1024

/-- A signature: the index of the leaf that it uses, or none where it is refused (R478, R479). `burnOk` says whether a burn
passes its verify read. -/
def State.sign (s : State) (burnOk : Bool) : State × Option Nat :=
  let c := s.lode.burned.length
  let leaf := s.rdF R.MGMT_ID_STAT F.MGMT_ID_STAT_LEAF
  let chunk := s.rdF R.MGMT_ID_STAT F.MGMT_ID_STAT_CHUNK
  let refuse := fun (s : State) => (s.count R.MGMT_ID_REFUSE_CNT 1, none)
  if s.idState = idUncertain then refuse s
  else if leaf < 1024 then
    ({ s with lode := { s.lode with clean := none } }.setId idReady chunk (leaf + 1), some (1024 * chunk + leaf))
  else if 1024 ≤ c then refuse (s.setId idExhausted chunk leaf)
  else if !burnOk then refuse (s.setId idUncertain chunk leaf)
  else
    ({ s with lode := { s.lode with burned := s.lode.burned ++ [c], clean := none } }.setId idReady c 1, some (1024 * c))

/-- The record that Lodestar writes before a restart of its own: the current chunk and its next leaf (R479). -/
def State.cleanRecord (s : State) : Option (Nat × Nat) :=
  let k := s.rdF R.MGMT_ID_STAT F.MGMT_ID_STAT_CHUNK
  if s.idState != idUncertain && k + 1 = s.lode.burned.length then some (k, s.rdF R.MGMT_ID_STAT F.MGMT_ID_STAT_LEAF) else none

/-! Starting Lodestar (R473, R479, R480). -/

/-- Lodestar starts on a slot: its registers, M0 and M1, and the signing state. -/
def State.runImage (s : State) (b fallback : Bool) (i : FwImage) : State :=
  let a := R.MGMT_FW_STAT
  let s := (((s.wrF a F.MGMT_FW_STAT_SVN_RUN (imgSvn i)).wrF a F.MGMT_FW_STAT_SLOT (bnat b)).wrF a F.MGMT_FW_STAT_FALLBACK
    (bnat fallback)).wrF a F.MGMT_FW_STAT_FW_RUN (imgFw i)
  let s := { s with lode := { s.lode with up := true, meas := [] } }
  ((s.measure 0 (.rom s.lode.svn)).measure 1 (.image i)).idStart

/-- The boot ROM tries slot `b`, then the other one; none where neither verifies (R473). -/
def State.bootFrom (s : State) (b : Bool) : Option State :=
  let s1 := s.checkSlot b
  if s.slotOk b then (s.lode.img b).map fun i => s1.runImage b false i
  else
    let s2 := s1.checkSlot (!b)
    if s.slotOk (!b) then (s.lode.img (!b)).map fun i => s2.runImage (!b) true i else none

/-- The slot that the boot word names: slot A where its CRC fails (R473). -/
def State.bootSlot (s : State) : Bool := s.lode.boot.getD false

/-! Firmware commands (R475, R476). -/

/-- Codes of CMD of MGMT.FW_CTL. -/
def fwCmdVerify : Nat := 1
def fwCmdActivate : Nat := 2
def fwCmdCommit : Nat := 3

/-- A firmware command is accepted while none is in progress. -/
def State.fwCommand (s : State) (pl : Plane) (eff : State) : State :=
  s.guarded pl R.MGMT_FW_CTL [failIf (s.rdF R.MGMT_FW_STAT F.MGMT_FW_STAT_BUSY = 1) 6] (if s.lode.up then eff else s)

/-- FW_VERIFY. -/
def execFwVerify (pl : Plane) (s : State) : Host.Outcome State Fault Refusal :=
  .next (s.fwCommand pl ((s.checkSlot false).checkSlot true))

/-- FW_ACTIVATE. -/
def execFwActivate (pl : Plane) (s : State) : Host.Outcome State Fault Refusal :=
  let b := !s.runSlot
  let t := s.checkSlot b
  .next (s.fwCommand pl
    (if s.slotOk b then
      let t := { t with lode := { t.lode with boot := some b, clean := s.cleanRecord } }
      (t.bootFrom b).getD t
    else t))

/-- FW_COMMIT_SVN. -/
def execFwCommitSvn (pl : Plane) (s : State) : Host.Outcome State Fault Refusal :=
  let n := s.rdF R.MGMT_FW_STAT F.MGMT_FW_STAT_SVN_RUN
  .next (s.fwCommand pl
    (if s.lode.svn < n then
      { s with lode := { s.lode with svn := n } }.showFuses
    else s))

/-- FW_UPDATE: the image goes into the slot that is not running and is verified there. -/
def execFwUpdate (img : FwImage) (s : State) : Host.Outcome State Fault Refusal :=
  .next
    (if !s.lode.up || s.rdF R.MGMT_FW_STAT F.MGMT_FW_STAT_BUSY = 1 then s
    else
      let b := !s.runSlot
      let l := if b then { s.lode with imgB := some img } else { s.lode with imgA := some img }
      { s with lode := l }.checkSlot b)

/-! The configuration (R9, R411, R474). -/

/-- The registers that hold "cfg" fields, with the masks of those fields. -/
def cfgRegs : List (Nat × Nat) :=
  ((List.range 4).flatMap fun h => (List.range 8).map fun q => (R.HZN_ETH_CFGq h q, 0x3C)) ++
    [(R.PANEL_MOD_ID, 0xFFFFFFFF), (R.PANEL_PTP_CFG, 0xFFFFFFFF)] ++
    (List.range 64).flatMap fun p =>
      [(R.PART_CAP0 p, (2 ^ 64 - 2 ^ 21) + 0x7FF), (R.PART_CAP1 p, 2 ^ 64 - 8), (R.PART_CAP2 p, 0x1F7),
        (R.PART_CAP3 p, (2 ^ 58 - 2 ^ 32) + (2 ^ 26 - 1))] ++
      ((List.range 16).map fun j => (R.PART_CELLMAPj p j, 2 ^ 64 - 1)) ++
      (List.range 4).flatMap fun k =>
        [(R.PART_HOSTk_A p k, 0xC00000FFFFFFFFFF), (R.PART_HOSTk_B p k, 2 ^ 64 - 1), (R.PART_HOSTk_C p k, 2 ^ 64 - 1)]

/-- The configuration fields as the registers hold them. -/
def State.cfgNow (s : State) : SMap W64 :=
  cfgRegs.foldl (fun m r => SMap.set m 0 r.1 (s.rd r.1 &&& BitVec.ofNat 64 r.2)) []

/-- Load the configuration fields of a copy; the ownership that CELL.ID shows follows (R416). -/
def State.loadCfg (s : State) (c : CfgCopy) : State :=
  let s := s.each cfgRegs fun s r =>
    s.wr r.1 ((s.rd r.1 &&& ~~~BitVec.ofNat 64 r.2) ||| (SMap.get c.vals 0 r.1 &&& BitVec.ofNat 64 r.2))
  s.each (List.range 64) fun s p => s.each (s.owned p) fun s l => s.showOwner l (some p)

/-- The copy that CONFIG uses: the higher generation among those that verify. -/
def Lode.newest (l : Lode) : Option CfgCopy :=
  if l.cfg0.ok && (!l.cfg1.ok || decide (l.cfg1.gen ≤ l.cfg0.gen)) then some l.cfg0
  else if l.cfg1.ok then some l.cfg1
  else none

/-- CONFIG_WRITE: a persistent setting has changed, and the older copy is rewritten. -/
def execConfigWrite (s : State) : Host.Outcome State Fault Refusal :=
  let l := s.lode
  let now := s.cfgNow
  let c : CfgCopy := ⟨max l.cfg0.gen l.cfg1.gen + 1, true, now⟩
  .next
    (if !l.up || l.newest.all (fun x => x.vals = now) then s
    else if l.cfg0.gen ≤ l.cfg1.gen then { s with lode := { l with cfg0 := c } }
    else { s with lode := { l with cfg1 := c } })

/-- CONFIGURATION_UPDATE: a complete configuration that Lodestar verifies becomes copy 0 with generation 1. -/
def execConfigurationUpdate (settings : List (Nat × W64)) (verifies : Bool) (s : State) : Host.Outcome State Fault Refusal :=
  let vals := settings.foldl (fun m x =>
    match cfgRegs.find? (·.1 = x.1) with
    | some r => SMap.set m 0 x.1 (x.2 &&& BitVec.ofNat 64 r.2)
    | none => m) []
  .next (if s.lode.up && verifies then { s with lode := { s.lode with cfg0 := ⟨1, true, vals⟩ } } else s)

/-! The quote (R480, R481). -/

/-- The digest of what a measurement register is extended with (R480): of contents that the model does not hold byte by byte. -/
opaque Config.digest : Meas → BitVec 256

/-- A measurement register: what it was extended with, one after another, from 0 (R480). -/
def mregOf (l : List Meas) : BitVec 256 :=
  l.foldl (fun m d => Config.sha256 (leBytes 32 m.toNat ++ leBytes 32 (Config.digest d).toNat)) 0

/-- Bytes 0 to 335 of a quote, which its signature covers (R481, Table: Quote). -/
def quoteBody (q : QuoteRec) : List Byte :=
  leBytes 4 0x544F5551 ++ leBytes 2 1 ++ leBytes 2 336 ++ leBytes 8 q.panelId.toNat ++ leBytes 4 q.modId ++ leBytes 4 q.fw ++
    leBytes 8 q.time.toNat ++ (q.nonce ++ List.replicate 32 0).take 32 ++ leBytes 1 q.slot ++ leBytes 1 q.svn ++ leBytes 1 q.phase ++
    leBytes 1 0 ++ leBytes 4 q.index ++ ((List.range 8).flatMap fun k => leBytes 32 (mregOf (SMap.get q.mreg [] k)).toNat) ++
    leBytes 8 0

/-- Bytes of a signature of the identity key (R470). -/
def idSigLen : Nat := 5076

/-- A quote as it is returned: its body and the HSS signature with the leaf of its index. -/
def quoteBytes (q : QuoteRec) : List Byte := quoteBody q ++ (List.finRange idSigLen).map (Config.hssSign q.index (quoteBody q))

/-- QUOTE: the measurements are captured, and the quote is returned when it is signed. -/
def execQuote (nonce : List Byte) (burnOk : Bool) (s : State) : Host.Outcome State Fault Refusal :=
  .next
    (if !s.lode.up then s
    else
      match s.sign burnOk with
      | (t, none) => t
      | (t, some ix) =>
        let q : QuoteRec := {
          panelId := s.rd R.PANEL_ID
          modId := (s.rd R.PANEL_MOD_ID).toNat % 2 ^ 32
          fw := s.rdF R.MGMT_FW_STAT F.MGMT_FW_STAT_FW_RUN
          time := s.time.ns
          nonce := nonce
          slot := bnat s.runSlot
          svn := s.rdF R.MGMT_FW_STAT F.MGMT_FW_STAT_SVN_FUSE
          phase := s.rdF R.MGMT_BOOT_STAT F.MGMT_BOOT_STAT_PHASE
          index := ix
          mreg := s.lode.meas }
        { t with lode := { t.lode with quotes := t.lode.quotes ++ [q] } })

end Sys2Proof.Machine
end

