-- ==== Sys2Proof/Machine/Comet.lean ====
section
/-! DEFINITION. Comet engines (R319-R326, R330): placement windows, moves, and the release of claimed frames. -/

namespace Sys2Proof.Machine

/-! Placement (R325). -/

/-- The logical cell that wrote most bytes of a page in the window, the lower number among equals, with its bytes. -/
def topWriter (m : SMap Nat) : Nat × Nat := m.foldl (fun b x => if b.2 < x.2 then x else b) (0, 0)

/-- Whether the placement rule asks to move a page to its top writer. -/
def State.placeMove (s : State) (cfg : W64) (pg : Nat) (m : SMap Nat) : Bool :=
  let t := topWriter m
  let total := (m.map (·.2)).sum
  decide (fld cfg 15 8 * total < 256 * t.2) && decide (fld cfg 23 16 * 1024 ≤ t.2) && !s.homedAt pg t.1 && !(s.ent pg).pin

/-- Requests that wait for a window end are considered again. -/
def State.reconsider (s : State) (d p : Nat) : State :=
  let l := SMap.get s.tiers.reqs [] (16 + d)
  let mine := l.filter fun q => (s.ent q.page).owner = p
  let rest := l.filter fun q => (s.ent q.page).owner != p
  let r := SMap.set s.tiers.reqs [] (16 + d) rest
  { s with tiers := { s.tiers with reqs := SMap.set r [] d (SMap.get r [] d ++ mine) } }

/-- Whether the engine of die `d` counts the bytes of key `k` for partition `p` (R325). -/
def State.windowOf (s : State) (d p k : Nat) : Bool :=
  k / 2 ^ 26 = d && (s.ent (k % 2 ^ 26)).owner = p && (s.ent (k % 2 ^ 26)).st != .free

/-- Whether a page of partition `p` is homed on die `d`. -/
def State.pageHere (s : State) (d p pg : Nat) : Bool :=
  (s.ent pg).owner = p && (s.ent pg).st != .free && locDie (s.ent pg).home = d

/-- PLACEMENT_WINDOW_END of partition `p` on die `d`: requests under the mode in force for the HOMED pages of the home cache on
the die, then the written mode takes effect and counting restarts. -/
def execPlacementWindowEnd (d : Fin 16) (p : Fin 64) (s : State) : Host.Outcome State Fault Refusal :=
  let cfg := s.tierCfg p.val
  let pages := ((s.tiers.wbytes.filter fun x => s.windowOf d.val p.val x.1).map fun x => (x.1 % 2 ^ 26, x.2)).filter fun x =>
    s.inHomeCache d.val x.1 && (s.ent x.1).st = .homed && s.placeMove cfg x.1 x.2
  let s1 := s.reconsider d.val p.val
  let s2 :=
    if fld cfg 1 0 = 0 then
      s1.each pages fun s x =>
        if s.inMove x.1 then s.hintIgnored p.val else s.requestMove ⟨x.1, (topWriter x.2).1, false⟩
    else s1
  .next { s2 with tiers := { s2.tiers with
    wbytes := s2.tiers.wbytes.filter fun x => !s.windowOf d.val p.val x.1
    watom := s2.tiers.watom.filter fun pg => !s.pageHere d.val p.val pg
    cfg := SMap.set s2.tiers.cfg (csrReset (R.PART_TIER_CFG p.val)) p.val (s2.rd (R.PART_TIER_CFG p.val)) } }

/-! Moves (R319). -/

/-- The destination of a move of a page that follows logical cell `l` (R325). -/
def State.moveDest (s : State) (pg l : Nat) : Option Nat :=
  let e := s.ent pg
  match s.backing l with
  | none => none
  | some c =>
    let own := if s.tokenFree e.owner false then s.cellFrame c else none
    match own with
    | some f => some f
    | none =>
      if locDie e.home != c.die.val && s.tokenFree e.owner true then s.stackFrame (2 * c.die.val + pg % 2) else none

/-- Moves that the engine of a die runs, those that forward included (R319, R324). -/
def State.movesOf (s : State) (d : Nat) : Nat :=
  (s.tiers.moves.filter fun x => x.2.die = d).length + (s.tiers.fwds.filter fun f => f.die = d).length

/-- The engine reads lines of a frame, with the error checks of every read; the page is `p`'s (R346, R355). -/
def State.readLines (s : State) (p a : Nat) (ln : Nat → Bool) : State :=
  let mine := fun (k : Nat) => k / 8192 = a && ln (k % 8192 / 8)
  (s.correct ((s.ce.map (·.1)).filter mine)).spoilt p (s.ue.filter mine)

/-- The keys at which the mark at key `k` of a frame stands in frame `b`: words and lines are marked as the destination's code
covers them. -/
def carryMark (b k : Nat) : List Nat :=
  let t := b * 8192 + k % 8192
  if locIsStack (k / 8192) && !locIsStack b then (List.range 8).map fun i => t / 8 * 8 + i else [markKey t]

/-- Lines of frame `b` take what those of frame `a` hold. -/
def State.placeLines (s : State) (a b : Nat) (ln : Nat → Bool) : State :=
  let at' := fun (k : Nat) => k / 8192 = b && ln (k % 8192 / 8)
  let kept := s.bytes.filter fun x => !(x.1 / pageSize = b && ln (x.1 % pageSize / 64))
  let moved := s.bytes.filter fun x => x.1 / pageSize = a && ln (x.1 % pageSize / 64)
  { s with
    bytes := moved.foldl (fun m x => SMap.set m 0 (b * pageSize + x.1 % pageSize) x.2) kept
    ue := ((s.ue.filter fun k => k / 8192 = a && ln (k % 8192 / 8)).flatMap (carryMark b)).foldl (fun l k => insertNat k l)
      (s.ue.filter fun k => !at' k)
    ce := s.ce.filter fun k => !at' k.1 }

/-- Lines of a frame that never reached it: every one reads as uncorrectable (R364). -/
def State.loseLines (s : State) (b : Nat) (ls : List Nat) : State :=
  { s with
    ue := (ls.flatMap fun i => (List.range 8).map fun k => markKey (b * 8192 + 8 * i + k)).foldl (fun l k => insertNat k l) s.ue }

/-- Copy lines of frame `a` into frame `b` (R319): what a line holds, corrected, and the mark of one that is uncorrectable. Between dies
the lines are a Span move (R22). -/
def State.copyLines (s : State) (p a b : Nat) (ln : Nat → Bool) : State :=
  let ls := (List.range 1024).filter ln
  let x := (s.readLines p a ln).carry (locDie a) (locDie b) (64 * ls.length)
  if x.2 then x.1.placeLines a b ln else x.1.loseLines b ls

/-- Copy every line of a frame, in ascending order. -/
def State.copyFrame (s : State) (p a b : Nat) : State := s.copyLines p a b fun _ => true

/-- The lines of a page written since their last copy. -/
def State.dirtyLines (s : State) (pg : Nat) : List Nat := (SMap.get s.tiers.moves ⟨0, []⟩ pg).dirty

/-- A round of the engine: the dirty lines of a page are copied again, and its dirty map is cleared (R319). -/
def State.copyRound (s : State) (pg : Nat) : State :=
  let e := s.ent pg
  let s1 := s.copyLines e.owner e.home e.dest fun i => (s.dirtyLines pg).contains i
  { s1 with tiers := { s1.tiers with
    moves := SMap.insert s1.tiers.moves pg ⟨(SMap.get s1.tiers.moves ⟨0, []⟩ pg).die, []⟩ } }

/-- A request is kept for the next window end. -/
def State.defer (s : State) (d : Nat) (q : MoveReq) : State :=
  { s with tiers := { s.tiers with
    reqs := SMap.set s.tiers.reqs [] (16 + d) (SMap.get s.tiers.reqs [] (16 + d) ++ [q]) } }

/-- A page leaves every home cache (R316). -/
def State.invalidate (s : State) (pg : Nat) : State :=
  s.each (List.range 16) fun s d =>
    let k := d * 1024 + pg % 1024
    { s with tiers := { s.tiers with
      hcache := SMap.set s.tiers.hcache [] k ((SMap.get s.tiers.hcache [] k).filter (· != pg)) } }

/-- A service move of a page to frame `f` (R324, R439): tokens are taken beyond the limit where need be (R327). -/
def State.serviceMove (s : State) (pg f : Nat) : State :=
  let e := s.ent pg
  let s := ((s.copyFrame e.owner e.home f).release e.owner e.home).reserve e.owner f
  ((s.setEnt pg { e with st := .homed, home := f, dest := 0, gen := (e.gen + 1) % 65536 }).invalidate pg).count
    (R.PART_TIER_MOVE_CNT e.owner) 1

/-- A service move of a page out of a slot of die `d` takes the lowest free frame of stack 2d + (P mod 2), or is considered again at
the next window end (R324, R439). -/
def State.spillPage (s : State) (d : Nat) (pg : Nat) : State :=
  match s.stackFrame (2 * d + pg % 2) with
  | some f => s.serviceMove pg f
  | none => (s.defer d ⟨pg, 0, true⟩).count (R.PART_TIER_DEFER_CNT (s.ent pg).owner) 1

/-- Start one requested move of the engine of die `d`, or defer it. -/
def State.startMove (s : State) (d : Nat) (q : MoveReq) : State :=
  let e := s.ent q.page
  if q.service then (if e.st = .homed && !locIsStack e.home then s.spillPage d q.page else s)
  else if e.st = .free || e.pin || s.homedAt q.page q.top then s
  else if s.inMove q.page then s.hintIgnored e.owner
  else if locDie e.home != d then s.requestMove q
  else
    match s.moveDest q.page q.top with
    | none => (s.defer d q).count (R.PART_TIER_DEFER_CNT e.owner) 1
    | some f =>
      if locDie f != d && s.tiers.watom.contains q.page then s.defer d q
      else
        let s := ((s.reserve e.owner f).setEnt q.page { e with st := .copy, dest := f }).copyFrame e.owner e.home f
        { s with tiers := { s.tiers with moves := SMap.insert s.tiers.moves q.page ⟨d, []⟩ } }

/-- MOVE_START: the oldest request of the engine of die `d`, at most 16 moves at once (R324). -/
def execMoveStart (d : Fin 16) (s : State) : Host.Outcome State Fault Refusal :=
  .next
    (match SMap.get s.tiers.reqs [] d.val with
    | [] => s
    | q :: rest =>
      if 16 ≤ s.movesOf d.val then s
      else
        let s := { s with tiers := { s.tiers with reqs := SMap.set s.tiers.reqs [] d.val rest } }
        s.startMove d.val q)

/-- MOVE_SWITCH: a round copies the dirty lines and, being performed whole, leaves none, so the page goes into SWITCH (R319). -/
def execMoveSwitch (page : Nat) (s : State) : Host.Outcome State Fault Refusal :=
  let e := s.ent page
  .next (if e.st = .copy then (s.copyRound page).setEnt page { e with st := .switch } else s)

/-- The move of a page is no longer in progress. -/
def State.dropMove (s : State) (pg : Nat) : State :=
  { s with tiers := { s.tiers with moves := SMap.erase s.tiers.moves pg } }

/-- MOVE_COMMIT: the one directory write that changes the home (R314, R319). -/
def execMoveCommit (page : Nat) (s : State) : Host.Outcome State Fault Refusal :=
  let e := s.ent page
  .next
    (if e.st = .switch then
      let die := (SMap.get s.tiers.moves ⟨0, []⟩ page).die
      let s := ((s.copyRound page).setEnt page
        { e with st := .homed, home := e.dest, dest := 0, gen := (e.gen + 1) % 65536 }).dropMove page
      let s := (s.invalidate page).count (R.PART_TIER_MOVE_CNT e.owner) 1
      { s with tiers := { s.tiers with fwds := s.tiers.fwds ++ [⟨page, e.home, e.owner, die⟩] } }
    else s)

/-- MOVE_DONE. -/
def execMoveDone (page : Nat) (s : State) : Host.Outcome State Fault Refusal :=
  .next
    (match s.tiers.fwds.find? fun f => f.page = page with
    | some f =>
      let s := s.release f.part f.frame
      { s with tiers := { s.tiers with fwds := s.tiers.fwds.erase f } }
    | none => s)

/-- TAKE_FRAME_RELEASE. -/
def execTakeFrameRelease (frame : Nat) (s : State) : Host.Outcome State Fault Refusal :=
  .next
    (match s.tiers.claims.find? fun f => f.frame = frame with
    | some f =>
      let s := s.release f.part f.frame
      { s with tiers := { s.tiers with claims := s.tiers.claims.erase f } }
    | none => s)

/-! Resets during a move (R323). -/

/-- A move is abandoned before its commit. -/
def State.abandonMove (s : State) (pg : Nat) : State :=
  let e := s.ent pg
  if e.st = .copy || e.st = .switch then
    (((s.release e.owner e.dest).setEnt pg { e with st := .homed, dest := 0 }).dropMove pg).count
      (R.PART_TIER_ABANDON_CNT e.owner) 1
  else s

/-- A move restarts in COPY from line 0. -/
def State.restartMove (s : State) (pg : Nat) : State :=
  let e := s.ent pg
  if e.st = .copy || e.st = .switch then
    let s := (s.setEnt pg { e with st := .copy }).copyFrame e.owner e.home e.dest
    { s with tiers := { s.tiers with moves := SMap.insert s.tiers.moves pg ⟨locDie e.home, []⟩ } }
  else s

/-- The moves that have not committed, after a reset of the unit that holds the frames of which `unit` is true: abandoned
where it holds the destination, restarted where it holds the source. -/
def State.movesReset (s : State) (unit : Nat → Bool) : State :=
  s.each (s.tiers.moves.map (·.1)) fun s pg =>
    let e := s.ent pg
    if unit e.dest then s.abandonMove pg else if unit e.home then s.restartMove pg else s

/-- A reset of the Comet engine of a die. -/
def State.cometReset (s : State) (d : Nat) : State :=
  s.each ((s.tiers.moves.filter fun x => x.2.die = d).map (·.1)) State.abandonMove

end Sys2Proof.Machine
end

