-- ==== Sys2Proof/Machine/Cper.lean ====
section
/-! DEFINITION. Fault records as Lodestar writes and exports them (R442, R443, R445): the message of each kind, the section body
byte by byte, the CPER fields around it, and the resources that carry it. -/

namespace Sys2Proof.Machine

/-- The name of a Parallax class in its MessageId (R435). -/
def plxName (cls : Nat) : String :=
  if cls = 1 then "ParallaxNumeric" else if cls = 2 then "ParallaxTransient" else if cls = 3 then "ParallaxIntermittent"
  else if cls = 4 then "ParallaxPermanent" else "ParallaxUnresolved"

/-- The Redfish MessageId of a record (R442, Table: Record kinds). -/
def Fsr.messageId (r : Fsr) : String :=
  if r.kind = 1 then plxName r.cls
  else if r.kind = 2 then "SramSoftRepair"
  else if r.kind = 3 then "SramRepairExhausted"
  else if r.kind = 4 then "SramUncorrectable"
  else if r.kind = 5 then "StackUncorrectable"
  else if r.kind = 6 then "StackRemapped"
  else if r.kind = 7 then "StackChannelWear"
  else if r.kind = 8 then
    (if r.event = 0 then "SpanLaneReplaced" else if r.event = 1 then "SpanLinkDegraded" else "SpanLinkDown")
  else if r.kind = 9 then "SpanMoveLost"
  else if r.kind = 10 then "MeridianUnlocked"
  else if r.kind = 11 then "AlmanacSlotLost"
  else if r.kind = 12 then (if r.event = 0 then "CellFenced" else if r.event = 1 then "CellRejoined" else "CellRetired")
  else "PeerLost"

/-- A two's-complement number of `n` bytes, low byte first. -/
def leInt (n : Nat) (x : Int) : List Byte := leBytes n (x % (2 ^ (8 * n) : Nat)).toNat

/-- The flags of the program entry in a record (R443, FLAGS_P). -/
def AccEnt.flags (e : AccEnt) : Nat := bnat e.pinf + 2 * bnat e.ninf + 4 * bnat e.nanf + 8 * bnat e.sticky

/-- Bytes 48 to 135 of the section body, the Parallax fields, 0 for every other kind; then its captured bytes (R443). -/
def Plx.bytes (x : Plx) : List Byte :=
  leBytes 1 x.fmtA ++ leBytes 1 x.fmtB ++ leBytes 1 x.arr ++ leBytes 1 x.row ++ leBytes 4 x.k ++ leBytes 1 x.i ++ leBytes 1 x.j ++
    leInt 2 x.anch ++ leBytes 4 x.qmax ++ leBytes 8 x.vchk.toNat ++ leInt 48 x.entP.n ++ leBytes 1 x.entP.flags ++
    leBytes 1 x.outcome ++ leBytes 2 x.other ++ leBytes 4 x.crcA ++ leBytes 4 x.crcB ++ leBytes 2 x.capA.length ++
    leBytes 2 x.capB.length

/-- The captured bytes of a record: LEN_A of A, then LEN_B of B. -/
def Fsr.capture (r : Fsr) : List Byte :=
  match r.plx with
  | some x => x.capA ++ x.capB
  | none => []

/-- The section body of a record, little-endian (R443, Table: FSR section body). -/
def Fsr.body (r : Fsr) : List Byte :=
  leBytes 4 0x31525346 ++ leBytes 2 1 ++ leBytes 2 (144 + r.capture.length) ++ leBytes 8 r.panelId.toNat ++ leBytes 4 r.modId ++
    leBytes 4 r.fw ++ leBytes 8 r.time.toNat ++ leBytes 1 r.kind ++ leBytes 1 r.cls ++ leBytes 1 r.action ++ leBytes 1 r.part ++
    leBytes 4 (r.unit % 256 * 2 ^ 24 + Config.locBits r.kind r.loc % 2 ^ 24) ++ leBytes 8 r.step.toNat ++
    (match r.plx with
      | some x => x.bytes
      | none => List.replicate 88 0) ++ List.replicate 8 0 ++ r.capture

/-- A UEFI CPER record with one section, by the fields that R443 fills: the header, and the section's type and body. The UTC time
is in nanoseconds. -/
structure Cper where
  signature    : String
  revision     : Nat
  sections     : Nat
  severity     : Nat
  platformId   : Nat
  creatorId    : String
  recordId     : Nat
  timestamp    : Int
  precise      : Bool
  sectionType  : String
  body         : List Byte
  deriving DecidableEq, Repr

/-- A fault record as CPER (R443). -/
def Fsr.cper (r : Fsr) : Cper where
  signature := "CPER"
  revision := 0x0101
  sections := 1
  severity := r.sev
  platformId := r.panelId.toNat
  creatorId := "5a17f5a0-0000-4e57-8f3d-19a7c0de0000"
  recordId := r.recId
  timestamp := r.time.toNat + r.utc * 10 ^ 9
  precise := true
  sectionType := "5a17f5a0-0019-4e57-8f3d-19a7c0de0001"
  body := r.body

/-- A LogEntry resource of the LogService FaultLog (R445). -/
structure LogEntry where
  service  : String
  dataType : String
  data     : Cper
  deriving DecidableEq, Repr

/-- The LogEntry of a record. -/
def Fsr.logEntry (r : Fsr) : LogEntry := ⟨"FaultLog", "CPER", r.cper⟩

/-- The LogEntry resources that the Redfish service shows, oldest first (R445). -/
def State.faultLog (s : State) : List LogEntry := s.lode.log.map Fsr.logEntry

/-- The event of a record: its MessageId in the registry, and the record as DiagnosticData (R445). -/
def Fsr.faultEvent (r : Fsr) : FaultEvent := ⟨"StondalynFault.1.0.0", r.messageId, r⟩

end Sys2Proof.Machine
end

