-- ==== Sys2Proof/Machine/Wire.lean ====
section
/-! DEFINITION. The frames that the module sends, byte by byte (R245, R366-R371, R375, R377). The layouts of the Ethernet, IP, UDP,
ICMP, ARP and neighbour discovery headers are those of their standards (log entry 76). -/

namespace Sys2Proof.Machine

/-- A number of `n` bytes in network order. -/
def beBytes (n v : Nat) : List Byte := (leBytes n v).reverse

/-- The verdict record as its 256 bytes (R245, Table: Verdict record). -/
def recBytes (r : VerdictRec) : List Byte :=
  leBytes 8 r.verdict.toNat ++ leBytes 6 r.step ++ leBytes 2 r.group ++ leBytes 80 r.nsq ++
    leBytes 1 (r.inf.toNat + 2 * r.nan.toNat) ++ leBytes 3 0 ++ leBytes 4 r.mcount ++ leBytes 8 r.appMin ++ leBytes 8 r.appMax ++
    ((List.range 16).flatMap fun i => leBytes 4 (r.sent.getD i 0) ++ leBytes 4 (r.recv.getD i 0)) ++ leBytes 8 0

/-- The tensor subheader (R377, Table: Tensor subheader) and the payload of its frame. -/
def tensorBytes (t : TensorFrame) : List Byte :=
  leBytes 2 t.ent.val ++ [t.kind, t.fmt, t.grp, t.strm] ++ leBytes 2 0 ++ leBytes 6 t.step.toNat ++ leBytes 2 t.frames ++
    leBytes 2 t.fidx ++ leBytes 2 0 ++ leBytes 4 t.offset ++ leBytes 4 t.total ++ leBytes 4 t.stotal ++ t.data

/-- The payload of a RESP frame: the first one of a message begins with its header (R375). -/
def respBytes (f : TxFrame) : List Byte :=
  (if f.first then leBytes 1 f.status ++ leBytes 1 f.detail ++ leBytes 2 0 ++ leBytes 4 f.bytes else []) ++ f.data

/-- The fields of an ASTP header that differ from frame to frame (R371). -/
structure AstpHead where
  type    : Nat
  session : Nat
  part    : Nat
  flags   : Nat
  seq     : Nat
  ack     : Nat
  limit   : Nat
  msgid   : Nat

/-- An ASTP frame: the 32-byte header with its ACRC, and the payload (R371, Table: ASTP header). -/
def astpBytes (srcMod : BitVec 32) (h : AstpHead) (payload : List Byte) : List Byte :=
  let b := leBytes 2 0x5341 ++ leBytes 1 1 ++ leBytes 1 h.type ++ leBytes 2 h.session ++ leBytes 1 (h.part % 64) ++ leBytes 1 h.flags ++
    leBytes 4 h.seq ++ leBytes 4 h.ack ++ leBytes 4 h.limit ++ leBytes 2 payload.length ++ leBytes 2 h.msgid ++ leBytes 4 srcMod.toNat
  b ++ leBytes 4 (crc32c (b ++ payload)) ++ payload

/-- FLAGS: LAST, RETX and UE. -/
def astpFlags (last retx ue : Bool) : Nat := last.toNat + 2 * retx.toNat + 4 * ue.toNat

/-- The ASTP frame that a frame carries, with the number that its UDP source port takes its low 14 bits from (R369, R371). -/
def Frame.astp (srcMod : BitVec 32) : Frame → Option (Nat × List Byte)
  | .resp _ _ n p f k l =>
    let retx := match f.tries with
      | some k => decide (0 < k)
      | none => false
    some (n, astpBytes srcMod ⟨0x20, n, p, astpFlags f.last retx f.ue, f.seq, k, l, f.msgid.toNat⟩ (respBytes f))
  | .ack _ _ n p k l => some (n, astpBytes srcMod ⟨0x03, n, p, 0, 0, k, l, 0⟩ [])
  | .noSession _ _ n p m st =>
    some (n, astpBytes srcMod ⟨0x20, n, p, 1, 0, 0, 0, m.toNat⟩ (leBytes 1 st ++ leBytes 7 0))
  | .tensor _ p t =>
    some (t.ent.val, astpBytes srcMod ⟨0x30, 0, p, (decide (t.fidx + 1 = t.frames)).toNat, 0, 0, 0, 0⟩ (tensorBytes t))
  | .verdict _ p ent r => some (ent, astpBytes srcMod ⟨0x31, 0, p, 1, 0, 0, 0, 0⟩ (leBytes 2 ent ++ leBytes 6 0 ++ recBytes r))
  | .farewell _ p reason t =>
    some (0, astpBytes srcMod ⟨0x3F, 0, p, 1, 0, 0, 0, 0⟩ (leBytes 1 reason ++ leBytes 7 0 ++ leBytes 8 t.toNat))
  | _ => none

/-- The address that a frame goes to, where it goes to one. -/
def Frame.dst : Frame → Option IpAddr
  | .resp ip .. | .ack ip .. | .noSession ip .. | .tensor ip .. | .verdict ip .. | .farewell ip .. | .echo ip .. | .readResp ip ..
  | .roceAck ip .. | .roceNak ip .. => some ip
  | .arp .. | .neighbour .. | .arpAsk _ | .neighbourAsk _ | .delayReq _ => none

/-! Ethernet, IP and UDP. -/

/-- The bytes of an address. -/
def ipBytes (a : IpAddr) : List Byte := if a.v6 then beBytes 8 a.hi.toNat ++ beBytes 8 a.lo.toNat else beBytes 4 a.lo.toNat

/-- The sum of 16-bit words in network order. -/
def sum16 : List Byte → Nat
  | a :: b :: r => 256 * a.toNat + b.toNat + sum16 r
  | [a] => 256 * a.toNat
  | [] => 0

/-- The Internet checksum. -/
def inetSum (bs : List Byte) : Nat :=
  let n := sum16 bs
  0xFFFF - (if n = 0 then 0 else (n - 1) % 0xFFFF + 1)

/-- An IP packet: DSCP 0, not-ECT, TTL or hop limit 64, don't-fragment (R368). -/
def ipPacket (src dst : IpAddr) (proto : Nat) (body : List Byte) : List Byte :=
  if dst.v6 then beBytes 4 0x60000000 ++ beBytes 2 body.length ++ beBytes 1 proto ++ beBytes 1 64 ++ ipBytes src ++ ipBytes dst ++ body
  else
    let h := fun (c : Nat) => beBytes 2 0x4500 ++ beBytes 2 (20 + body.length) ++ beBytes 2 0 ++ beBytes 2 0x4000 ++ beBytes 1 64 ++
      beBytes 1 proto ++ beBytes 2 c ++ ipBytes src ++ ipBytes dst
    h (inetSum (h 0)) ++ body

/-- The pseudo-header that a checksum of the upper layer covers. -/
def pseudoHead (src dst : IpAddr) (proto n : Nat) : List Byte :=
  ipBytes src ++ ipBytes dst ++ (if dst.v6 then beBytes 4 n ++ beBytes 4 proto else beBytes 2 proto ++ beBytes 2 n)

/-- A UDP datagram with its checksum, in both IP versions (R369). -/
def udpBytes (src dst : IpAddr) (sport dport : Nat) (data : List Byte) : List Byte :=
  let h := fun (c : Nat) => beBytes 2 sport ++ beBytes 2 dport ++ beBytes 2 (8 + data.length) ++ beBytes 2 c
  let c := inetSum (pseudoHead src dst 17 (8 + data.length) ++ h 0 ++ data)
  h (if c = 0 then 0xFFFF else c) ++ data

/-- An ARP packet (R368): 1 a request, 2 an answer. -/
def arpBytes (op : Nat) (mac : BitVec 48) (ip : IpAddr) (dst : BitVec 48) (peer : IpAddr) : List Byte :=
  beBytes 2 1 ++ beBytes 2 0x0800 ++ beBytes 1 6 ++ beBytes 1 4 ++ beBytes 2 op ++ beBytes 6 mac.toNat ++ ipBytes ip ++
    beBytes 6 dst.toNat ++ ipBytes peer

/-- An ICMPv6 message with its checksum. -/
def icmp6Bytes (src dst : IpAddr) (type : Nat) (data : List Byte) : List Byte :=
  let h := fun (c : Nat) => beBytes 1 type ++ beBytes 1 0 ++ beBytes 2 c ++ data
  h (inetSum (pseudoHead src dst 58 (4 + data.length) ++ h 0))

/-- The solicited-node address of an IPv6 address. -/
def solicitedNode (a : IpAddr) : IpAddr :=
  ⟨true, 0xFF02000000000000, BitVec.ofNat 64 (0x1FF000000 + a.lo.toNat % 2 ^ 24)⟩

/-- The EtherType of a frame and what follows it; none for RoCEv2 packets and PTP messages, whose layouts the spec leaves to their
standards. -/
def Sent.body (x : Sent) : Option (Nat × List Byte) :=
  let ip := fun (peer : IpAddr) (p : List Byte) => some (if peer.v6 then 0x86DD else 0x0800, p)
  match x.frame with
  | .arp dst peer a => some (0x0806, arpBytes 2 x.mac a dst peer)
  | .arpAsk peer => some (0x0806, arpBytes 1 x.mac x.src 0 peer)
  | .neighbour _ peer a =>
    ip peer (ipPacket a peer 58 (icmp6Bytes a peer 136 (beBytes 4 0x60000000 ++ ipBytes a ++ beBytes 2 0x0201 ++ beBytes 6 x.mac.toNat)))
  | .neighbourAsk peer =>
    let g := solicitedNode peer
    ip peer (ipPacket x.src g 58 (icmp6Bytes x.src g 135 (beBytes 4 0 ++ ipBytes peer ++ beBytes 2 0x0101 ++ beBytes 6 x.mac.toNat)))
  | .echo peer a data =>
    if peer.v6 then ip peer (ipPacket a peer 58 (icmp6Bytes a peer 129 data))
    else
      let h := fun (c : Nat) => beBytes 2 0 ++ beBytes 2 c ++ data
      ip peer (ipPacket a peer 1 (h (inetSum (h 0))))
  | f =>
    match f.dst, f.astp x.srcMod with
    | some peer, some (n, b) => ip peer (ipPacket x.src peer 17 (udpBytes x.src peer (0xC000 + n % 2 ^ 14) x.udpPort b))
    | _, _ => none

/-- The bytes of a frame on the wire, padded to 64, with its FCS (R366, R367, R371). -/
def Sent.bytes (x : Sent) : Option (List Byte) :=
  x.body.map fun y =>
    let h := beBytes 6 (x.dst.getD 0).toNat ++ beBytes 6 x.mac.toNat ++
      (match x.tag with
        | some t => beBytes 2 0x8100 ++ beBytes 2 t
        | none => []) ++ beBytes 2 y.1 ++ y.2
    let p := h ++ List.replicate (60 - h.length) 0
    p ++ leBytes 4 (crc32 p)

/-- The bytes that a RoCEv2 packet or a PTP message has after the IP and UDP headers: transport headers, data and ICRC. -/
def Frame.foreignLen : Frame → Nat
  | .readResp _ _ _ d => 12 + 4 + (d.length + 3) / 4 * 4 + 4
  | .roceAck .. | .roceNak .. => 12 + 4 + 4
  | .delayReq _ => 44
  | _ => 0

/-- The length of a frame on the wire. -/
def Sent.wireLen (x : Sent) : Nat :=
  match x.bytes with
  | some b => b.length
  | none =>
    max 64 (14 + (if x.tag.isSome then 4 else 0) + (match x.frame.dst with
      | some ip => if ip.v6 then 40 else 20
      | none => 40) + 8 + x.frame.foreignLen + 4)

/-- The ICRC of a RoCEv2 packet that the responder sends (R379). -/
def Frame.icrc : Frame → Option (BitVec 32)
  | .readResp _ q n d => some (Config.icrc q n 0 d)
  | .roceAck _ q n => some (Config.icrc q n 0 [])
  | .roceNak _ q n y => some (Config.icrc q n y [])
  | _ => none

end Sys2Proof.Machine
end

