-- ==== Sys2Proof/Machine/Flow.lean ====
section
/-! DEFINITION. Frames leave the queues of the sub-ports (R366-R370, R385, R387, R402): their headers, the addresses that they need, and
the port time that slots leave to other traffic. -/

namespace Sys2Proof.Machine

/-- The MAC address that the module holds for an address (R368). -/
def State.macFor (s : State) (sub : SubPort) (ip : IpAddr) : Option (BitVec 48) :=
  (s.net.macs.find? fun m => m.sub = sub && m.ip = ip).map (·.mac)

/-- The address of a sub-port of an IP version. -/
def State.srcIp (s : State) (sub : SubPort) (v6 : Bool) : IpAddr :=
  if v6 then ⟨true, s.rd (R.HZN_ETH_IP6Hqk sub.h.val sub.q.val sub.k.val), s.rd (R.HZN_ETH_IP6Lqk sub.h.val sub.q.val sub.k.val)⟩
  else ⟨false, 0, s.ip4 sub⟩

/-- The destination MAC addresses of frames that go to no held one: a broadcast, the solicited-node group, and the PTP group of the
transport. PRESUMED (log entry 76): those of the standards. -/
def broadcastMac : BitVec 48 := 0xFFFFFFFFFFFF
def ndMac (ip : IpAddr) : BitVec 48 := BitVec.ofNat 48 (0x3333FF000000 + ip.lo.toNat % 2 ^ 24)
def ptpMac (transport : Nat) : BitVec 48 := if transport = 0 then 0x01005E000181 else if transport = 1 then 0x333300000181 else 0x011B19000000

/-- A frame with the headers that it leaves with (R367-R370). -/
def State.dress (s : State) (sub : SubPort) (f : Frame) : Sent :=
  let c := cfgOf sub
  { sub := sub
    dst := match f with
      | .arp d _ _ | .neighbour d _ _ => some d
      | .arpAsk _ => some broadcastMac
      | .neighbourAsk ip => some (ndMac ip)
      | .delayReq _ => some (ptpMac (s.rdF R.PANEL_PTP_CFG F.PANEL_PTP_CFG_TRANSPORT))
      | _ => f.dst.bind (s.macFor sub)
    mac := s.macOf sub
    tag := if s.rdF c F.HZN_ETH_CFGq_TAG = 1 then
        some (s.rdF c F.HZN_ETH_CFGq_PCP * 2 ^ 13 + s.rdF c F.HZN_ETH_CFGq_VID) else none
    src := s.srcIp sub (match f with
      | .neighbourAsk _ => true
      | .arpAsk _ => false
      | _ => f.dst.any (·.v6))
    udpPort := s.rdF R.PANEL_ASTP_CFG F.PANEL_ASTP_CFG_UDP_PORT
    srcMod := s.modId
    frame := f }

/-- Number of a sub-port in the module. -/
def subKey (sub : SubPort) : Nat := 32 * sub.h.val + 4 * sub.q.val + sub.k.val

/-- Nanoseconds that a frame takes on the wire with preamble and inter-frame gap. -/
def State.wireTime (s : State) (x : Sent) : Nat := cdiv (x.wireLen + 20) (portRate (s.rdF (cfgOf x.sub) F.HZN_ETH_CFGq_MODE))

/-- The time at which a sub-port has sent what it has started. -/
def State.busyTill (s : State) (sub : SubPort) : Nat := SMap.get s.net.busy 0 (subKey sub)

/-- A frame leaves through a sub-port (R387). -/
def State.emitFrame (s : State) (sub : SubPort) (f : Frame) : State :=
  let x := s.dress sub f
  let till := max (s.hnow sub.h.val) (s.busyTill sub) + s.wireTime x
  let s := s.count (R.HZN_ETH_TX_CNTqk sub.h.val sub.q.val sub.k.val) 1
  { s with net := { s.net with out := s.net.out ++ [x], busy := SMap.set s.net.busy 0 (subKey sub) till } }

/-! Port time (R402). -/

/-- Whether the slots of an entry keep other traffic that would run from `now` to `till` from its sub-port: one in progress, or one that
starts less than 40 ns after the frame has ended. A reserve slot at which nothing stands keeps none. -/
def State.slotKeeps (s : State) (q n now till : Nat) : Bool :=
  let t := s.ttActive q
  let e := s.entry q n
  let a := s.occAt q t now e
  let next := if now < a then a else a + 4 * s.rdF (R.PART_TT_CFGt q t) F.PART_TT_CFGt_PERIOD
  (e.kind = 0 || s.occupied q n) && ((decide (a ≤ now) && decide (now < e.slotEnd a)) || decide (next < till + slotSlack))

/-- Whether a frame of other traffic may start. -/
def State.portFree (s : State) (sub : SubPort) (now till : Nat) : Bool :=
  !s.clockOk || (List.range 64).all fun q => !s.ttValid q (s.ttActive q) || (s.ents q).all fun n =>
    !((s.entry q n).tx && decide ((s.entry q n).subPort = sub)) || !s.slotKeeps q n now till

/-- The end of the slot in which the frames of an action or chain leave. -/
def State.ownEnd (s : State) (p ent : Nat) : Option Nat :=
  match (s.allArmed p).find? fun x => x.2.ent = ent && x.2.began with
  | some x => some ((s.entryT p x.2.tt x.2.now).slotEnd (s.armedStart p x.2))
  | none => ((s.ttOf p).chains.find? fun c => c.ent = ent && !c.past).map fun c =>
      let e := s.entryT p c.tt c.now
      e.slotEnd (s.occAt p c.tt c.at_ e)

/-- Whether a frame starts now: its sub-port has link and its destination is known; one of a slot in its time, another when no slot keeps
the sub-port. -/
def State.mayStart (s : State) (q : Queued) : Bool :=
  let x := s.dress q.sub q.frame
  let now := s.hnow q.sub.h.val
  let till := now + s.wireTime x
  s.linkIs q.sub && x.dst.isSome && (match q.own with
    | some o => s.clockOk && decide (q.at_ ≤ now) && (s.ownEnd o.1 o.2).any fun e => decide (till + slotSlack ≤ e)
    | none => decide (s.busyTill q.sub ≤ now) && s.portFree q.sub now till)

/-- What keeps its order on a sub-port: the frames of one action, and those to one address. -/
def Queued.lane (q : Queued) : SubPort × Option (Nat × Nat) × Option IpAddr := (q.sub, q.own, q.frame.dst)

/-- The frames that wait start in their order, where they may. -/
def State.flow (s : State) : State :=
  let r := s.net.wait.foldl (fun (x : State × List Queued) q =>
    if !x.2.any (fun y => y.lane = q.lane) && x.1.mayStart q then (x.1.emitFrame q.sub q.frame, x.2) else (x.1, x.2 ++ [q])) (s, [])
  { r.1 with net := { r.1.net with wait := r.2 } }

/-! Addresses (R368). -/

/-- The addresses that frames of the module go to or will go to: those that wait, and the peers of armed sends and of verdict chains. -/
def State.wantedIps (s : State) : List (SubPort × IpAddr) :=
  let slots := (List.range 64).flatMap fun p =>
    if s.ttValid p (s.ttActive p) then
      ((((s.allArmed p).filter fun x => !x.2.recv && x.2.status.isNone).map (·.2.now)) ++ s.rounds p).map fun n =>
        ((s.entry p n).subPort, s.peerIp n (s.entry p n))
    else []
  ((s.net.wait.filterMap fun q => q.frame.dst.map fun ip => (q.sub, ip)) ++ slots).eraseDups

/-- The module asks once for each address that it wants and does not hold (log entry 77). -/
def State.resolveIps (s : State) : State :=
  s.each (s.wantedIps.filter fun x => s.linkIs x.1 && (s.macFor x.1 x.2).isNone && !s.net.asked.contains x) fun s x =>
    { s with net := { s.net with asked := s.net.asked ++ [x] } }.transmit x.1 (if x.2.v6 then .neighbourAsk x.2 else .arpAsk x.2)

end Sys2Proof.Machine
end

