-- ==== Sys2Proof/Machine/Plx.lean ====
section
/-! DEFINITION. The Parallax check: recomputation and comparison of sampled passes (R427-R433), classing (R434-R437), and the
fence that a class asks for (R439, R441). -/

namespace Sys2Proof.Machine

/-! Tolerance rows (R430, R432). -/

/-- The tolerance row of an operand format. -/
def tolRow (f : Nat) : Option Nat :=
  if f ≤ 3 || isTbl f then some 0
  else if f ≤ 7 then some 1
  else if f = 0x10 then some 2
  else if f = 0x11 then some 3
  else if f = 0x12 then some 4
  else none

/-- HARD and SOFT of a row. -/
def State.tolHard (s : State) (k : Nat) : Nat := fld (s.rd (R.PANEL_PLX_TOL0 + 8 * k)) 63 32
def State.tolSoft (s : State) (k : Nat) : Nat := fld (s.rd (R.PANEL_PLX_TOL0 + 8 * k)) 31 0

/-- The row of a pass: the operand row with the larger HARD, the lower row among equals; none for a wide tile and under
the INT32-compatible mode. -/
def State.passRow (s : State) (w : Pass) : Option Nat :=
  if w.wide || w.job.i32 then none
  else match tolRow w.a.fmt, tolRow w.b.fmt with
    | some i, some j =>
      if s.tolHard i < s.tolHard j then some j else if s.tolHard j < s.tolHard i then some i else some (min i j)
    | some i, none => some i
    | none, r => r

/-! Recomputation (R430). -/

/-- The recomputation of a pass that has a row: its bank, and whether a BF16 conversion saturated. -/
def State.recompute (s : State) (w : Pass) : Bank × Bool :=
  let ca := w.ctl false true
  let cb := w.ctl true true
  let lens := passIntervals w.job
  let la := s.passLines w false
  let lb := s.passLines w true
  let sa := ca.scan lens 0 none la
  let sb := cb.scan lens 0 none lb
  let qa := ca.lines sa la
  let qb := cb.lines sb lb
  let es := passEntries w ⟨0, false, false, lens, (arrDesc w.job false).red⟩ sa sb qa qb
  (bankOf' .exact es, linesSat qa + linesSat qb != 0)

/-- The worked entries of a pass, in the order of i, then j. -/
def workedEnts (w : Pass) : List Nat :=
  (List.range (arrDesc w.job false).lines).flatMap fun i => (List.range (arrDesc w.job true).lines).map fun j => 32 * i + j

/-- The largest score. -/
def qTop : Nat := 2 ^ 32 - 1

/-- The score of an entry (R431). -/
def scoreEnt (form : BankForm) (p c : AccEnt) : Nat :=
  if p.nanf != c.nanf || p.pinf != c.pinf || p.ninf != c.ninf then qTop
  else match entVal form p, entVal .exact c with
    | .fin a, .fin b =>
      let d := a.sub b
      min (shiftFl d.m.natAbs (d.e + (24 - p.anch))).1 qTop
    | _, _ => 0

/-- The score of an entry in a comparison bit for bit. -/
def sameEnt (p c : AccEnt) : Nat := if p = c then 0 else qTop

/-- The largest score of a tile and the first entry that has it (R431, R437). -/
def topScore (w : Pass) (f : Nat → Nat) : Nat × Nat :=
  (workedEnts w).foldl (fun b k => if b.1 < f k then (f k, k) else b) (0, 0)

/-- The byte ranges of a sample's operands. -/
def Sample.runs (t : Sample) : List Run := passRuns t.pass.job false ++ passRuns t.pass.job true

/-- Whether a check waits for a page of its operands that a move holds (R320). -/
def State.checkHeld (s : State) (t : Sample) : Bool := s.switching (pagesOf t.runs)

/-- Whether the operands that a check reads again are those of the record (R430): every line arrives, no word is uncorrectable, and
the CRC of every line agrees. -/
def State.recheck (s : State) (c : CellId) (t : Sample) : State × Bool :=
  let p := (s.cellPart c).getD t.part
  let x := (s.resolve (.cell c) (pagesOf t.runs)).travel c.die.val false t.runs
  let r := x.1.readChecked p t.runs
  match x.2.or r.2 with
  | some a => (r.1.uncorrectable p a, false)
  | none => (r.1, s.lineCrcs t.pass.job false = t.crcA && s.lineCrcs t.pass.job true = t.crcB)

/-- Check work ramps gated columns and counts its cc (R145, R146, R148). -/
def State.checkWork (s : State) (c : CellId) (w : Pass) : State :=
  let cc := if w.onDawn && w.rank != 0 && (s.passRow w).isNone then w.busy else ((passIntervals w.job).map fun n => cdiv n 8).sum
  ((s.ramp c .dawn).ramped c .dawn).count (R.CELL_DAWN_CHK_CC_CNT c) cc

/-- A check has ended, having stopped in favour of program work as often as a free value says (R145, R148). -/
def State.checkStopped (s : State) (c : CellId) : State :=
  let s := s.count (R.CELL_DAWN_CHK_PRE_CNT c) (Config.checkStops s.time.free)
  { s with time := { s.time with free := s.time.free + 1 } }

/-- A sample record of a cell. -/
def State.sampleOf (s : State) (c : CellId) (r : Nat) : Option Sample := SMap.get (s.cell c).samples none r

/-- Replace a sample record. -/
def State.setSample (s : State) (c : CellId) (r : Nat) (t : Option Sample) : State :=
  (s.setCell c { s.cell c with samples := SMap.set (s.cell c).samples none r t }).arrStat c

/-- MAXQ of a row takes the larger value (R433). -/
def State.maxq (s : State) (p k q : Nat) : State :=
  let a := R.PART_PLX_MAXQk p k
  s.wrF a F.PART_PLX_MAXQk_MAXQ (max (s.rdF a F.PART_PLX_MAXQk_MAXQ) q)

/-- A hard exceedance or a bitwise difference: PLX is raised and classing starts (R433). -/
def State.hardExceed (s : State) (c : CellId) (r : Nat) (t : Sample) (row : Nat) (q : Nat × Nat) (v : Val) : State :=
  let s := (s.count (R.PART_PLX_HARD_CNT t.part) 1).raise t.part vPLX
  let vchk := BitVec.ofNat 64 (convert ⟨0, 0, 0, 0, 0, 0⟩ false fmtFP64 v.toXR).bits
  s.setSample c r (some { t with phase := 2, row, qmax := q.1, qi := q.2 / 32, qj := q.2 % 32, vchk })

/-- A compared check (R431, R433). -/
def State.compareSample (s : State) (c : CellId) (r : Nat) (t : Sample) : State :=
  let w := t.pass
  let ent := fun (b : Bank) (k : Nat) => SMap.get b.ents AccEnt.zero k
  let s := s.count (R.PART_PLX_SAMPLE_CNT t.part) 1
  match s.passRow w with
  | none =>
    let b := (s.passOut w).bank
    let q := topScore w fun k => sameEnt (ent t.result k) (ent b k)
    if q.1 = 0 then s.setSample c r none else s.hardExceed c r t 0xFF q (entVal b.form (ent b q.2))
  | some row =>
    let x := s.recompute w
    let q := topScore w fun k => scoreEnt t.result.form (ent t.result k) (ent x.1 k)
    if q.1 ≤ s.tolSoft row then (s.maxq t.part row q.1).setSample c r none
    else if q.1 ≤ s.tolHard row then ((s.count (R.PART_PLX_SOFT_CNT t.part) 1).maxq t.part row q.1).setSample c r none
    else if t.drift || x.2 then
      ((s.count (R.PART_PLX_SOFT_CNT t.part) 1).count (R.PART_PLX_SATSOFT_CNT t.part) 1).setSample c r none
    else s.hardExceed c r t row q (entVal .exact (ent x.1 q.2))

/-- PARALLAX_CHECK_COMPARE (R430-R433). -/
def execParallaxCheckCompare (c : CellId) (r : Fin 2) (s : State) : Host.Outcome State Fault Refusal :=
  .next
    (match s.sampleOf c r.val with
    | none => s
    | some t =>
      if t.phase != 1 || s.checkHeld t then s
      else
        let s := s.checkWork c t.pass
        let x := s.recheck c t
        (if x.2 then x.1.compareSample c r.val t
        else (x.1.count (R.PART_PLX_STALE_CNT t.part) 1).setSample c r.val none).checkStopped c)

/-! Classing (R434-R437). -/

def plxNumeric : Nat := 1
def plxTransient : Nat := 2
def plxIntermittent : Nat := 3
def plxPermanent : Nat := 4
def plxUnresolved : Nat := 5

/-- The counter of a class. -/
def plxCounter (cls : Nat) : Nat :=
  if cls = plxNumeric then R.PANEL_PLX_NUM_CNT
  else if cls = plxTransient then R.PANEL_PLX_TRANS_CNT
  else if cls = plxIntermittent then R.PANEL_PLX_INTER_CNT
  else if cls = plxPermanent then R.PANEL_PLX_PERM_CNT
  else R.PANEL_PLX_UNRES_CNT

/-- The SPARE slots of a die, lowest first. -/
def State.spares (s : State) (d : Nat) : List CellId :=
  ((List.range 66).filterMap (mkCell d)).filter fun c => s.slotState c = 1

/-- AUTOSPARE (R441). -/
def State.autospare (s : State) : Bool := flag (s.rd R.MGMT_FLT_POLICY) 1

/-- The cell that repeats a pass of `c` (R434). -/
def State.otherCell (s : State) (c : CellId) : Option CellId :=
  match (s.spares c.die.val).filter (· != c) with
  | x :: _ => some x
  | [] => ((s.present ((s.cellPart c).getD 64)).filter fun x => x.die = c.die && x != c).head?

/-- What a record captures of a line: its first bytes and its scale bytes (R437). -/
def State.captureLine (s : State) (j : Job) (b : Bool) (l : Nat) : List Byte :=
  (s.lineBytes j.tabs (arrDesc j b) l).take 4096 ++ (s.lineScales (arrDesc j b) (arrScale j b) l).take 128

/-- A fence of a slot is queued unless one of that slot is (R439, R441). -/
def State.queueFence (s : State) (c : CellId) : State :=
  if s.fencing.any (·.cell = c) then s else { s with fencing := s.fencing ++ [⟨c, [], false⟩] }

/-- The fault is classed: record, counter, fence, and the sample record is free (R435-R437, R441). -/
def State.plxClass (s : State) (c : CellId) (r : Nat) (t : Sample) (cls outcome other : Nat) : State :=
  let w := t.pass
  let fence := cls = plxIntermittent || cls = plxPermanent
  let auto := flag (s.rd R.MGMT_FLT_POLICY) 0
  let action := if !fence then 1 else if !auto then 4 else if s.autospare && !(s.spares c.die.val).isEmpty then 2 else 3
  let sev := if fence then 0 else if cls = plxTransient then 2 else 3
  let e := SMap.get t.result.ents AccEnt.zero (32 * t.qi + t.qj)
  let plx : Plx := {
    fmtA := w.fmt false
    fmtB := w.fmt true
    arr := bnat w.onDawn
    row := t.row
    k := (arrDesc w.job false).red
    i := t.qi
    j := t.qj
    anch := e.anch
    qmax := t.qmax
    vchk := t.vchk
    entP := e
    outcome := outcome
    other := other
    crcA := t.crcA.getD t.qi 0
    crcB := t.crcB.getD t.qj 0
    capA := if fence then s.captureLine w.job false t.qi else []
    capB := if fence then s.captureLine w.job true t.qj else [] }
  let s := (s.fault 1 cls action t.part c.die.val [c.slot.val] sev (some plx)).count (plxCounter cls) 1
  let s := s.setSample c r none
  if fence && auto then s.queueFence c else s

/-- A replay that differs is TRANSIENT, or INTERMITTENT when it is the last of TRANS_LIMIT within 24 h (R435, R436). -/
def State.transient (s : State) (c : CellId) (r : Nat) (t : Sample) : State :=
  let now := s.time.ns.toNat
  let recent := ((s.cell c).trans.filter fun u => now ≤ u + dayNs) ++ [now]
  let lim := s.rdF R.MGMT_FLT_POLICY F.MGMT_FLT_POLICY_TRANS_LIMIT
  if lim != 0 && decide (lim ≤ recent.length) then s.plxClass c r t plxIntermittent 1 0
  else (s.setCell c { s.cell c with trans := recent }).plxClass c r t plxTransient 1 0

/-- PARALLAX_REPLAY: whether the suspect cell's repeat differs is the physical outcome. DESIGN CHOICE (log entry 79): the replay is no
check work of R145, and its cc count in no register. -/
def execParallaxReplay (c : CellId) (r : Fin 2) (differs : Bool) (s : State) : Host.Outcome State Fault Refusal :=
  .next
    (match s.sampleOf c r.val with
    | none => s
    | some t =>
      if t.phase != 2 || s.checkHeld t then s
      else
        let x := s.recheck c t
        if !x.2 then x.1.plxClass c r.val t plxUnresolved 4 0
        else if differs then x.1.transient c r.val t
        else if (x.1.otherCell c).isNone then x.1.plxClass c r.val t plxUnresolved 8 0
        else x.1.setSample c r.val (some { t with phase := 3 }))

/-- PARALLAX_OTHER_CELL. -/
def execParallaxOtherCell (c : CellId) (r : Fin 2) (differs : Bool) (s : State) : Host.Outcome State Fault Refusal :=
  .next
    (match s.sampleOf c r.val with
    | none => s
    | some t =>
      if t.phase != 3 || s.checkHeld t then s
      else
        match s.otherCell c with
        | none => s.plxClass c r.val t plxUnresolved 8 0
        | some o =>
          let other := o.die.val * 256 + o.slot.val
          let x := (s.checkWork o t.pass).recheck c t
          (if !x.2 then x.1.plxClass c r.val t plxUnresolved 4 other
          else if differs then x.1.plxClass c r.val t plxPermanent 2 other
          else x.1.plxClass c r.val t plxNumeric 0 other).checkStopped o)

end Sys2Proof.Machine
end

