-- ==== Sys2Proof/Machine/Sram.lean ====
section
/-! DEFINITION. Cell SRAM (R336-R353): the transparent background test with its soft repairs, escalations, port B
collisions and the write-back of corrected words. -/

namespace Sys2Proof.Machine

/-- State of spare `r` of bank `b` of a cell (0 FREE, 1 HARD, 2 SOFT, 3 BAD) (R350). -/
def State.spareSt (s : State) (c : CellId) (b r : Nat) : Nat := fld (s.rd (R.CELL_SRAM_RPRb_B c b)) (2 * r + 1) (2 * r)

/-- Set the state of a spare row. -/
def State.setSpareSt (s : State) (c : CellId) (b r st : Nat) : State :=
  let a := R.CELL_SRAM_RPRb_B c b
  s.wr a (fldPut (s.rd a) (2 * r + 1) (2 * r) st)

/-- The row that spare `r` of bank `b` names. -/
def State.spareRow (s : State) (c : CellId) (b r : Nat) : Nat := fld (s.rd (R.CELL_SRAM_RPRb_A c b)) (8 * r + 7) (8 * r)

/-- Set the row that a spare names. -/
def State.setSpareRow (s : State) (c : CellId) (b r row : Nat) : State :=
  let a := R.CELL_SRAM_RPRb_A c b
  s.wr a (fldPut (s.rd a) (8 * r + 7) (8 * r) row)

/-- The spare that replaces a row (R350). -/
def State.replacing (s : State) (c : CellId) (b row : Nat) : Option Nat :=
  (List.range 8).find? fun r =>
    (s.spareSt c b r = 1 || s.spareSt c b r = 2) && s.spareRow c b r = row

/-- The position after row `row` of bank `b` (R348): the bank's rows, then its spares FREE or BAD; none after the last bank. -/
def State.testNext (s : State) (c : CellId) (b row : Nat) : Option (Nat × Nat) :=
  if row < 255 then some (b, row + 1)
  else
    match (List.range 8).find? fun r => decide (row < 256 + r) && (s.spareSt c b r = 0 || s.spareSt c b r = 3) with
    | some r => some (b, 256 + r)
    | none => if b < 47 then some (b + 1, 0) else none

/-- Whether a word key lies in a row of a cell's bank. -/
def keyInRow (c : CellId) (b row k : Nat) : Bool :=
  locOwner (k / 8192) = some c && bankOf (keyOff k) = b && rowOf (keyOff k) = row

/-- The save phase of a row (R349): the tester reads its words into the shadow buffer. Corrected words count and are good in the
shadow, uncorrectable words count and keep their mark (R346). -/
def State.saveRow (s : State) (c : CellId) (b row : Nat) : State :=
  let s := s.correct ((s.ce.map (·.1)).filter (keyInRow c b row))
  let s := s.each (s.ue.filter (keyInRow c b row)) fun s k => s.spoilt (s.framePart (k / 8192)) [k]
  { s with ce := s.ce.filter fun k => !keyInRow c b row k.1 }

/-- BIST_ROW_START: the save phase of the row due (R349); a spare row holds no data to save. A requested full pass starts from bank 0,
row 0 (R352). -/
def execBistRowStart (c : CellId) (s : State) : Host.Outcome State Fault Refusal :=
  let ctl := R.CELL_BIST_CTL c
  let x := s.cell c
  let t := x.tester
  .next
    (if t.busy || s.rdF ctl F.CELL_BIST_CTL_EN = 0 || !s.pwr.ok then s
    else
      let t : Tester :=
        if s.rdF ctl F.CELL_BIST_CTL_FULL = 1 && !t.full then ⟨true, 0, 0, true, true, 0xFF⟩
        else ⟨true, t.bank, t.row, t.full, t.ok, if t.row < 256 then 0xFF else 0⟩
      let a := R.CELL_BIST_STAT c
      let s := if t.row < 256 then s.saveRow c t.bank t.row else s
      ((s.setCell c { x with tester := t }).wrF a F.CELL_BIST_STAT_BANK t.bank).wrF a F.CELL_BIST_STAT_ROW t.row)

/-- A spare that replaces a failing row becomes BAD (R351). -/
def State.dropSpare (s : State) (c : CellId) (b row : Nat) : State :=
  match s.replacing c b row with
  | some r => s.setSpareSt c b r 3
  | none => s

/-- A spare becomes SOFT for a row (R351). -/
def State.softRepair (s : State) (c : CellId) (b row r : Nat) : State :=
  (((s.setSpareRow c b r row).setSpareSt c b r 2).count (R.CELL_SRAM_RPR_CNT c) 1).fault 2 0 5 255 c.die.val
    [c.slot.val, b, row] 2 none

/-- The lowest FREE spare of a bank. -/
def State.freeSpare (s : State) (c : CellId) (b : Nat) : Option Nat := (List.range 8).find? fun r => s.spareSt c b r = 0

/-- A row, or the spare that replaces it, fails the march (R351). Answers whether the row has a working row or spare. -/
def State.repairRow (s : State) (c : CellId) (b row : Nat) : State × Bool :=
  let s1 := (s.count (R.CELL_BIST_FAIL_CNT c) 1).dropSpare c b row
  match s1.freeSpare c b with
  | some r => (s1.softRepair c b row r, true)
  | none => (s1.fault 3 0 4 255 c.die.val [c.slot.val, b, row] 0 none, false)

/-- A spare under test fails it: a FREE spare becomes BAD. -/
def State.failSpare (s : State) (c : CellId) (b r : Nat) : State :=
  (s.count (R.CELL_BIST_FAIL_CNT c) 1).setSpareSt c b r 3

/-- A pass of the tester ends (R348, R352). -/
def State.testPassEnd (s : State) (c : CellId) : State :=
  let t := (s.cell c).tester
  let a := R.CELL_BIST_STAT c
  let s := s.wrF a F.CELL_BIST_STAT_PASSES (s.rdF a F.CELL_BIST_STAT_PASSES + 1)
  let s :=
    if t.full then (s.wrF a F.CELL_BIST_STAT_FULL_OK (bnat t.ok)).wrF (R.CELL_BIST_CTL c) F.CELL_BIST_CTL_FULL 0 else s
  s.setCell c { s.cell c with tester := Tester.reset }

/-- BIST_ROW_DONE: the march has run, and the restore writes the words back, which ends their valid bits (R349, R351). -/
def execBistRowDone (c : CellId) (fails : Bool) (s : State) : Host.Outcome State Fault Refusal :=
  let t := (s.cell c).tester
  .next
    (if !t.busy then s
    else
      let (s, good) :=
        if !fails then (s, true)
        else if t.row < 256 then s.repairRow c t.bank t.row
        else (s.failSpare c t.bank (t.row - 256), true)
      let ok := t.ok && good
      match s.testNext c t.bank t.row with
      | some (b, row) => s.setCell c { s.cell c with tester := ⟨false, b, row, t.full, ok, 0⟩ }
      | none => (s.setCell c { s.cell c with tester := ⟨false, t.bank, t.row, t.full, ok, 0⟩ }).testPassEnd c)

/-- BIST_ESCALATE. -/
def execBistEscalate (c : CellId) (s : State) : Host.Outcome State Fault Refusal :=
  .next (if (s.cell c).tester.busy then s.count (R.CELL_SRAM_ESC_CNT c) 1 else s)

/-- ARB_ESCALATE. Masters 0 to 6; code 7 takes none here (R340). -/
def execArbEscalate (c : CellId) (m : Fin 8) (s : State) : Host.Outcome State Fault Refusal :=
  .next (if m.val < 7 then s.count (R.CELL_SRAM_ESC_CNT c) 1 else s)

/-- The word key of an 8-byte word of a cell's SRAM. -/
def cellWordKey (c : CellId) (word : Nat) : Nat := locCell c (word / 8192) * 8192 + word % 8192

/-- The line of a frame that a page in COPY or SWITCH is homed in is dirty (R319). -/
def State.dirtyFrame (s : State) (l line : Nat) : State :=
  s.each (s.dir.filter fun e => (e.2.st = .copy || e.2.st = .switch) && e.2.home = l) fun s e =>
    s.addDirty e.1 [line]

/-- Write one whole ECC word of a cell's SRAM: it is good afterwards (R346). -/
def State.writeWord (s : State) (c : CellId) (word : Nat) (v : W64) : State :=
  let k := cellWordKey c word
  let base := 8 * k
  let s := s.each (List.range 8) fun s i =>
    { s with bytes := SMap.set s.bytes 0 (base + i) (BitVec.ofNat 8 (bitsOf v.toNat (8 * i + 7) (8 * i))) }
  ({ s with
    ue := s.ue.filter (· != k)
    ce := s.ce.filter fun x => x.1 != k }).dirtyFrame (k / 8192) (k % 8192 / 8)

/-- Whether an 8-byte word of a cell lies in a dual-port bank (R337). -/
def dualPort (word : Nat) : Bool :=
  decide (8 * word < 0x600000) && (bankOf (8 * word) = 46 || bankOf (8 * word) = 47)

/-- PORT_B_COLLIDE: port A writes `a`; port B's write of `b` is refused, counted and issued again in the next cc. -/
def execPortBCollide (c : CellId) (word : Nat) (a b : W64) (s : State) : Host.Outcome State Fault Refusal :=
  .next
    (if dualPort word then ((s.writeWord c word a).count (R.CELL_SRAM_COLLIDE_CNT c) 1).writeWord c word b else s)

/-- BIST_FULL. -/
def execBistFull (pl : Plane) (c : CellId) (s : State) : Host.Outcome State Fault Refusal :=
  let a := R.CELL_BIST_CTL c
  .next (s.guarded pl a [failIf (pl != .mgmt) 4] (s.wrF a F.CELL_BIST_CTL_FULL 1))

/-- ECC_WRITEBACK. -/
def execEccWriteback (c : CellId) (word : Nat) (s : State) : Host.Outcome State Fault Refusal :=
  let k := cellWordKey c word
  .next { s with ce := s.ce.filter fun x => x.1 != k }

end Sys2Proof.Machine
end

