-- ==== Sys2Proof/Machine/Stack.lean ====
section
/-! DEFINITION. Waigon stacks (R354-R357): the scrub, and the remap of a channel onto a spare. -/

namespace Sys2Proof.Machine

/-- The key of line `line` of stack `n`. -/
def stackLineKey (n line : Nat) : Nat := 8192 * locStack n (line / 1024) + 8 * (line % 1024)

/-- Mark a word or line uncorrectable. -/
def State.markUe (s : State) (k : Nat) : State := { s with ue := insertNat k s.ue }

/-- STK_SCRUB: the controller reads a line and handles what it finds, an error that the line is known to hold or one that the
finding brings (R355). A line that is uncorrectable stays so until a write covers it. -/
def execStkScrub (n : Fin 32) (line : Nat) (f : LineFinding) (s : State) : Host.Outcome State Fault Refusal :=
  let l := locStack n.val (line / 1024)
  let ch := s.physChan n.val (chanOf l (line % 1024 * 64))
  let k := stackLineKey n.val line
  .next
    (if f = .uncorrectable || s.ue.any (markKey · = k) then (s.markUe k).stackUe (s.framePart l) n.val ch
    else if f = .onePin || s.ce.any (markKey ·.1 = k) then
      { s.stackCe n.val ch with ce := s.ce.filter fun x => markKey x.1 != k }
    else s)

/-! Channel map and spares (R356). -/

/-- The physical channels that serve logical channels. -/
def State.servingChans (s : State) (n : Nat) : List Nat := (List.range 128).map (s.physChan n)

/-- The spare channels of a stack in the order of their positions. -/
def State.spareChans (s : State) (n : Nat) : List Nat :=
  let m := s.servingChans n
  (List.range 136).filter fun c => !m.contains c

/-- State of spare position `r` (0 FREE, 1 RETIRED, 2 COPYING, 3 BAD). -/
def State.chanSt (s : State) (n r : Nat) : Nat := fld (s.rd (R.STK_SPARE n)) (2 * r + 1) (2 * r)

/-- Set the state of spare position `r`. -/
def State.setChanSt (s : State) (n r st : Nat) : State :=
  s.wr (R.STK_SPARE n) (fldPut (s.rd (R.STK_SPARE n)) (2 * r + 1) (2 * r) st)

/-- The lowest spare position in a state. -/
def State.spareIn (s : State) (n st : Nat) : Option Nat := (List.range 8).find? fun r => s.chanSt n r = st

/-- Logical channel `log` takes the spare at position `r`; the channel it leaves has state `st`, and the positions are
ranked again. -/
def State.swapChan (s : State) (n log r st : Nat) : State :=
  let sp := s.spareChans n
  let new := sp.getD r 0
  let old := s.physChan n log
  let a := R.STK_CHMAPj n (log / 8)
  let s1 := s.wr a (fldPut (s.rd a) (8 * (log % 8) + 7) (8 * (log % 8)) new)
  s1.each ((s1.spareChans n).zipIdx) fun t x =>
    t.setChanSt n x.2 (if x.1 = old then st else s.chanSt n (sp.idxOf x.1))

def remapIdle : Nat := 0
def remapCopying : Nat := 1
def remapDone : Nat := 2
def remapAborted : Nat := 3

/-- STATUS of a remap. -/
def State.remapSt (s : State) (n : Nat) : Nat := s.rdF (R.STK_REMAP_CTL n) F.STK_REMAP_CTL_STATUS

/-- Set STATUS and WHY of a remap. -/
def State.setRemap (s : State) (n st why : Nat) : State :=
  (s.wrF (R.STK_REMAP_CTL n) F.STK_REMAP_CTL_STATUS st).wrF (R.STK_REMAP_CTL n) F.STK_REMAP_CTL_WHY why

/-- STK_REMAP_GO. -/
def execStkRemapGo (pl : Plane) (n : Fin 32) (log : Fin 128) (s : State) : Host.Outcome State Fault Refusal :=
  let a := R.STK_REMAP_CTL n.val
  .next (s.guarded pl a [failIf (pl != .mgmt) 4, failIf (s.remapSt n.val = remapCopying) 6]
    (let s := s.wrF a F.STK_REMAP_CTL_LOG log.val
    match s.spareIn n.val 0 with
    | none => s.setRemap n.val remapAborted 1
    | some r => (s.setChanSt n.val r 2).setRemap n.val remapCopying 0))

/-- STK_REMAP_SWITCH. -/
def execStkRemapSwitch (n : Fin 32) (s : State) : Host.Outcome State Fault Refusal :=
  .next
    (if s.remapSt n.val = remapCopying then
      match s.spareIn n.val 2 with
      | some r =>
        let log := s.rdF (R.STK_REMAP_CTL n.val) F.STK_REMAP_CTL_LOG
        let old := s.physChan n.val log
        ((((s.swapChan n.val log r 1).setRemap n.val remapDone 0).count (R.STK_REMAP_CNT n.val) 1).measure 4
          (.remap n.val log)).fault 6 0 6 255 n.val [old] 2 none
      | none => s
    else s)

/-- A remap in progress ends without a switch (R357): the spare failed, or the controller was reset. -/
def State.remapAbort (s : State) (n : Nat) (byReset : Bool) : State :=
  if s.remapSt n = remapCopying then
    let s := match s.spareIn n 2 with
      | some r => s.setChanSt n r (if byReset then 0 else 3)
      | none => s
    s.setRemap n remapAborted (if byReset then 3 else 2)
  else s

/-- STK_REMAP_ABORT. -/
def execStkRemapAbort (n : Fin 32) (byReset : Bool) (s : State) : Host.Outcome State Fault Refusal :=
  .next (s.remapAbort n.val byReset)

end Sys2Proof.Machine
end

