-- ==== Sys2Proof/Machine/Service.lean ====
section
/-! DEFINITION. Fences and service points (R438-R440), the service commands and rejoin (R447, R448), and fault records: the
log, its flash copy, a partition's view and their export (R444-R446). -/

namespace Sys2Proof.Machine

/-! Farewells (R386). -/

/-- The entries of the module's current timetables with an action that stands at them, and the VXCH entries of its verdict
chains. -/
def State.armedEnts (s : State) (p : Nat) : List Nat :=
  if s.ttValid p (s.ttActive p) then
    (((s.allArmed p).filter fun x => x.2.tt = s.ttActive p && x.2.status.isNone).map (·.2.now) ++ s.rounds p).eraseDups
  else []

/-- FAREWELL frames to every peer that the armed entries of partitions `ps` name, once on each sub-port: they leave before what follows. -/
def State.farewells (s : State) (ps : List Nat) (reason : Nat) : State :=
  if s.modId = 0 then s
  else
    let l := ps.flatMap fun p => (s.armedEnts p).map fun ent =>
      let e := s.entry p ent
      (p, e.subPort, s.peerIp ent e)
    s.each (l.eraseDups.filter fun x => s.linkIs x.2.1) fun s x => s.emitFrame x.2.1 (.farewell x.2.2 x.1 reason s.time.ns)

/-- Whether a fence takes a cell out of its partition's timetable. -/
def State.inTimetable (s : State) (c : CellId) (p : Nat) : Bool :=
  s.ttValid p (s.ttActive p) && (s.ents p).any fun n =>
    let e := s.entry p n
    (e.action = actSend || e.action = actRecv || e.action = actRadd) && e.cell = s.relative c

/-! Fences (R438, R439). -/

/-- The service point of a partition (R438). -/
def State.servicePoint (s : State) (p : Nat) : Bool :=
  ((s.present p).all fun c => s.runState c = stIdle || (s.runState c = stStopped && (s.cell c).unretired.isEmpty)) &&
    (s.zphase p = 0 || s.zphase p = 2)

/-- Registers of a cell that a spare receives with its context (R439). -/
def cellCtlRegs (c : CellId) : List Nat :=
  [R.CELL_SEQ_STAT c, R.CELL_CONV_CTL c, R.CELL_TBL_CFG c, R.CELL_TBL0_LO c, R.CELL_TBL0_HI c, R.CELL_TBL1_LO c, R.CELL_TBL1_HI c,
    R.CELL_TBL2_LO c, R.CELL_TBL2_HI c, R.CELL_TBL3_LO c, R.CELL_TBL3_HI c, R.CELL_DUSK_STAT c, R.CELL_DUSK_CTL c,
    R.CELL_DAWN_STAT c, R.CELL_DAWN_CTL c, R.CELL_DBG_SEL c]

/-- A spare receives the context and control registers of a fenced slot (R439). -/
def State.copyCell (s : State) (c d : CellId) : State :=
  let x := s.cell c
  let y := s.cell d
  let s := s.setCell d { x with samples := [], line := none, held := none, tester := y.tester, passes := y.passes, trans := y.trans }
  (s.each ((cellCtlRegs c).zip (cellCtlRegs d)) fun s r => s.wr r.2 (s.rd r.1)).wake d

/-- Frames of a slot that no directory entry names as a home: old frames of moves and claimed frames go with the slot. -/
def State.dropOldFrames (s : State) (c : CellId) : State :=
  let mine := fun (f : Nat) => locOwner f = some c
  let s := s.each (s.tiers.fwds.filter fun f => mine f.frame) fun s f => s.release f.part f.frame
  let s := s.each (s.tiers.claims.filter fun f => mine f.frame) fun s f => s.release f.part f.frame
  { s with tiers := { s.tiers with
    fwds := s.tiers.fwds.filter fun f => !mine f.frame
    claims := s.tiers.claims.filter fun f => !mine f.frame } }

/-- Moves in progress with a frame of the slot are abandoned. -/
def State.abandonAt (s : State) (c : CellId) : State :=
  let mine := fun (f : Nat) => locOwner f = some c
  s.each ((s.tiers.moves.map (·.1)).filter fun pg => mine (s.ent pg).home || mine (s.ent pg).dest) State.abandonMove

/-- The pages homed in a slot. -/
def State.pagesAt (s : State) (c : CellId) : List Nat :=
  (s.dir.filter fun x => x.2.st != .free && locOwner x.2.home = some c).map (·.1)

/-- The pages of a slot move to the frames of the same numbers of its spare. -/
def State.movePages (s : State) (c d : CellId) : State :=
  s.each (s.pagesAt c) fun s pg => s.serviceMove pg (locCell d 0 + ((s.ent pg).home - locCell c 0))

/-- The pages of a slot move to the lowest free frames of a stack of its die. -/
def State.spillPages (s : State) (c : CellId) : State :=
  s.each (s.pagesAt c) fun s pg => s.spillPage c.die.val pg

/-- SVC_STAT and M4 after a FENCE command for this slot has been carried out (R447, R480). -/
def State.svcDone (s : State) (c : CellId) : State :=
  let v := s.rd R.MGMT_SVC_CMD
  if s.rdF R.MGMT_SVC_STAT F.MGMT_SVC_STAT_STATE = 1 && fld v 15 8 = c.die.val && fld v 7 0 = c.slot.val then
    (s.wrF R.MGMT_SVC_STAT F.MGMT_SVC_STAT_STATE 2).measure 4 (.service 1 c.die.val c.slot.val)
  else s

/-- Steps 3 and 4 of a fence (R439): a spare takes the slot's place and the cells that the fence stopped resume, or the
logical cell becomes absent and the partition stays STOPPED. -/
def State.performFence (s : State) (p : Option Nat) (f : Fence) : State :=
  let c := f.cell
  let l := s.logical c
  let s := ((s.abandonAt c).dropOldFrames c)
  let s := { s with fencing := s.fencing.filter (·.cell != c) }
  let s :=
    match (if s.autospare then (s.spares c.die.val).head? else none) with
    | some d =>
      let s := (((s.copyCell c d).movePages c d).setSlot c slotFenced noLogical none).activate d l
      match p with
      | some q =>
        if flag (s.rd (R.PART_NAN_TRAP0 q)) 63 then s
        else
          s.each ((s.present q).filter fun k => s.resumable k && !f.before.contains (if k = d then c else k)) State.resumeCell
      | none => s
    | none =>
      let q := p.getD 64
      let s := if s.inTimetable c q then s.farewells [q] 2 else s
      ((s.spillPages c).setBacking l none).setSlot c slotFenced noLogical none
  (s.slotRecord c slotFencedEvent (p.getD 255)).svcDone c

/-- A queued fence of slot `c` is marked as begun. -/
def startFence (c : CellId) (before : List CellId) (g : Fence) : Fence := if g.cell = c then ⟨c, before, true⟩ else g

/-- SLOT_FENCE: the oldest fence of the slot that waits begins (R439): the partition stops. A fence of a slot that no
partition owns needs no service point. -/
def execSlotFence (c : CellId) (s : State) : Host.Outcome State Fault Refusal :=
  .next
    (match s.fencing.find? (·.cell = c) with
    | none => s
    | some f =>
      if f.started then s
      else if s.slotState c != slotActive then { s with fencing := s.fencing.filter (·.cell != c) }
      else
        match s.cellPart c with
        | none => s.performFence none f
        | some p =>
          if s.fencing.any fun g => g.started && s.cellPart g.cell = some p then s
          else
            let before := (s.present p).filter fun k => s.runState k = stStopped
            ({ s with fencing := s.fencing.map (startFence c before) }).requestStop p causeHost)

/-- SERVICE_POINT: the fence that waits for the service point of the partition is performed (R438, R439). -/
def execServicePoint (p : Fin 64) (s : State) : Host.Outcome State Fault Refusal :=
  .next
    (match s.fencing.find? fun f => f.started && s.cellPart f.cell = some p.val with
    | some f => if s.servicePoint p.val then s.performFence (some p.val) f else s
    | none => s)

/-! Service commands (R447, R448). -/

def svcFence : Nat := 1
def svcRejoin : Nat := 2
def svcRetire : Nat := 3
def svcFuseCommit : Nat := 4

/-- SVC_STAT shows a state and a reason. -/
def State.svcStat (s : State) (st why : Nat) : State :=
  (s.wrF R.MGMT_SVC_STAT F.MGMT_SVC_STAT_STATE st).wrF R.MGMT_SVC_STAT F.MGMT_SVC_STAT_WHY why

/-- A service command is accepted when none is busy (R447); it is recorded in SVC_CMD, and an action that is performed
extends M4 (R480). -/
def State.service (s : State) (pl : Plane) (cmd die slot : Nat) (eff : State → State) : State :=
  let s1 := s.wr R.MGMT_SVC_CMD (BitVec.ofNat 64 (cmd * 2 ^ 56 + die * 2 ^ 8 + slot))
  s.guarded pl R.MGMT_SVC_CMD [failIf (s.rdF R.MGMT_SVC_STAT F.MGMT_SVC_STAT_STATE = 1) 6] (eff s1)

/-- An action that is performed extends M4 and ends done. -/
def State.svcPerformed (s : State) (cmd die slot : Nat) : State := (s.measure 4 (.service cmd die slot)).svcStat 2 0

/-- SVC_FENCE. -/
def execSvcFence (pl : Plane) (c : CellId) (s : State) : Host.Outcome State Fault Refusal :=
  .next (s.service pl svcFence c.die.val c.slot.val fun s =>
    let st := s.slotState c
    if st = slotActive then (s.svcStat 1 0).queueFence c
    else if st = slotSpare then
      ((s.setSlot c slotFenced noLogical none).slotRecord c slotFencedEvent 255).svcPerformed svcFence c.die.val c.slot.val
    else s.svcStat 3 1)

/-- SVC_RETIRE. -/
def execSvcRetire (pl : Plane) (c : CellId) (s : State) : Host.Outcome State Fault Refusal :=
  .next (s.service pl svcRetire c.die.val c.slot.val fun s =>
    let st := s.slotState c
    if st = slotFenced || st = slotSpare then
      ((s.setSlot c slotRetired noLogical none).slotRecord c slotRetiredEvent 255).svcPerformed svcRetire c.die.val c.slot.val
    else s.svcStat 3 1)

/-- SVC_REJOIN: the outcomes of the full test and of the self-test are physical facts. -/
def execSvcRejoin (pl : Plane) (c : CellId) (sramOk selfOk : Bool) (s : State) : Host.Outcome State Fault Refusal :=
  .next (s.service pl svcRejoin c.die.val c.slot.val fun s =>
    if s.slotState c != slotFenced then s.svcStat 3 1
    else
      let s := s.wrF (R.CELL_BIST_STAT c) F.CELL_BIST_STAT_PASSES (s.rdF (R.CELL_BIST_STAT c) F.CELL_BIST_STAT_PASSES + 1)
      let s := s.wrF (R.CELL_BIST_STAT c) F.CELL_BIST_STAT_FULL_OK (bnat sramOk)
      if !sramOk then s.svcStat 3 2
      else if !selfOk then s.svcStat 3 3
      else
        let s := (((s.parkCell c).setSlot c slotSpare noLogical none).slotRecord c slotRejoinedEvent 255).svcPerformed svcRejoin
          c.die.val c.slot.val
        if s.autospare && !(s.absent c.die.val).isEmpty then { s with rejoined := s.rejoined ++ [c] } else s)

/-- The repair maps of a die's cells with every SOFT spare HARD, the LMAP backing and the RETIRED slots (R448), by register. -/
def State.fuseWords (s : State) (d : Nat) : List (Nat × W64) :=
  let lo := 0x10000000 + d * 0x00800000
  let isRpr := fun (a : Nat) => decide (lo ≤ a) && decide (a < lo + 0x00800000) && decide (0xA00 ≤ a % 0x10000) && decide (a % 0x10000 < 0xD00)
  let hard := fun (v : W64) => (List.range 8).foldl (fun (x : W64) r =>
    let st := fld x (2 * r + 1) (2 * r)
    fldPut x (2 * r + 1) (2 * r) (if st = 2 then 1 else if st = 3 then 0 else st)) v
  let rpr := (s.csr.filter fun x => isRpr x.1).map fun x => (x.1, if x.1 / 8 % 2 = 1 then hard x.2 else x.2)
  let lmap := (List.range 8).map fun j => (R.DIE_LMAPj d j, s.rd (R.DIE_LMAPj d j))
  let gone := (List.range 3).map fun k =>
    let a := R.DIE_SLOT_STATE0 d + 8 * k
    (a, (List.range 32).foldl (fun (x : W64) i => if fld (s.rd a) (2 * i + 1) (2 * i) = 3 then fldPut x (2 * i + 1) (2 * i) 3 else x) 0)
  rpr ++ lmap ++ gone

/-- Burn fuse words, each whole (R448). -/
def State.burn (s : State) (ws : List (Nat × W64)) : State :=
  { s with lode := { s.lode with fuses := ws.foldl (fun m x => SMap.insert m x.1 x.2) s.lode.fuses } }

/-- SVC_FUSE_COMMIT: whether every fuse write succeeds is a physical fact. `stop` is the number of words that hold their new value
when a write fails; the others keep their old value. -/
def execSvcFuseCommit (pl : Plane) (d : Fin 16) (stop : Option Nat) (s : State) : Host.Outcome State Fault Refusal :=
  .next (s.service pl svcFuseCommit d.val 0 fun s =>
    match stop with
    | some n => (s.burn ((s.fuseWords d.val).take n)).svcStat 3 4
    | none => (s.burn (s.fuseWords d.val)).svcPerformed svcFuseCommit d.val 0)

/-- REJOIN_BACKING: without a committed timetable, once every present cell of the owner is IDLE; with one, when a LAUNCH event of
the active timetable is due, and the backing comes before it (R448). -/
def execRejoinBacking (c : CellId) (s : State) : Host.Outcome State Fault Refusal :=
  .next
    (if !s.rejoined.contains c then s
    else
      match s.rejoinPart c with
      | none => s.rejoinBack c
      | some p =>
        let launch := (s.ents p).any fun e =>
          (s.entry p e).action = actLaunch && decide (s.occStart p (s.entry p e) = s.time.ns.toNat)
        if flag (s.rd (R.PART_TT_CTL p)) (4 + s.ttActive p) then (if launch then s.rejoinBack c else s)
        else if (s.present p).all fun k => s.runState k = stIdle then s.rejoinBack c
        else s)

/-! Fault records (R443-R446). -/

/-- Records that the log and the flash copy hold (R444). -/
def logLen : Nat := 4096
def flashLen : Nat := 256

/-- Make room in the log: the oldest informational record is dropped, else the oldest (R444). -/
def makeRoom (l : List Fsr) : List Fsr :=
  if l.length < logLen then l
  else match l.findIdx? fun r => r.sev = 3 with
    | some i => l.eraseIdx i
    | none => l.drop 1

/-- A partition's fault view (R446). -/
def State.faultView (s : State) (r : Fsr) : State :=
  if r.part < 64 then
    s.wr (R.PART_FLT_LAST r.part)
      (BitVec.ofNat 64 (r.kind * 2 ^ 56 + r.cls * 2 ^ 52 + r.action * 2 ^ 40 + r.recId % 2 ^ 32))
  else s

/-- FSR_WRITE: Lodestar writes the oldest record that waits. -/
def execFsrWrite (s : State) : Host.Outcome State Fault Refusal :=
  .next
    (match s.fsrPend with
    | [] => s
    | r :: rest =>
      if !s.lode.up then s
      else
        let id := s.lode.records + 1
        let r : Fsr := { r with
          recId := id
          panelId := s.rd R.PANEL_ID
          modId := (s.rd R.PANEL_MOD_ID).toNat % 2 ^ 32
          fw := s.rdF R.MGMT_FW_STAT F.MGMT_FW_STAT_FW_RUN }
        let room := makeRoom s.lode.log
        let s := s.count R.PANEL_FLT_DROP_CNT (s.lode.log.length - room.length)
        let flash := s.lode.flash ++ [r]
        ({ s with
          fsrPend := rest
          lode := { s.lode with
            records := id
            log := room ++ [r]
            flash := flash.drop (flash.length - flashLen) } }).faultView r)

/-- The next record of a subscriber: the oldest one after the last it is done with. -/
def State.nextRecord (s : State) (n : Nat) : Option Fsr :=
  s.lode.log.find? fun r => (SMap.get s.lode.subs ⟨0, none⟩ n).last < r.recId

/-- A subscriber. -/
def State.setSub (s : State) (n : Nat) (x : Subscriber) : State :=
  { s with lode := { s.lode with subs := SMap.set s.lode.subs ⟨0, none⟩ n x } }

/-- A record reaches a subscriber. -/
def State.deliver (s : State) (n : Nat) (r : Fsr) : State :=
  let s := s.setSub n ⟨r.recId, none⟩
  { s with lode := { s.lode with sent := s.lode.sent ++ [(n, r.faultEvent)] } }

/-- FSR_EXPORT. -/
def execFsrExport (subscriber : Fin 10) (s : State) : Host.Outcome State Fault Refusal :=
  .next
    (match s.nextRecord subscriber.val with
    | some r => if s.lode.up then s.deliver subscriber.val r else s
    | none => s)

/-- One hour in nanoseconds. -/
def hourNs : Nat := 3600 * 10 ^ 9

/-- FSR_PUSH_RETRY: a retry that reaches the subscriber delivers; after an hour of failures the record is given up. -/
def execFsrPushRetry (subscriber : Fin 8) (reached : Bool) (s : State) : Host.Outcome State Fault Refusal :=
  let n := subscriber.val
  let x := SMap.get s.lode.subs ⟨0, none⟩ n
  let now := s.time.ns.toNat
  .next
    (match s.nextRecord n with
    | none => s
    | some r =>
      if !s.lode.up then s
      else if reached then s.deliver n r
      else
        match x.since with
        | none => s.setSub n { x with since := some now }
        | some t => if t + hourNs ≤ now then s.setSub n ⟨r.recId, none⟩ else s)

end Sys2Proof.Machine
end

