-- ==== Sys2Proof/Machine/Boot.lean ====
section
/-! DEFINITION. Power and throttling (R451-R457, R491), start-up (R458-R460), clocks of cells (R463, R464) and resets
(R465-R467). -/

namespace Sys2Proof.Machine

/-! Module resets and the main rails. -/

/-- What a cell keeps through every reset: the times of its TRANSIENT records, which stay in the log (R436, R444). -/
def keptCells (m : SMap CellCtx) : SMap CellCtx :=
  m.foldl (fun l x => SMap.set l .reset x.1 { CellCtx.reset with trans := (SMap.get m .reset x.1).trans }) []

/-- Every unit takes its reset values and loses its contents; Lodestar, its registers and its log stay, and so does what
has left the module (R465). The power mode takes its default (R1). A service command in progress fails. -/
def State.unitsReset (s : State) : State :=
  let s := if s.rdF R.MGMT_SVC_STAT F.MGMT_SVC_STAT_STATE = 1 then s.svcStat 3 0 else s
  { State.reset with
    pending := s.pending
    csr := s.csr.filter fun x => decide (mgmtBase ≤ x.1) && x.1 != R.MGMT_PWR_CFG
    cells := keptCells s.cells
    fsrPend := s.fsrPend
    net := { NetSt.reset with out := s.net.out }
    time := ⟨0, 0, 0, 0, [], s.time.free⟩
    lode := s.lode
    pwr := s.pwr }

/-- The main rails turn off: PWR_OK is negated, and every unit starts again from reset (R449). -/
def State.railsOff (s : State) : State :=
  let t := s.unitsReset
  { t with pwr := { t.pwr with ok := false, alert := false, low := 0, pairs := false } }

/-- BOOT_STAT shows a phase, a cause of failure and an item. -/
def State.setPhase (s : State) (ph fail item : Nat) : State :=
  let a := R.MGMT_BOOT_STAT
  ((s.wrF a F.MGMT_BOOT_STAT_PHASE ph).wrF a F.MGMT_BOOT_STAT_FAIL fail).wrF a F.MGMT_BOOT_STAT_ITEM item

def failFw : Nat := 1
def failRail : Nat := 2
def failFuse : Nat := 3
def failConfig : Nat := 4
def failStack : Nat := 5
def failThermal : Nat := 6

/-- Start-up fails, or a thermal trip (R456, R460). -/
def State.failBoot (s : State) (cause item : Nat) : State :=
  let s := s.railsOff.setPhase phFailed cause item
  { s with pwr := { s.pwr with fault := true } }

/-- A failed module starts again (R460). -/
def State.restartFailed (s : State) : State :=
  let s := s.setPhase phOff 0 0
  { s with pwr := { s.pwr with fault := false } }

/-! Power (R452-R457). -/

/-- The terms of the effective cap in mW: the limit, the operator's cap, and the current term (R453). -/
def limitMw : Nat := 17500000
def State.capMw (s : State) : Nat :=
  if flag (s.rd R.MGMT_PWR_CFG) 16 then 1000 * s.rdF R.MGMT_PWR_CFG F.MGMT_PWR_CFG_CAP else limitMw
def iLim (m : PowerMeas) : Nat := if 0 < m.maA && 0 < m.maB then 380 else 190

/-- What one sample finds. -/
structure Sampled where
  eff   : Nat
  ilim  : Bool
  oper  : Bool
  fast  : Bool
  slow  : Bool
  under : Bool
  deriving DecidableEq, Repr

/-- The conditions of R453 and R454 at a sample. -/
def State.sampled (s : State) (m : PowerMeas) : Sampled :=
  let cur := iLim m * m.mv
  let cap := s.capMw
  let eff := min limitMw (min cap cur)
  let opened := s.pwr.pairs && !(decide (0 < m.maA) && decide (0 < m.maB))
  { eff := eff
    ilim := decide (cur < min limitMw cap)
    oper := decide (cap < limitMw) && decide (cap ≤ cur)
    fast := decide ((iLim m + 10) * 1000 < m.maA + m.maB) || decide (200000 < m.maA) || decide (200000 < m.maB) ||
      decide (105 * eff < 100 * m.mw) || opened
    slow := decide (eff < m.mw) || decide (950 < m.tj)
    under := decide (100 * m.mw < 97 * eff) }

/-- POWER_SAMPLE. -/
def execPowerSample (m : PowerMeas) (s : State) : Host.Outcome State Fault Refusal :=
  .next
    (if !s.pwr.ok then s
    else
      let x := s.sampled m
      let a := R.PANEL_PWR_STAT
      let fs := s.rdF a F.PANEL_PWR_STAT_FSTEP
      let low := if x.under then min (s.pwr.low + 1) 10 else 0
      let fs' := if x.fast then min (fs + 8) 35 else if x.slow then min (fs + 1) 35
        else if low = 10 && decide (m.tj ≤ 930) then fs - 1 else fs
      let s := s.count R.PANEL_THR_FAST_CNT (bnat x.fast)
      let s := s.count R.PANEL_THR_CNT (bnat (decide (0 < fs')))
      let s := ((s.wrF a F.PANEL_PWR_STAT_PIN (m.mw / 1000)).wrF a F.PANEL_PWR_STAT_PEFF (x.eff / 1000)).wrF a
        F.PANEL_PWR_STAT_VIN (m.mv / 250)
      let s := ((s.wrF a F.PANEL_PWR_STAT_FSTEP fs').wrF a F.PANEL_PWR_STAT_THERM (bnat (decide (950 < m.tj)))).wrF a
        F.PANEL_PWR_STAT_ILIM (bnat x.ilim)
      { s with pwr := { s.pwr with
        alert := (decide (0 < fs') && !x.oper) || decide (950 < m.tj) || decide (60000 < m.mv)
        low := low
        pairs := decide (0 < m.maA) && decide (0 < m.maB) } })

/-- THERMAL_TRIP. -/
def execThermalTrip (s : State) : Host.Outcome State Fault Refusal :=
  .next (if s.pwr.ok then s.failBoot failThermal 0 else s)

/-- INPUT_LOSS: everything but flash and fuses is lost (R444, R452, R465). -/
def execInputLoss (s : State) : Host.Outcome State Fault Refusal :=
  .next
    (if !s.pwr.input then s
    else
      let t := s.railsOff
      { t with
        csr := []
        fsrPend := []
        lode := { t.lode with up := false, loaded := false, meas := [], log := [] }
        pwr := { Pwr.reset with input := false, en := t.pwr.en } })

/-- INPUT_RESTORE: a cold start follows, from ROM. -/
def execInputRestore (s : State) : Host.Outcome State Fault Refusal :=
  .next (if s.pwr.input then s else { s with pwr := { s.pwr with input := true } })

/-- PWR_EN_RISE. -/
def execPwrEnRise (s : State) : Host.Outcome State Fault Refusal :=
  let t := { s with pwr := { s.pwr with en := true } }
  .next (if s.pwr.en then s else if s.phase = phFailed then t.restartFailed else t)

/-- Every partition. -/
def allParts : List Nat := List.range 64

/-- PWR_EN_FALL: from READY the module powers down in order; start-up is abandoned without farewells (R466). -/
def execPwrEnFall (s : State) : Host.Outcome State Fault Refusal :=
  let t := { s with pwr := { s.pwr with en := false } }
  .next
    (if !s.pwr.en then s
    else if s.phase = phReady then (t.farewells allParts 1).railsOff.setPhase phOff 0 0
    else if s.phase = phFailed then t
    else t.railsOff.setPhase phOff 0 0)

/-- PWR_CFG_WRITE. -/
def execPwrCfgWrite (pl : Plane) (v : W64) (s : State) : Host.Outcome State Fault Refusal :=
  let a := R.MGMT_PWR_CFG
  .next (s.guarded pl a (roLow a v [failIf (decide (fld v 15 0 < 4000) || decide (17500 < fld v 15 0)) 7])
    ((s.putReg pl a v).wrF R.PANEL_PWR_STAT F.PANEL_PWR_STAT_MODE (fld v 16 16)))

/-! Start-up (R458-R460). Each command is a whole phase: it needs the phase before it to be complete. -/

/-- STARTUP_ROM. -/
def execStartupRom (s : State) : Host.Outcome State Fault Refusal :=
  .next
    (if !s.pwr.input || s.lode.up || s.phase != phOff then s
    else
      match s.bootFrom s.bootSlot with
      | some t => t.setPhase (if s.pwr.en then phRom else phOff) 0 0
      | none => ((s.checkSlot false).checkSlot true).failBoot failFw 0)

/-- STARTUP_RAILS. -/
def execStartupRails (regulated inputsAgree : Bool) (s : State) : Host.Outcome State Fault Refusal :=
  .next
    (if !s.pwr.input || !s.lode.up || !s.pwr.en || !(s.phase = phOff || s.phase = phRom) then s
    else
      let s := { s with pwr := { s.pwr with fs := 0 } }.wrF R.MGMT_BOOT_STAT F.MGMT_BOOT_STAT_MS 0
      if !inputsAgree || !regulated then s.failBoot failRail 0
      else ({ s with pwr := { s.pwr with ok := true } }).setPhase phRails 0 0)

/-- The backing that a die's fuses hold: as shipped, rank k in slot k. -/
def State.fuseLmap (s : State) (d j : Nat) : W64 :=
  SMap.get s.lode.fuses (BitVec.ofNat 64 (((List.range 8).map fun i => (128 + 8 * j + i) * 2 ^ (8 * i)).sum)) (R.DIE_LMAPj d j)

/-- The logical cell that a slot backs under the fuses. -/
def State.fuseRank (s : State) (c : CellId) : Option Nat :=
  (List.range 64).find? fun k => fld (s.fuseLmap c.die.val (k / 8)) (8 * (k % 8) + 7) (8 * (k % 8)) = 128 + c.slot.val

/-- The state of a slot under the fuses: RETIRED where burned so, ACTIVE where it backs a cell, else SPARE. -/
def State.fuseState (s : State) (c : CellId) : Nat :=
  if fld (SMap.get s.lode.fuses 0 (slotReg c)) (slotFld c).1 (slotFld c).2 = slotRetired then slotRetired
  else if (s.fuseRank c).isSome then slotActive
  else slotSpare

/-- The registers of a slot load from fuses. -/
def State.loadSlot (s : State) (c : CellId) : State :=
  let st := s.fuseState c
  let l := if st = slotActive then 64 * c.die.val + (s.fuseRank c).getD 0 else noLogical
  ((s.wr (R.CELL_ID c) (BitVec.ofNat 64 (st * 2 ^ 32 + l * 2 ^ 16 + c.slot.val * 2 ^ 8 + c.die.val))).wrF (slotReg c) (slotFld c)
    st).tally st true

/-- A compute die loads its fuses. -/
def State.loadDie (s : State) (d : Nat) : State :=
  let s := s.each (List.range 8) fun s j => s.wr (R.DIE_LMAPj d j) (s.fuseLmap d j)
  let s := s.each ((List.range 66).filterMap (mkCell d)) State.loadSlot
  s.each (List.range 2) fun s k => s.each (List.range 16) fun s j =>
    s.wr (R.STK_CHMAPj (2 * d + k) j) (BitVec.ofNat 64 (((List.range 8).map fun i => (8 * j + i) * 2 ^ (8 * i)).sum))

/-- A Horizon die loads the MAC addresses of its sub-ports. -/
def State.loadHzn (s : State) (h : Nat) : State :=
  s.each (List.range 8) fun s q => s.each (List.range 4) fun s k =>
    s.wr (R.HZN_ETH_MACqk h q k) (BitVec.ofNat 64 (4 * (8 * h + q) + k))

/-- The repair maps of SRAM load from fuses (R350). -/
def State.loadRepairs (s : State) : State :=
  s.each (s.lode.fuses.filter fun x => decide (0x10000000 ≤ x.1) && decide (x.1 < 0x20000000)) fun s x => s.wr x.1 x.2

/-- STARTUP_FUSES. -/
def execStartupFuses (wordsOk : Bool) (item : Byte) (s : State) : Host.Outcome State Fault Refusal :=
  .next
    (if s.phase != phRails then s
    else if !wordsOk then s.failBoot failFuse item.toNat
    else
      let s := (s.each (List.range 16) State.loadDie).each (List.range 4) State.loadHzn
      let s := { s with lode := { s.lode with loaded := true } }.showFuses
      (s.loadRepairs.measure 3 (.fuses s.lode.fuses)).setPhase phFuses 0 0)

/-- STARTUP_CONFIG. -/
def execStartupConfig (s : State) : Host.Outcome State Fault Refusal :=
  .next
    (if s.phase != phFuses then s
    else
      match s.lode.newest with
      | some c => ((s.loadCfg c).measure 2 (.config c)).setPhase phConfig 0 0
      | none => s.failBoot failConfig 0)

/-- A channel that fails training: a spare takes its place and it becomes BAD (R459). Answers whether the stack keeps 128
working channels. -/
def State.badChannel (s : State) (n ch : Nat) : State × Bool :=
  match (List.range 128).find? fun l => s.physChan n l = ch with
  | some l =>
    (match s.spareIn n 0 with
    | some r => (s.swapChan n l r 3, true)
    | none => (s, false))
  | none => (s.setChanSt n ((s.spareChans n).idxOf ch) 3, true)

/-- Train the stacks: the state, and the lowest stack with too few channels. -/
def State.trainStacks (s : State) (failed : List (Fin 32 × Fin 136)) : State × Option Nat :=
  failed.foldl (fun x f =>
    let r := x.1.badChannel f.1.val f.2.val
    (r.1, if r.2 then x.2 else some (match x.2 with
      | some k => min k f.1.val
      | none => f.1.val))) (s, none)

/-- STARTUP_STACKS: which channels fail is a physical fact. -/
def execStartupStacks (failed : List (Fin 32 × Fin 136)) (s : State) : Host.Outcome State Fault Refusal :=
  .next
    (if s.phase != phConfig then s
    else
      match s.trainStacks failed.eraseDups with
      | (t, none) => t.setPhase phStacks 0 0
      | (t, some n) => t.failBoot failStack n)

/-- The cell slot that a register belongs to. -/
def cellOfReg (a : Nat) : Option CellId :=
  match csrBlock a with
  | some (.cell, k, _) => mkCell (k / 128) (k % 128)
  | _ => none

/-- Whether the phase CELLS releases a slot: FENCED and RETIRED ones are not released (R459). -/
def State.released (s : State) (c : CellId) : Bool := s.slotState c = slotActive || s.slotState c = slotSpare

/-- Released slots clear their SRAM with valid ECC, and their registers take their reset values: IDLE, with the clock stopped (R459). What
fuses hold stays: CELL.ID and the repair maps. -/
def State.releaseCells (s : State) : State :=
  let out := fun (o : Option CellId) => o.any s.released
  let t := { s with
    csr := s.csr.filter fun x => !out (cellOfReg x.1) || (cellOfReg x.1).any fun c => x.1 = R.CELL_ID c
    cells := s.cells.filter fun x => !out (mkCell (x.1 / 66) (x.1 % 66))
    bytes := s.bytes.filter fun x => !out (locOwner (x.1 / 65536))
    ue := s.ue.filter fun k => !out (locOwner (k / 8192))
    ce := s.ce.filter fun x => !out (locOwner (x.1 / 8192)) }
  (t.each ((s.cells.filter fun x => !x.2.trans.isEmpty).filterMap fun x => mkCell (x.1 / 66) (x.1 % 66)) fun t c =>
    t.setCell c { t.cell c with trans := (s.cell c).trans }).loadRepairs

/-- STARTUP_CELLS. -/
def execStartupCells (s : State) : Host.Outcome State Fault Refusal :=
  .next (if s.phase = phStacks then s.releaseCells.setPhase phCells 0 0 else s)

/-- STARTUP_LINKS. -/
def execStartupLinks (up : List SubPort) (s : State) : Host.Outcome State Fault Refusal :=
  .next
    (if s.phase != phCells then s
    else (s.each (up.filter s.subEnabled) fun s x => s.setSubBit x F.HZN_ETH_STATq_UP true).setPhase phLinks 0 0)

/-- STARTUP_TIME: PTP runs. -/
def execStartupTime (s : State) : Host.Outcome State Fault Refusal :=
  .next (if s.phase = phLinks then s.setPhase phTime 0 0 else s)

/-- STARTUP_READY: NOTIME where the clock is not LOCKED. -/
def execStartupReady (s : State) : Host.Outcome State Fault Refusal :=
  .next
    (if s.phase = phTime then
      (s.setPhase phReady 0 0).wrF R.MGMT_BOOT_STAT F.MGMT_BOOT_STAT_NOTIME (bnat (s.merState != merLocked))
    else s)

/-- FW_BOOT_TIMEOUT: Lodestar restarts on the other slot (R473). -/
def execFwBootTimeout (s : State) : Host.Outcome State Fault Refusal :=
  let b := !s.runSlot
  .next
    (if !s.lode.up then s
    else
      let t := (s.count R.MGMT_FW_FAIL_CNT 1).checkSlot b
      match (if s.slotOk b then s.lode.img b else none) with
      | some i => t.runImage b true i
      | none =>
        let t := t.failBoot failFw 0
        { t with lode := { t.lode with up := false } })

/-! Clocks of cells (R463, R464). -/

/-- Whether the stop condition of a cell's core clock holds (R463). -/
def State.clockIdle (s : State) (c : CellId) : Bool :=
  let x := s.cell c
  let st := s.runState c
  (st = stIdle || st = stWaitBar || st = stWaitTime) && x.unretired.isEmpty && s.rdF (R.CELL_DUSK_STAT c) colsFld = 0 &&
    s.rdF (R.CELL_DAWN_STAT c) colsFld = 0 && (List.range 2).all fun r => (SMap.get x.samples none r).isNone

/-- CELL_CLOCK_STOP. -/
def execCellClockStop (c : CellId) (s : State) : Host.Outcome State Fault Refusal :=
  .next
    (if 4096 ≤ (s.cell c).idle && s.clockIdle c then s.wrF (R.CELL_CLK_STAT c) F.CELL_CLK_STAT_RUN 0 else s)

/-- CELL_WAKE: a wake request reaches a cell. -/
def execCellWake (c : CellId) (s : State) : Host.Outcome State Fault Refusal := .next (s.wake c)

/-! Resets (R465-R467). -/

/-- A reset command from the management plane; RST_STAT shows it done. -/
def State.resetCmd (s : State) (pl : Plane) (fails : List (Option Nat)) (eff : State) : State :=
  s.guarded pl R.MGMT_RST_CMD (failIf (s.rdF R.MGMT_RST_STAT F.MGMT_RST_STAT_STATE = 1) 6 :: fails)
    (eff.wrF R.MGMT_RST_STAT F.MGMT_RST_STAT_STATE 2)

/-- The module continues after a MODULE reset: from FUSES with its rails up, from standby or a failure as R460 says. -/
def State.afterReset (s : State) : State :=
  if s.pwr.ok then (s.setPhase phRails 0 0).wrF R.MGMT_BOOT_STAT F.MGMT_BOOT_STAT_NOTIME 0
  else if s.phase = phFailed then s.restartFailed
  else s

/-- RESET_MODULE. -/
def execResetModule (pl : Plane) (s : State) : Host.Outcome State Fault Refusal :=
  .next (s.resetCmd pl [] (s.farewells allParts 0).unitsReset.afterReset)

/-- RESET_MODULE_ABRUPT. -/
def execResetModuleAbrupt (pl : Plane) (s : State) : Host.Outcome State Fault Refusal :=
  .next (s.resetCmd pl [] s.unitsReset.afterReset)

/-- RESET_CELL. -/
def execResetCell (pl : Plane) (c : CellId) (s : State) : Host.Outcome State Fault Refusal :=
  let st := s.slotState c
  .next (s.resetCmd pl [failIf (st != slotFenced && st != slotSpare) 6] ((s.cellReset c).movesReset fun f => locOwner f = some c))

/-- RESET_STACK_CTL. -/
def execResetStackCtl (pl : Plane) (n : Fin 32) (s : State) : Host.Outcome State Fault Refusal :=
  .next (s.resetCmd pl [] ((s.remapAbort n.val true).movesReset fun f => locIsStack f && locStackNo f = n.val))

/-- RESET_COMET. -/
def execResetComet (pl : Plane) (d : Fin 16) (s : State) : Host.Outcome State Fault Refusal :=
  .next (s.resetCmd pl [] (s.cometReset d.val))

/-- RESET_SPAN_PORT. -/
def execResetSpanPort (pl : Plane) (sp : SpanPort) (s : State) : Host.Outcome State Fault Refusal :=
  .next (s.resetCmd pl [] (s.retrain sp [] []))

/-- RESET_ETH_SUB. -/
def execResetEthSub (pl : Plane) (sub : SubPort) (s : State) : Host.Outcome State Fault Refusal :=
  .next (s.resetCmd pl [] (s.subReset sub))

/-- RESET_HZN_MAC. -/
def execResetHznMac (pl : Plane) (h : Fin 4) (s : State) : Host.Outcome State Fault Refusal :=
  .next (s.resetCmd pl [] (s.each (List.finRange 8) fun s q => s.portReset h q))

end Sys2Proof.Machine
end

