-- ==== Sys2Proof/Machine/HostMem.lean ====
section
/-! DEFINITION. Host accesses to the tensor range (R317, R329-R331, R375): WRITE, PEEK and TAKE. -/

namespace Sys2Proof.Machine

/-- Status codes of a RESP (R376). -/
def stOk : Nat := 0
def stNotReady : Nat := 1
def stEmpty : Nat := 2
def stConflict : Nat := 3
def stRights : Nat := 4
def stQuota : Nat := 5
def stFormat : Nat := 6
def stBusy : Nat := 7
def stBind : Nat := 8
def stRefused : Nat := 9
def stNoSession : Nat := 10
def stBadMsg : Nat := 11
def stViolation : Nat := 12

/-- What a message answers: its status and detail, its data, and the ranges of the data that come from uncorrectable
lines. -/
structure Resp where
  status : Nat
  detail : Nat
  data   : List Byte
  ues    : List Run

/-- An answer without data. -/
def Resp.bare (st : Nat) : Resp := ⟨st, 0, [], []⟩

/-- Whether every page of a byte range lies in a partition's rights. -/
def State.hostRights (s : State) (p a n : Nat) : Bool := (runPages (a, n)).all (s.pageOk p)

/-- A host write (R317, R375): answers why it is refused before any byte is written, or the state after it. -/
def State.hostWrite (s : State) (p a : Nat) (bs : List Byte) : Nat × State :=
  if !s.hostRights p a bs.length then (stRights, s)
  else
    match s.allocateAll .host p (runPages (a, bs.length)) with
    | some t => (stOk, (t.hostResolve (runPages (a, bs.length))).write .host p a bs)
    | none => (stQuota, s)

/-- The 64-byte lines that hold `n` bytes from address `a`, as one range. -/
def lineRun (a n : Nat) : Run := if n = 0 then (a, 0) else (a / 64 * 64, (a + n - 1) / 64 * 64 + 64 - a / 64 * 64)

/-- The ranges of `n` bytes from address `a` that lie in uncorrectable 64-byte lines, relative to `a` (R329). -/
def State.ueRanges (s : State) (a n : Nat) : List Run :=
  ((s.marked s.ue [lineRun a n]).map fun h => h.2 / 64 * 64).eraseDups.map fun l =>
    (max l a - a, min (l + 64) (a + n) - max l a)

/-- The check of a PEEK or TAKE (R329): gated, FREE, or performed. -/
def State.hostCheck (s : State) (p a n : Nat) : Nat :=
  let pgs := runPages (a, n)
  if !s.hostRights p a n then stRights
  else if pgs.any (s.gated p) then stNotReady
  else if pgs.any s.isFree then stEmpty
  else stOk

/-- The bytes of a range, with the counts, latches and records of the errors in their 64-byte lines; no verdict bit (R329). -/
def State.hostRead (s : State) (p a n : Nat) : State × Resp :=
  (((s.hostResolve (runPages (a, n))).readChecked p [lineRun a n]).1, ⟨stOk, 0, s.bytesAt a n, s.ueRanges a n⟩)

/-- A PEEK (R329). -/
def State.peek (s : State) (p a n : Nat) : State × Resp :=
  let k := s.hostCheck p a n
  if k = stOk then s.hostRead p a n
  else if k = stNotReady then (s.count (R.PART_TIER_NOTREADY_CNT p) 1, .bare k)
  else (s, .bare k)

/-- A TAKE (R330): its pages are claimed and stream as they stood at the claim. -/
def State.take (s : State) (p a n : Nat) : State × Resp :=
  let r := s.peek p a n
  if r.2.status = stOk then (r.1.claim (runPages (a, n)), r.2) else r

/-- Whether a TAKE waits for a move of one of its pages (R320). -/
def State.takeWaits (s : State) (a n : Nat) : Bool := (runPages (a, n)).any s.inMove

/-- Whether a host access is held by a page in SWITCH (R320). -/
def State.hostHeld (s : State) (a n : Nat) : Bool := s.switching (runPages (a, n))

end Sys2Proof.Machine
end

