-- ==== Sys2Proof/Machine/Roce.lean ====
section
/-! DEFINITION. The RoCEv2 responder (R379-R384) and its tables (R420, R421). -/

namespace Sys2Proof.Machine

/-! Queue pairs and regions. -/

/-- Address of word `w` of queue pair `i` and of region `i` (R420). -/
def qpAddr (i w : Nat) : Nat := R.PANEL_QPi_W0 i + 8 * w
def mrAddr (i w : Nat) : Nat := R.PANEL_MRr_W0 i + 8 * w

/-- Owner of a queue pair. -/
def State.qpPart (s : State) (i : Nat) : Nat := s.rdF (qpAddr i 0) F.PANEL_QPi_W0_PART

/-- Path MTU of a queue pair in bytes. -/
def State.qpMtu (s : State) (i : Nat) : Nat := 1024 * 2 ^ s.rdF (qpAddr i 0) F.PANEL_QPi_W0_MTU

/-- Expected PSN of a queue pair. -/
def State.epsn (s : State) (i : Nat) : Nat := s.rdF (qpAddr i 0) F.PANEL_QPi_W0_EPSN

/-- Advance the expected PSN by `n` packets, modulo 2²⁴. -/
def State.stepPsn (s : State) (i n : Nat) : State := s.wrF (qpAddr i 0) F.PANEL_QPi_W0_EPSN ((s.epsn i + n) % 2 ^ 24)

/-- Requester QP number. -/
def State.dqpn (s : State) (i : Nat) : Nat := s.rdF (qpAddr i 0) F.PANEL_QPi_W0_DQPN

/-- Packets of a message of `n` bytes. -/
def packets (mtu n : Nat) : Nat := max 1 (cdiv n mtu)

/-- Pieces of a message, one per packet. -/
def pieces (mtu : Nat) (bs : List Byte) : List (List Byte) := if bs.isEmpty then [[]] else chunks mtu bs.length bs

/-- NAK syndromes and the RNR syndrome. PRESUMED (log entry 42): as IBTA encodes them. -/
def nakPsn : Nat := 0x60
def nakInvalid : Nat := 0x61
def nakAccess : Nat := 0x62
def nakOperational : Nat := 0x63
def nakRnr : Nat := 0x20

/-- Address of the requester of a queue pair. -/
def State.qpIp (s : State) (i : Nat) : IpAddr :=
  if s.rdF (qpAddr i 0) F.PANEL_QPi_W0_V6 = 1 then ⟨true, s.rd (qpAddr i 2), s.rd (qpAddr i 1)⟩
  else ⟨false, 0, s.rd (qpAddr i 1) &&& 0xFFFFFFFF⟩

/-- A NAK leaves (R379-R383). -/
def State.nak (s : State) (sub : SubPort) (i psn syn : Nat) : State :=
  (s.transmit sub (.roceNak (s.qpIp i) (s.dqpn i) psn syn)).count R.PANEL_ROCE_NAK_CNT 1

/-- An acknowledgement leaves (R382, R384). -/
def State.roceAck (s : State) (sub : SubPort) (i psn : Nat) : State := s.transmit sub (.roceAck (s.qpIp i) (s.dqpn i) psn)

/-- Packets that one acknowledgement covers at most (R384). -/
def ackEvery : Nat := 16

/-- Acknowledge `n` packets from PSN `psn` (R384): every 16th packet, and the last one of a message that is done (log entry 42). -/
def State.roceAcks (s : State) (sub : SubPort) (i psn n : Nat) (done : Bool) : State :=
  let s := s.each (List.range (n / ackEvery)) fun s k => s.roceAck sub i ((psn + ackEvery * (k + 1) - 1) % 2 ^ 24)
  if done && n % ackEvery != 0 then s.roceAck sub i ((psn + n - 1) % 2 ^ 24) else s

/-- Where a request's PSN stands (R384): 0 expected, 1 a duplicate, 2 ahead of the expected one. -/
def State.psnPlace (s : State) (i psn : Nat) : Nat :=
  let d := (s.epsn i + 2 ^ 24 - psn % 2 ^ 24) % 2 ^ 24
  if d = 0 then 0 else if d ≤ 2 ^ 23 then 1 else 2

/-- A request of `n` packets that reaches the responder (R379, R387, R459): discarded before READY, ignored where the port does not
accept RoCEv2 or the queue pair is not in RTS, answered with a NAK where its PSN is ahead; else `eff` of the state and of whether
it is a duplicate. -/
def State.roceRequest (s : State) (sub : SubPort) (i psn n : Nat) (eff : State → Bool → State) : State :=
  if !s.linkIs sub then s
  else if !s.ready then s.dropFrames sub n
  else if s.rdF (cfgOf sub) F.HZN_ETH_CFGq_ROCE != 1 then s
  else
    let s := s.received sub n
    if s.rdF (qpAddr i 0) F.PANEL_QPi_W0_STATE != 1 then s
    else
      match s.psnPlace i psn with
      | 0 => eff s false
      | 1 => eff s true
      | _ => s.nak sub i (s.epsn i) nakPsn

/-- Whether a key, range and right check (R380): bit 0 of `right` read, bit 1 write. -/
def State.keyOk (s : State) (i : Nat) (key : BitVec 32) (addr len right : Nat) : Bool :=
  let r := key.toNat % 2 ^ 20
  let w := s.rd (mrAddr r 0)
  let base := (s.rd (mrAddr r 1)).toNat
  decide (r < 4096) && fld w 63 62 = 1 && fld w 43 32 = key.toNat / 2 ^ 20 && fld w 61 56 = s.qpPart i &&
    (fld w 55 54).testBit right && decide (base ≤ addr) && decide (addr + len ≤ base + (s.rd (mrAddr r 2)).toNat)

/-- The READ response packets of a range, up to the packet that would carry an uncorrectable line (R381). -/
def State.readPackets (s : State) (i addr len : Nat) : Nat × Bool :=
  let mtu := s.qpMtu i
  match (s.ueRanges addr len).map (·.1) |>.min? with
  | some o => (o / mtu, true)
  | none => (packets mtu len, false)

/-- Serve a READ whose range checks. -/
def State.serveRead (s : State) (sub : SubPort) (i psn addr len : Nat) (dup : Bool) : State :=
  let mtu := s.qpMtu i
  let r := s.readPackets i addr len
  let n := if r.2 then min len ((r.1 + 1) * mtu) else len
  let s1 := ((s.hostResolve (runPages (addr, n))).readChecked (s.qpPart i) [lineRun addr n]).1
  let s2 := s1.each (List.range r.1) fun t k =>
    t.transmit sub (.readResp (s.qpIp i) (s.dqpn i) ((psn + k) % 2 ^ 24) (s.bytesAt (addr + k * mtu) (min mtu (len - k * mtu))))
  let s3 := if r.2 then s2.nak sub i ((psn + r.1) % 2 ^ 24) nakOperational else s2
  if dup then s3 else s3.stepPsn i r.1

/-- The queue pair of a request that waits. -/
def roceQp : Instr → Option Nat
  | .roceRead _ q _ _ _ _ => some q.val
  | .roceWrite _ q _ _ _ _ _ => some q.val
  | .roceSend _ q _ _ _ => some q.val
  | _ => none

/-- Perform a request, or hold it in arrival order while a page of `run` is held by its move or one before it of its queue pair waits
(R320). -/
def State.orHold (s : State) (q : Nat) (c : Instr) (run : Run) (eff : State → State) : State :=
  if s.net.later.any (fun x => roceQp x = some q) || s.hostHeld run.1 run.2 then
    { s with net := { s.net with later := s.net.later ++ [c] } }
  else eff s

/-- ROCE_READ. -/
def execRoceRead (sub : SubPort) (q : Fin 1024) (psn : Nat) (key : BitVec 32) (addr : W64) (len : Nat) (s : State) :
    Host.Outcome State Fault Refusal :=
  let i := q.val
  let a := addr.toNat
  .next (s.orHold i (.roceRead sub q psn key addr len) (a, len) fun s => s.roceRequest sub i psn 1 fun s dup =>
    let p := s.qpPart i
    if !s.keyOk i key a len 0 then s.nak sub i psn nakAccess
    else
      let k := s.hostCheck p a len
      if k = stOk then s.serveRead sub i psn a len dup
      else
        let s := if k = stNotReady then s.count (R.PART_TIER_NOTREADY_CNT p) 1
          else if k = stEmpty then s.count (R.PART_TIER_EMPTY_CNT p) 1 else s
        s.nak sub i psn nakAccess)

/-- Write the packets of a message one after another (R382): answers the state, the packets written and whether all
were. -/
def State.writePackets (s : State) (p a mtu : Nat) (ps : List (List Byte)) : State × Nat × Bool :=
  match ps with
  | [] => (s, 0, true)
  | b :: rest =>
    let r := s.hostWrite p a b
    if r.1 = stOk then
      let t := r.2.writePackets p (a + mtu) mtu rest
      (t.1, t.2.1 + 1, t.2.2)
    else (s, 0, false)

/-- Immediate data goes to the ring's completion word (R383). -/
def State.putCpl (s : State) (i : Nat) (imm : Option (BitVec 32)) : State :=
  match imm with
  | some x => s.wr (qpAddr i 7) (BitVec.ofNat 64 x.toNat)
  | none => s

/-- Answer a message of which some packets have been performed. -/
def answered (r : State × Nat × Bool) (sub : SubPort) (i psn : Nat) (imm : Option (BitVec 32)) : State :=
  let t := r.1.stepPsn i r.2.1
  if r.2.2 then (t.putCpl i imm).roceAcks sub i psn r.2.1 true
  else (t.roceAcks sub i psn r.2.1 false).nak sub i ((psn + r.2.1) % 2 ^ 24) nakAccess

/-- ROCE_WRITE. -/
def execRoceWrite (sub : SubPort) (q : Fin 1024) (psn : Nat) (key : BitVec 32) (addr : W64) (data : List Byte)
    (imm : Option (BitVec 32)) (s : State) : Host.Outcome State Fault Refusal :=
  let i := q.val
  let mtu := s.qpMtu i
  let n := packets mtu data.length
  .next (s.orHold i (.roceWrite sub q psn key addr data imm) (addr.toNat, data.length) fun s => s.roceRequest sub i psn n fun s dup =>
    if dup then s.roceAcks sub i psn n true
    else if !data.isEmpty && !s.keyOk i key addr.toNat data.length 1 then s.nak sub i psn nakAccess
    else
      answered (s.writePackets (s.qpPart i) addr.toNat mtu (pieces mtu data)) sub i psn imm)

/-- Address of the `k`-th slot from the head of a receive ring. -/
def State.ringSlot (s : State) (i k : Nat) : Nat :=
  s.rdF (qpAddr i 3) F.PANEL_QPi_W3_RING + ((s.rd (qpAddr i 5)).toNat + k) % s.rdF (qpAddr i 4) F.PANEL_QPi_W4_SLOTS * s.qpMtu i

/-- Place the packets of a SEND in the receive ring, one slot each (R383). -/
def State.ringPackets (s : State) (i : Nat) (ps : List (List Byte)) : State × Nat × Bool :=
  match ps with
  | [] => (s, 0, true)
  | b :: rest =>
    let head := (s.rd (qpAddr i 5)).toNat
    let a := s.ringSlot i 0
    let r := s.hostWrite (s.qpPart i) a b
    if r.1 = stOk then
      let t := (r.2.wr (qpAddr i 5) (BitVec.ofNat 64 (head + 1))).ringPackets i rest
      (t.1, t.2.1 + 1, t.2.2)
    else (s, 0, false)

/-- Free slots of a receive ring. -/
def State.ringFree (s : State) (i : Nat) : Nat :=
  s.rdF (qpAddr i 4) F.PANEL_QPi_W4_SLOTS - ((s.rd (qpAddr i 5)).toNat - (s.rd (qpAddr i 6)).toNat)

/-- The bytes from the first to the last of the `n` slots that a message takes in a receive ring. -/
def State.ringSpan (s : State) (i n : Nat) : Run :=
  let l := (List.range n).map (s.ringSlot i)
  let a := l.foldl min (s.ringSlot i 0)
  (a, l.foldl max a + s.qpMtu i - a)

/-- ROCE_SEND. -/
def execRoceSend (sub : SubPort) (q : Fin 1024) (psn : Nat) (data : List Byte) (imm : Option (BitVec 32)) (s : State) :
    Host.Outcome State Fault Refusal :=
  let i := q.val
  let mtu := s.qpMtu i
  let n := packets mtu data.length
  .next (s.orHold i (.roceSend sub q psn data imm) (s.ringSpan i n) fun s => s.roceRequest sub i psn n fun s dup =>
    if dup then s.roceAcks sub i psn n true
    else if s.ringFree i < n then
      s.nak sub i psn (nakRnr + s.rdF (qpAddr i 0) F.PANEL_QPi_W0_RNR)
    else
      answered (s.ringPackets i (pieces mtu data)) sub i psn imm)

/-- The highest RC opcode that the responder performs: SEND and WRITE up to 0x0B, READ request 0x0C. -/
def lastRcOpcode : Nat := 0x0C

/-- ROCE_INVALID_REQUEST. -/
def execRoceInvalidRequest (sub : SubPort) (q : Fin 1024) (psn : Nat) (opcode : Byte) (s : State) :
    Host.Outcome State Fault Refusal :=
  .next (if opcode.toNat ≤ lastRcOpcode then s
    else s.roceRequest sub q.val psn 1 fun s _ => s.nak sub q.val psn nakInvalid)

/-- ROCE_CNP. -/
def execRoceCnp (sub : SubPort) (s : State) : Host.Outcome State Fault Refusal :=
  .next (if !s.linkIs sub then s
    else if !s.ready then s.dropFrames sub 1
    else if s.rdF (cfgOf sub) F.HZN_ETH_CFGq_ROCE != 1 then s
    else (s.received sub 1).count R.PANEL_ROCE_CNP_CNT 1)

/-! Writes of the tables (R421). -/

/-- Entries of a table that a partition owns. -/
def State.rocOwned (s : State) (addr : Nat → Nat) (n p : Nat) : Nat :=
  (s.csr.filter fun x => decide (addr 0 ≤ x.1) && decide (x.1 < addr n) && (x.1 - addr 0) % (addr 1 - addr 0) = 0 &&
    fld x.2 63 62 != 0 && fld x.2 61 56 = p).length

/-- Word 0 of an entry after a write: PART is set by the write that leaves FREE, and is 0 while FREE. -/
def State.rocPut (s : State) (pl : Plane) (a : Nat) (v : W64) : State :=
  let old := s.rd a
  let t := s.putReg pl a v
  let part := if fld (t.rd a) 63 62 = 0 then 0 else if fld old 63 62 = 0 then planePart pl else fld old 61 56
  t.wrF a F.PANEL_QPi_W0_PART part

/-- QP_WRITE. -/
def execQpWrite (pl : Plane) (i : Fin 1024) (word : Fin 8) (v : W64) (s : State) : Host.Outcome State Fault Refusal :=
  let a := qpAddr i.val word.val
  let p := planePart pl
  let leaves := fld (s.rd a) 63 62 = 0 && fld v 63 62 != 0
  .next
    (if word.val = 0 then
      s.guarded pl a
        (roLow a v [failIf (fld v 63 62 = 3 || fld v 55 54 = 3) 7,
          failIf (leaves && decide (s.rdF (R.PART_CAP1 p) F.PART_CAP1_QP ≤ s.rocOwned (fun k => qpAddr k 0) 1024 p)) 6])
        (s.rocPut pl a v)
    else s.guarded pl a [] (s.putReg pl a v))

/-- Whether the range of a region lies within the pages of a partition (R413, R421). -/
def State.regionOk (s : State) (p base len : Nat) : Bool :=
  let r := s.rd (R.PART_CAP3 p)
  len = 0 || (decide (fld r 25 0 * pageSize ≤ base) && decide (base + len ≤ (fld r 25 0 + fld r 57 32) * pageSize))

/-- MR_WRITE. -/
def execMrWrite (pl : Plane) (i : Fin 4096) (word : Fin 4) (v : W64) (s : State) : Host.Outcome State Fault Refusal :=
  let a := mrAddr i.val word.val
  let w0 := mrAddr i.val 0
  let old := s.rd w0
  let valid := fld old 63 62 = 1
  let p := if valid then fld old 61 56 else planePart pl
  let base := fun (x : W64) => x.toNat % 2 ^ 48
  .next
    (match word.val with
    | 0 =>
      let on := fld v 63 62 = 1
      s.guarded pl a
        (roLow a v [failIf (decide (2 ≤ fld v 63 62) || (on && fld v 55 54 = 0) ||
            (on && !s.regionOk p (base (s.rd (mrAddr i.val 1))) (base (s.rd (mrAddr i.val 2))))) 7,
          failIf (on && !valid && decide (s.rdF (R.PART_CAP1 p) F.PART_CAP1_MR ≤ s.rocOwned (fun k => mrAddr k 0) 4096 p)) 6])
        (let t := s.rocPut pl a v
         if on then t.wrF a F.PANEL_MRr_W0_GEN ((fld old 43 32 + 1) % 4096) else t)
    | 1 => s.guarded pl a (roLow a v [failIf (valid && !s.regionOk p (base v) (base (s.rd (mrAddr i.val 2)))) 7]) (s.putReg pl a v)
    | 2 => s.guarded pl a (roLow a v [failIf (valid && !s.regionOk p (base (s.rd (mrAddr i.val 1))) (base v)) 7]) (s.putReg pl a v)
    | _ => s.guarded pl a [] (s.putReg pl a v))

end Sys2Proof.Machine
end

