-- ==== Sys2Proof/Machine/ZenStep.lean ====
section
/-! DEFINITION. The parameter directory's writes and binds (R222-R225), the slices (R218, R219) and the phases of a step on
the Zenith units (R226-R233). -/

namespace Sys2Proof.Machine

/-! Slices. -/

/-- The slices of a die. -/
def State.slice (s : State) (d : Nat) : ZSlice := SMap.get s.zslice ZSlice.reset d

/-- Whether a partition has Zenith work pending on a die: a pass not finished there, or a clearing phase. -/
def State.zpending (s : State) (d p : Nat) : Bool :=
  let z := s.zr d p
  (z.pass != 0 && !z.done) || (s.zphase p = 4 && (s.zValid p).any fun n => n / 2048 = d)

/-- The partition that a slice runs (R219): those below their share first, in order after the one served last. -/
def State.zchoose (s : State) (d : Nat) (z : ZSlice) : Option Nat :=
  let work := (List.range 64).filter (s.zpending d)
  let under := work.filter fun p => SMap.get z.used 0 p < SMap.get z.share 0 p
  match under with
  | [] => work.head?
  | _ =>
    let k := match z.last with
      | some q => q + 1
      | none => 0
    ((List.range 64).map fun i => (i + k) % 64).find? under.contains

/-- ZEN_SLICE_START: a frame of 256 slices loads the shares anew (R219, R220). -/
def execZenSliceStart (d : Fin 16) (s : State) : Host.Outcome State Fault Refusal :=
  let z := s.slice d
  let z := if z.idx = 0 then
      { z with used := [], share := (List.range 64).foldl (fun m p => SMap.set m 0 p (fld (s.rd (R.PART_ZEN_SHARE p)) 7 0)) [] }
    else z
  let c := s.zchoose d z
  let sw := match c, z.last with
    | some p, some q => bnat (p != q)
    | _, _ => 0
  let z := { z with
    cur := c
    last := if c.isSome then c else z.last
    idx := (z.idx + 1) % 256
    used := match c with
      | some p => SMap.set z.used 0 p (SMap.get z.used 0 p + 1)
      | none => z.used }
  .next ({ s with zslice := SMap.set s.zslice ZSlice.reset d.val z }.count (R.DIE_ZEN_SW_CNT d) sw)

/-! Phases. -/

/-- Set PHASE and clear DIES. -/
def State.setZphase (s : State) (p k : Nat) : State :=
  (s.wrF (R.PART_ZEN_STAT p) F.PART_ZEN_STAT_PHASE k).wrF (R.PART_ZEN_STAT p) F.PART_ZEN_STAT_DIES 0

/-- The entries of a die that a pass runs (R226): pass one takes frozen blocks that enter the norm. -/
def State.zentries (s : State) (d p pass : Nat) : List Nat :=
  (s.zValid p).filter fun n => n / 2048 = d &&
    (!flag (s.zconf n) 62 || (pass = 1 && flag (s.zconf n) 61))

/-- Whether a die holds valid entries of a partition. -/
def State.zdie (s : State) (d p : Nat) : Bool := (s.zValid p).any fun n => n / 2048 = d

/-- A pass starts on every die that holds valid entries (R226, R227): its snapshot, cleared registers, its first block. -/
def State.zpass (s : State) (p : Fin 64) (pass : Nat) : State :=
  let s := s.setZphase p (if pass = 1 then 1 else 3)
  s.each (List.finRange 16) fun s d =>
    let z := s.zr d p
    let z := { z with
      pass := pass, blk := none, todo := s.zentries d p pass, done := !s.zdie d p
      hp := (List.range 8).map fun i => s.rd (R.PART_ZEN_HPj p i)
      tabs := s.refTabs p, ovf := flag (s.rd (R.PART_NUM_MODE p)) 0
      seed := s.rd (R.PART_ZEN_SEED p), step := s.rdF (R.PART_ZEN_STEP p) F.PART_ZEN_STEP_STEP }
    let z := if pass = 1 then { z with acc := 0, ainf := false, anan := false } else z
    let s := (s.setZr d p z).setCtx (.zen d p) CellCtx.reset
    if z.done then s else s.zenter d p

/-- Whether every die has finished its pass. -/
def State.zallDone (s : State) (p : Nat) : Bool := (List.range 16).all fun d => (s.zr d p).done

/-- Leave a pass: no die works on it any more. -/
def State.zleave (s : State) (p : Nat) : State :=
  s.each (List.range 16) fun s d => s.setZr d p { s.zr d p with pass := 0, blk := none, todo := [], done := true }

/-- ZEN_PASS_ONE_START: the step's contribution has issued (R226). -/
def execZenPassOneStart (p : Fin 64) (s : State) : Host.Outcome State Fault Refusal :=
  .next (if s.zenEn p && decide (s.zphase p = 0) && (s.vrdOf p).issued && !(s.vrdOf p).oneDone &&
      !(s.vrdOf p).sealed then s.zpass p 1 else s)

/-- ZEN_PASS_ONE_DONE. -/
def execZenPassOneDone (p : Fin 64) (s : State) : Host.Outcome State Fault Refusal :=
  .next (if s.zphase p = 1 && s.zallDone p then
    ((s.zleave p).setZphase p 2).setVrd p { s.vrdOf p with oneDone := true } else s)

/-- ZEN_PASS_TWO_START: on a clean verdict pass two runs, else the step is skipped (R226, R231). -/
def execZenPassTwoStart (p : Fin 64) (s : State) : Host.Outcome State Fault Refusal :=
  .next
    (if s.zphase p = 2 && s.vphase p = 3 then
      if (s.vrdOf p).clean then
        (s.zpass p 2).count (R.PART_ZEN_FROZEN_CNT p) ((s.zValid p).filter fun n => flag (s.zconf n) 62).length
      else (s.count (R.PART_ZEN_SKIP_CNT p) 1).setZphase p 4
    else s)

/-- ZEN_PASS_TWO_DONE. -/
def execZenPassTwoDone (p : Fin 64) (s : State) : Host.Outcome State Fault Refusal :=
  .next (if s.zphase p = 3 && s.zallDone p then (s.zleave p).setZphase p 4 else s)

/-- Zero written over a byte range of allocated pages, within one page. -/
def State.zeroPiece (s : State) (w : Writer) (r : Run) : State :=
  if !(s.partWords r).isEmpty then s.writeOpen w r.1 (List.replicate r.2 0)
  else
    let s := s.clearMarks r
    match s.frameOf r.1 with
    | some l =>
      let lo := l * pageSize + r.1 % pageSize
      ({ s with bytes := s.bytes.filter fun x => x.1 < lo || decide (lo + r.2 ≤ x.1) }).noteWrite w r
    | none => s

/-- The pieces of a byte range by page. -/
def pagePieces (r : Run) : List Run :=
  (runPages r).map fun pg =>
    let lo := max r.1 (pg * pageSize)
    (lo, min (r.1 + r.2) (pg * pageSize + pageSize) - lo)

/-- Zero written over a G stream by the unit of die `d`: the seal allows it; a FREE page is allocated, and a write that finds no
token or frame is not performed and counted (R232, R317). -/
def State.zeroStream (s : State) (p d : Nat) (r : Run) : State :=
  s.each (pagePieces r) fun s q =>
    match s.allocateAll (.zen d) p [q.1 / pageSize] with
    | some s1 =>
      let x := (s1.homeLookup d (q.1 / pageSize)).travel d true [q]
      (match x.2 with
      | some a => x.1.uncorrectable p a
      | none => x.1.zeroPiece (.zen d) q)
    | none => s.count (R.DIE_ZEN_VIOL_CNT d) 1

/-- ZEN_CLEAR_DONE: every G stream is zero; STEP increments, PHASE becomes idle, DONE_BAR advances (R232). A page in SWITCH holds
its writes, and the phase is not done before them (R319). -/
def execZenClearDone (p : Fin 64) (s : State) : Host.Outcome State Fault Refusal :=
  .next
    (if s.zphase p = 4 && !s.switching (pagesOf ((s.zValid p).map s.gStream)) then
      let s := s.each (s.zValid p) fun s n => s.zeroStream p (n / 2048) (s.gStream n)
      let a := R.PART_ZEN_STEP p
      let s := (s.wrF a F.PART_ZEN_STEP_STEP (s.rdF a F.PART_ZEN_STEP_STEP + 1)).setZphase p 0
      (s.barAdvance p (s.rdF (R.PART_ZEN_CTL p) F.PART_ZEN_CTL_DONE_BAR) 1).stepEnded p
    else s)

/-! The directory (R222-R225). -/

/-- Status codes of a bind. -/
def bindOk : Nat := 0
def bindTied : Nat := 1
def bindOverlap : Nat := 2
def bindFormat : Nat := 3
def bindRange : Nat := 4
def bindBusy : Nat := 5

/-- STATE of PART.ZEN_BIND: 0 idle, 1 pending, 2 done. -/
def State.bindState (s : State) (p : Nat) : Nat := s.rdF (R.PART_ZEN_BIND p) F.PART_ZEN_BIND_STATE

/-- Report an entry's status in PART.ZEN_BIND. -/
def State.bindReport (s : State) (p st status entry : Nat) : State :=
  s.wr (R.PART_ZEN_BIND p) (BitVec.ofNat 64 (st * 2 ^ 62 + status * 2 ^ 58 + entry))

/-- What a write to a word of an entry of partition `p` does, by the rules of R224 and R225. -/
inductive DirWrite where
  | refuse (status : Nat) (cause : Nat)
  | pending
  | put (v : W64)
  | bind (v : W64)

/-- The writable bits of a directory word (R223). -/
def dirMask (w : Nat) : Nat :=
  if w = 0 then 2 ^ 64 - 1 - (bitsOf (2 ^ 64 - 1) 27 17) * 2 ^ 17
  else if w ≤ 6 then 2 ^ 48 - 1
  else if w = 7 then 2 ^ 64 - 2 ^ 8
  else if w ≤ 11 then 2 ^ 64 - 1 else 0

/-- The fields of word 0 that a valid entry keeps: all but FROZEN and FZNORM. -/
def dirKept (v : Nat) : Nat := v &&& (2 ^ 64 - 1 - 2 ^ 62 - 2 ^ 61)

/-- The rules of a directory write (R224, R225). -/
def State.dirWrite (s : State) (p n w : Nat) (v : W64) : DirWrite :=
  let old := s.rd (zdirAddr n w)
  let new := BitVec.ofNat 64 (maskPut old.toNat v.toNat (dirMask w))
  let valid := flag (s.zconf n) 63
  let turns := decide (w = 0) && flag new 63 != valid
  if s.bindState p = 1 then .pending
  else if (valid || turns) && s.zphase p != 0 then .refuse bindBusy 6
  else if w = 0 && valid && flag new 63 && dirKept old.toNat != dirKept new.toNat then .refuse bindFormat 7
  else if w = 0 && !valid && flag new 63 then .bind new
  else .put new

/-- Perform a write of a directory word by the owner's partition. -/
def State.putDir (s : State) (pl : Plane) (p n w : Nat) (v : W64) : State :=
  let a := zdirAddr n w
  let ro := w = 7 && flag v 0
  if 12 ≤ w then s.csrRefuse pl a 4
  else match s.dirWrite p n w v with
    | .pending => s.csrRefuse pl a (if ro then 4 else 6)
    | .refuse st k => (s.bindReport p (s.bindState p) st n).csrRefuse pl a (if ro then 4 else k)
    | .put x =>
      let s := s.wr a x
      if ro then s.csrRefuse pl a 4 else s
    | .bind x => (s.wr a (BitVec.ofNat 64 (x.toNat % 2 ^ 63))).bindReport p 1 (s.rdF (R.PART_ZEN_BIND p) F.PART_ZEN_BIND_STATUS) n

/-- ZEN_DIR_WRITE. An entry in no range is written as partition 0's (R417; log entry 78). -/
def execZenDirWrite (pl : Plane) (n : Fin 32768) (w : Fin 16) (v : W64) (s : State) : Host.Outcome State Fault Refusal :=
  .next (s.guarded pl (zdirAddr n w) []
    (match s.entryOwner n with
      | some p => s.putDir pl p n w v
      | none => s.putDir pl 0 n w v))

/-- Formats that a stream of an entry may have (R225). -/
def wFmtOk (f : Nat) : Bool := f = fmtFP32 || f = fmtBF16
def mvFmtOk (f : Nat) : Bool := f = 0x3F || (0x10 ≤ f && f ≤ 0x15)
def qFmtOk (f : Nat) : Bool := f = 0x3F || (fmtAssigned f && f != fmtFP32 && f != fmtFP64 && f != fmtE8M0)

/-- The byte range of a stream of an entry: 0 W, 1 M, 2 V, 3 G, 4 Q, 5 Q's scale tensor; none where it is absent. -/
def State.zrange (s : State) (t : Tabs) (n st : Nat) : Option Run :=
  let k := s.zcount n
  if st = 5 then
    let l := s.zblk n
    if s.zhas n 4 && l != 0 then some (s.zaddr n 5, cdiv k l) else none
  else if st = 3 then some (s.gStream n)
  else if s.zhas n st then some (s.zaddr n st, packedBytes k (fmtWidth t (s.zfmt n st)))
  else none

/-- The present streams of an entry. -/
def State.zranges (s : State) (t : Tabs) (n : Nat) : List (Nat × Run) :=
  (List.range 6).filterMap fun st => (s.zrange t n st).map fun r => (st, r)

/-- Whether two ranges share a byte. -/
def meet (a b : Run) : Bool := decide (a.1 < b.1 + b.2) && decide (b.1 < a.1 + a.2)

/-- Every valid entry of the module with its partition. -/
def State.zAll (s : State) : List (Nat × Nat) := (List.range 64).flatMap fun p => (s.zValid p).map fun n => (p, n)

/-- The result of a bind's checks in their order (R225). -/
def State.bindCheck (s : State) (p n : Nat) : Nat :=
  let t := s.refTabs p
  let g := s.zgrp n
  let k := s.zcount n
  let fmtOk := wFmtOk (s.zfmt n 0) && mvFmtOk (s.zfmt n 1) && mvFmtOk (s.zfmt n 2) && qFmtOk (s.zfmt n 4) && g.codeOk &&
    decide (1 ≤ k) && decide (k ≤ 65536)
  let mine := s.zranges t n
  let rs := mine.map (·.2)
  let rangeOk := decide (fld (s.rd (zdirAddr n 7)) 63 24 + k ≤ 2 ^ 40) && s.runsOk p rs &&
    (s.allocateAll (.zen (n / 2048)) p (pagesOf rs)).isSome && rs.all fun r => decide (r.1 + r.2 ≤ 2 ^ 48)
  let others := s.zAll.filter fun o => o.2 != n
  let wg := fun (l : List (Nat × Run)) => l.filter fun x => x.1 = 0 || x.1 = 3
  let theirs := others.map fun o => s.zranges (s.refTabs o.1) o.2
  let tied := (wg mine).any fun a => theirs.any fun l => (wg l).any fun b => meet a.2 b.2
  let within := mine.any fun a => mine.any fun b => a.1 < b.1 && meet a.2 b.2
  let across := mine.any fun a => theirs.any fun l => l.any fun b => meet a.2 b.2
  if !fmtOk then bindFormat
  else if !rangeOk then bindRange
  else if tied then bindTied
  else if within || across then bindOverlap
  else bindOk

/-- The bind of a partition in work completes (R225). -/
def State.bindDone (s : State) (p : Nat) : State :=
  let n := s.rdF (R.PART_ZEN_BIND p) F.PART_ZEN_BIND_ENTRY
  let r := s.bindCheck p n
  let s := if r = bindOk then s.wrF (zdirAddr n 0) (63, 63) 1 else s
  s.bindReport p 2 r n

/-- Two ranges of numbers overlap, neither empty. -/
def numsMeet (b1 n1 b2 n2 : Nat) : Bool := n1 != 0 && n2 != 0 && decide (b1 < b2 + n2) && decide (b2 < b1 + n1)

/-- ZEN_RANGE_WRITE (R222). -/
def execZenRangeWrite (pl : Plane) (p : Fin 64) (v : W64) (s : State) : Host.Outcome State Fault Refusal :=
  let a := R.PART_ZEN_RANGE p
  let old := s.rd a
  let b := fld v 14 0
  let n := fld v 31 16
  let other := (List.range 64).any fun q => q != p.val && numsMeet b n (fld (s.rd (R.PART_ZEN_RANGE q)) 14 0)
    (fld (s.rd (R.PART_ZEN_RANGE q)) 31 16)
  let valid := fun (b n : Nat) => (List.range n).any fun i => flag (s.zconf (b + i)) 63
  let far := decide (32768 < b + n)
  .next (s.guarded pl a
    (roLow a v [failIf (far || other) 7, failIf (s.zphase p != 0 || valid (fld old 14 0) (fld old 31 16) || (!far && valid b n)) 6])
    (s.putReg pl a v))

end Sys2Proof.Machine
end

