-- ==== Sys2Proof/Machine/CsrWrite.lean ====
section
/-! DEFINITION. A CSR write to any register (R6-R8, R417, R498): registers with a command of their own go to it, the others
carry the conditions of their own chapters. -/

namespace Sys2Proof.Machine

/-- The state that a command's outcome gives. -/
def nextOf (o : Host.Outcome State Fault Refusal) (s : State) : State :=
  match o with
  | .next t => t
  | _ => s

/-- The counter of a plane's refused accesses (R426). -/
def violReg : Plane → Nat
  | .session p => R.PART_CSR_VIOL_CNT p.val
  | .mgmt => R.MGMT_CSR_VIOL_CNT
  | .cell c => R.CELL_VIOL_CNT c

/-- Perform an access at address `a`, and answer whether it was performed: none of it counted as refused. The counter of refusals itself
takes any value. -/
def State.attempt (s : State) (pl : Plane) (a : Nat) (f : State → State) : State × Bool :=
  let r := violReg pl
  if a = r then (f s, s.mayAccess pl a true)
  else
    let t := f (s.wr r 0)
    (t.wr r (satAdd64 (s.rd r) (t.rd r).toNat), t.rd r = 0)

/-- A refusal latches cause 4, the lowest, where another check of the same access has latched its own (R498). -/
def State.relatch (s : State) (pl : Plane) (a : Nat) : State :=
  match pl with
  | .session p => s.wr (R.PART_CSR_VIOL_LAST p.val) (BitVec.ofNat 64 (4 * 2 ^ 60 + a % 2 ^ 32))
  | .mgmt => s
  | .cell c => s.wr (R.CELL_VIOL_LAST c) (BitVec.ofNat 64 (4 * 2 ^ 60 + s.pc (.cell c) % 2 ^ 48))

/-- The bits of a read-only field that a write sets count beside the effect of its other fields (R7), and are the lowest cause where
another check fails (R498). -/
def State.withRo (s : State) (pl : Plane) (a : Nat) (v : W64) (f : State → State) : State :=
  let x := s.attempt pl a f
  if !(regAt a).any (fun r => roTouched r v) then x.1
  else if x.2 then x.1.csrRefuse pl a 4
  else x.1.relatch pl a

/-- A write by access codes under further conditions. -/
def State.plainWrite (s : State) (pl : Plane) (a : Nat) (v : W64) (fails : List (Option Nat)) : State :=
  s.guarded pl a (roLow a v fails) (s.putReg pl a v)

/-! PANEL. -/

/-- Every session closes (R369). -/
def State.closeAll (s : State) : State := { s with net := { s.net with sess := [] } }

/-- A write in PANEL. -/
def State.writePanel (s : State) (pl : Plane) (a : Nat) (v : W64) : State :=
  if 0x00400000 ≤ a && a < 0x00410000 then
    nextOf (execQpWrite pl ⟨(a - 0x00400000) / 64 % 1024, Nat.mod_lt _ (by decide)⟩ ⟨a / 8 % 8, Nat.mod_lt _ (by decide)⟩ v s) s
  else if 0x00500000 ≤ a && a < 0x00520000 then
    nextOf (execMrWrite pl ⟨(a - 0x00500000) / 32 % 4096, Nat.mod_lt _ (by decide)⟩ ⟨a / 8 % 4, Nat.mod_lt _ (by decide)⟩ v s) s
  else if R.PANEL_PLX_TOL0 ≤ a && a ≤ R.PANEL_PLX_TOL4 then
    s.plainWrite pl a v [failIf (decide (fld v 63 32 < fld v 31 0)) 7]
  else if a = R.PANEL_ASTP_CFG then
    let x := s.attempt pl a fun s => s.plainWrite pl a v [failIf (fld v 47 40 = 0) 7]
    if x.1.rdF a F.PANEL_ASTP_CFG_UDP_PORT = s.rdF a F.PANEL_ASTP_CFG_UDP_PORT then x.1 else x.1.closeAll
  else if a = R.PANEL_PTP_CFG then s.plainWrite pl a v [failIf (fld v 47 40 = 0 || fld v 33 32 = 3) 7]
  else s.plainWrite pl a v []

/-! DIE, CELL, HZN, STK. -/

/-- A write in DIE[d] at offset `o`. -/
def State.writeDie (s : State) (pl : Plane) (d o a : Nat) (v : W64) : State :=
  if 0x00080000 ≤ o && o < 0x000A0000 && o / 8 % 16 = 8 then
    nextOf (execAlmSlotConfWrite pl ⟨(d * 1024 + (o - 0x00080000) / 128) % 16384, Nat.mod_lt _ (by decide)⟩ v s) s
  else if 0x000C0000 ≤ o && o < 0x00100000 then
    nextOf (execZenDirWrite pl ⟨(d * 2048 + (o - 0x000C0000) / 128) % 32768, Nat.mod_lt _ (by decide)⟩
      ⟨o / 8 % 16, Nat.mod_lt _ (by decide)⟩ v s) s
  else s.plainWrite pl a v []

/-- Whether a register of a cell lies in the core's clock domain: the tester, the SRAM and the clock status do not. -/
def coreReg (o : Nat) : Bool := decide (o < 0x900) || decide (0xE00 ≤ o)

/-- A write in a CELL block at offset `o`: a write to a core register wakes the core (R464). -/
def State.writeCell (s : State) (pl : Plane) (c : CellId) (o a : Nat) (v : W64) : State :=
  if a = R.CELL_DBG_DATA c then
    let x := s.attempt pl a fun s => nextOf (execDbgDataAccess pl c (some v) s) s
    if x.2 then x.1.wake c else x.1
  else
    let x := s.attempt pl a fun s => s.plainWrite pl a v []
    if x.2 && coreReg o then x.1.wake c else x.1

/-- A write in HZN[h] at offset `o`. -/
def State.writeHzn (s : State) (pl : Plane) (h : Fin 4) (o a : Nat) (v : W64) : State :=
  if 0x00400000 ≤ o && o < 0x00440000 then s.putEph pl h.val ((o - 0x00400000) / 16) (o / 8 % 2) v
  else if 0x00800000 ≤ o && o < 0x00820000 then
    nextOf (execPeerWrite pl h ⟨(o - 0x00800000) / 32 % 4096, Nat.mod_lt _ (by decide)⟩ ⟨o / 8 % 4, Nat.mod_lt _ (by decide)⟩ v s) s
  else
    match (List.finRange 8).find? fun q => R.HZN_ETH_CFGq h.val q.val = a with
    | some q => nextOf (execEthCfgWrite pl h q v s) s
    | none => s.plainWrite pl a v []

/-- A write in STK[n]: LOG names the channel of a remap and stays while one runs. -/
def State.writeStk (s : State) (pl : Plane) (n : Fin 32) (a : Nat) (v : W64) : State :=
  if a = R.STK_REMAP_CTL n.val then
    if flag v 7 then
      s.withRo pl a v fun s => nextOf (execStkRemapGo pl n ⟨fld v 6 0 % 128, Nat.mod_lt _ (by decide)⟩ s) s
    else s.plainWrite pl a v [failIf (pl != .mgmt) 4, failIf (s.remapSt n.val = remapCopying) 6]
  else s.plainWrite pl a v []

/-! PART. -/

/-- Whether PART.ZEN_STAT or PART.VRD_STAT shows a phase that is not idle. -/
def State.zenBusy (s : State) (p : Nat) : Bool := s.zphase p != 0
def State.vrdBusy (s : State) (p : Nat) : Bool := s.vphase p != 0

/-- Whether a rung of a ladder at or below TOP names a format that it may not hold (R177). -/
def badLadder (v : W64) : Bool :=
  (List.range (fld v 25 24 + 1)).any fun i =>
    let f := fld v (6 * i + 5) (6 * i)
    !isDawnFmt f || f = fmtFP64

/-- RUN_CTL: one action, or none (R282). -/
def State.writeRun (s : State) (pl : Plane) (p : Fin 64) (v : W64) : State :=
  match fld v 2 0 with
  | 0 => s.guarded pl (R.PART_RUN_CTL p.val) [] s
  | 1 => nextOf (execRunCtlStop pl p s) s
  | 2 => nextOf (execRunCtlResume pl p s) s
  | 4 => nextOf (execRunCtlAbort pl p s) s
  | _ => s.guarded pl (R.PART_RUN_CTL p.val) [some 7] s

/-- ALM_CKPT: an operation, or none (R185). -/
def State.writeCkpt (s : State) (pl : Plane) (p : Fin 64) (v : W64) : State :=
  match fld v 1 0 with
  | 0 => s.guarded pl (R.PART_ALM_CKPT p.val) [] s
  | 1 => nextOf (execAlmCkptSave pl p s) s
  | 2 => nextOf (execAlmCkptRestore pl p s) s
  | _ => s.guarded pl (R.PART_ALM_CKPT p.val) [some 7] s

/-- TT_CTL: RET_CLEAN, and a commit or a switch where its bit is set (R400, R406). -/
def State.writeTt (s : State) (pl : Plane) (p : Fin 64) (v : W64) : State :=
  let a := R.PART_TT_CTL p.val
  let set := fun (s : State) => s.guarded pl a [] (s.wrF a F.PART_TT_CTL_RET_CLEAN (fld v 55 48))
  let x := s.attempt pl a fun s => if flag v 0 then nextOf (execTtCommit pl p s) s else s
  if !x.2 then x.1
  else
    let y := x.1.attempt pl a fun s => if flag v 1 then nextOf (execTtSwitch pl p s) s else s
    if y.2 then set y.1 else y.1

/-- A counter that is present is written: fences and waiting cells see it (R283, R328). -/
def State.writeBar (s : State) (pl : Plane) (p k a : Nat) (v : W64) : State :=
  let x := s.attempt pl a fun s => s.plainWrite pl a v [failIf (decide (s.nbar p ≤ k)) 0xC]
  if x.2 then
    let t := x.1.fences p
    t.each ((t.present p).filter fun c => (t.cell c).waitsOn k) State.wake
  else x.1

/-- Registers of PART[p] whose writes are commands of their own. -/
def State.partCommand (s : State) (pl : Plane) (p : Fin 64) (a : Nat) (v : W64) : Option State :=
  let q := p.val
  if a = R.PART_ALM_RANGE q then some (nextOf (execAlmRangeWrite pl p v s) s)
  else if a = R.PART_ALM_CKPT q then some (s.withRo pl a v fun s => s.writeCkpt pl p v)
  else if a = R.PART_ZEN_RANGE q then some (nextOf (execZenRangeWrite pl p v s) s)
  else if a = R.PART_VRD_OWN q then
    some (s.withRo pl a v fun s => if flag v 5 then nextOf (execVrdRetr pl p s) s else s.guarded pl a [] s)
  else if a = R.PART_VRD_UNC q then
    some (s.withRo pl a v fun s => if flag v 63 then nextOf (execVrdUncClear pl p s) s else s.guarded pl a [] s)
  else if a = R.PART_RUN_CTL q then some (s.withRo pl a v fun s => s.writeRun pl p v)
  else if a = R.PART_NAN_TRAP0 q then
    some (s.withRo pl a v fun s => if flag v 63 then nextOf (execNanTrapClear pl p s) s else s.guarded pl a [] s)
  else if a = R.PART_NUM_MODE q then some (nextOf (execNumModeWrite pl p v s) s)
  else if a = R.PART_BAR_CFG q then some (nextOf (execBarCfgWrite pl p v s) s)
  else if a = R.PART_TT_CTL q then some (s.withRo pl a v fun s => s.writeTt pl p v)
  else if R.PART_RFENCEk_A q 0 ≤ a && a ≤ R.PART_RFENCEk_B q 15 then
    some (nextOf (execRfenceWrite pl p ⟨(a - R.PART_RFENCEk_A q 0) / 16 % 16, Nat.mod_lt _ (by decide)⟩
      ((a - R.PART_RFENCEk_A q 0) / 8 % 2 = 1) v s) s)
  else
    match (List.finRange 4).find? fun k => capAddr q k.val = a with
    | some k => some (nextOf (execCapWrite pl p k v s) s)
    | none =>
      match (List.finRange 4).find? fun h => R.PART_EPH_RANGEh q h.val = a with
      | some h => some (nextOf (execEphRangeWrite pl p h v s) s)
      | none =>
        match (List.finRange 16).find? fun j => R.PART_CELLMAPj q j.val = a with
        | some j => some (nextOf (execCellmapWrite pl p j v s) s)
        | none =>
          match (List.range 64).find? fun k => R.PART_BARk q k = a with
          | some k => some (s.writeBar pl q k a v)
          | none => none

/-- Conditions of the Zenith and verdict registers (R220, R225, R242, R257). -/
def State.zenFails (s : State) (p a : Nat) (v : W64) : List (Option Nat) :=
  if a = R.PART_ZEN_SHARE p then
    let sum := (((List.range 64).filter (· != p)).map fun q => s.rdF (R.PART_ZEN_SHARE q) F.PART_ZEN_SHARE_SHARE).sum
    [failIf (decide (s.rdF (R.PART_CAP1 p) F.PART_CAP1_ZEN < fld v 7 0)) 6, failIf (decide (256 < sum + fld v 7 0)) 7]
  else if a = R.PART_ZEN_CTL p then [failIf (s.zenBusy p) 6, failIf (decide (s.nbar p ≤ fld v 5 0)) 0xC]
  else if [R.PART_ZEN_SEED p, R.PART_ZEN_STEP p, R.PART_ZEN_PC1 p, R.PART_ZEN_PC2 p].contains a then [failIf (s.zenBusy p) 6]
  else if a = R.PART_VRD_CFG p then [failIf (s.vrdBusy p) 6, failIf (fld v 31 16 = 0 || decide (16 < fld v 4 0)) 7]
  else if (List.range 8).any (fun j => R.PART_VRD_EXPECTj p j = a) || a = R.PART_VRD_APPLIED p then [failIf (s.vrdBusy p) 6]
  else []

/-- Conditions of the Almanac, tier, timetable, sampling and host registers (R177, R178, R325, R327, R400, R419, R427). -/
def State.partFails (s : State) (p a : Nat) (v : W64) : List (Option Nat) :=
  if [R.PART_LADDER0 p, R.PART_LADDER1 p, R.PART_LADDER2 p, R.PART_LADDER3 p].contains a then [failIf (badLadder v) 7]
  else if a = R.PART_ALM_POLICY p then [failIf (!flag (s.rd (R.PART_CAP2 p)) (4 + fld v 1 0)) 6]
  else if a = R.PART_TIER_CFG p then
    [failIf (fld v 1 0 = 3) 7, failIf (fld v 1 0 != 3 && !flag (s.rd (R.PART_CAP2 p)) (fld v 1 0)) 6]
  else if a = R.PART_TIER_QUOTA p then
    [failIf (decide (s.rdF (R.PART_CAP0 p) F.PART_CAP0_ONCHIP < fld v 16 0) ||
      decide (s.rdF (R.PART_CAP0 p) F.PART_CAP0_STACK < fld v 57 32)) 6]
  else if a = R.PART_TT_EPOCHt p (s.ttActive p) || a = R.PART_TT_CFGt p (s.ttActive p) then [some 6]
  else if a = R.PART_PLX_CFG p then [failIf (fld v 4 0 != 0 && (decide (fld v 4 0 < 8) || decide (16 < fld v 4 0))) 7]
  else if (List.range 4).any (fun k => R.PART_HOSTk_A p k = a) then
    [failIf (decide ((if flag v 62 then 128 else 32) < fld v 39 32)) 7]
  else s.zenFails p a v

/-- A write in PART[p]. -/
def State.writePart (s : State) (pl : Plane) (p : Fin 64) (a : Nat) (v : W64) : State :=
  match s.partCommand pl p a v with
  | some t => t
  | none => s.plainWrite pl a v (s.partFails p.val a v)

/-! MGMT. -/

/-- A free outcome is drawn. -/
def State.draw (s : State) : State × Bool :=
  ({ s with time := { s.time with free := s.time.free + 1 } }, Config.outcome s.time.free)

/-- RST_CMD (R467). -/
def State.writeRst (s : State) (pl : Plane) (v : W64) : State :=
  let u := fld v 15 8
  let k := fld v 7 0
  let bad := s.guarded pl R.MGMT_RST_CMD [some 7] s
  match fld v 63 60 with
  | 0 => s.guarded pl R.MGMT_RST_CMD [] s
  | 1 => nextOf (execResetModule pl s) s
  | 2 => nextOf (execResetModuleAbrupt pl s) s
  | 3 =>
    (match mkCell u k with
    | some c => nextOf (execResetCell pl c s) s
    | none => bad)
  | 4 => if h : u < 32 then nextOf (execResetStackCtl pl ⟨u, h⟩ s) s else bad
  | 5 => if h : u < 16 then nextOf (execResetComet pl ⟨u, h⟩ s) s else bad
  | 6 =>
    if hk : k < 4 then
      if h : u < 16 then nextOf (execResetSpanPort pl (.die ⟨u, h⟩ ⟨k, hk⟩) s) s
      else if h : u - 16 < 4 then nextOf (execResetSpanPort pl (.hzn ⟨u - 16, h⟩ ⟨k, hk⟩) s) s
      else bad
    else bad
  | 7 =>
    if hk : k < 4 then
      if h : u / 8 < 4 then nextOf (execResetEthSub pl ⟨⟨u / 8, h⟩, ⟨u % 8, Nat.mod_lt _ (by decide)⟩, ⟨k, hk⟩⟩ s) s else bad
    else bad
  | 8 => if h : u < 4 then nextOf (execResetHznMac pl ⟨u, h⟩ s) s else bad
  | _ => bad

/-- SVC_CMD (R447, R448). The write does not carry the outcomes of the tests that its command waits for: they are free. -/
def State.writeSvc (s : State) (pl : Plane) (v : W64) : State :=
  let d := fld v 15 8
  let bad := s.guarded pl R.MGMT_SVC_CMD [some 7] s
  let at' := fun (f : CellId → State) => match mkCell d (fld v 7 0) with
    | some c => f c
    | none => bad
  match fld v 59 56 with
  | 0 => s.guarded pl R.MGMT_SVC_CMD [] s
  | 1 => at' fun c => nextOf (execSvcFence pl c s) s
  | 2 => at' fun c =>
    let x := s.draw
    let y := x.1.draw
    nextOf (execSvcRejoin pl c x.2 y.2 y.1) y.1
  | 3 => at' fun c => nextOf (execSvcRetire pl c s) s
  | 4 =>
    if h : d < 16 then
      let x := s.draw
      nextOf (execSvcFuseCommit pl ⟨d, h⟩ (if x.2 then none else some (Config.burned s.time.free)) x.1) x.1
    else bad
  | _ => bad

/-- FW_CTL (R476). -/
def State.writeFw (s : State) (pl : Plane) (v : W64) : State :=
  match fld v 63 60 with
  | 0 => s.guarded pl R.MGMT_FW_CTL [] s
  | 1 => nextOf (execFwVerify pl s) s
  | 2 => nextOf (execFwActivate pl s) s
  | 3 => nextOf (execFwCommitSvn pl s) s
  | _ => s.guarded pl R.MGMT_FW_CTL [some 7] s

/-- A write in MGMT. -/
def State.writeMgmt (s : State) (pl : Plane) (a : Nat) (v : W64) : State :=
  if a = R.MGMT_RST_CMD then s.withRo pl a v fun s => s.writeRst pl v
  else if a = R.MGMT_SVC_CMD then s.withRo pl a v fun s => s.writeSvc pl v
  else if a = R.MGMT_FW_CTL then s.withRo pl a v fun s => s.writeFw pl v
  else if a = R.MGMT_PWR_CFG then nextOf (execPwrCfgWrite pl v s) s
  else s.plainWrite pl a v []

/-! Any write. -/

/-- A write of 64 bits to an aligned address. -/
def State.writeAny (s : State) (pl : Plane) (a : Nat) (v : W64) : State :=
  match csrBlock a, regAt a with
  | some (.panel, _, _), some _ => s.writePanel pl a v
  | some (.die, d, o), some _ => s.writeDie pl d o a v
  | some (.cell, k, o), some _ =>
    (match mkCell (k / 128) (k % 128) with
    | some c => s.writeCell pl c o a v
    | none => s.csrRefuse pl a 4)
  | some (.hzn, h, o), some _ => s.writeHzn pl ⟨h % 4, Nat.mod_lt _ (by decide)⟩ o a v
  | some (.stk, n, _), some _ => s.writeStk pl ⟨n % 32, Nat.mod_lt _ (by decide)⟩ a v
  | some (.part, p, _), some _ => s.writePart pl ⟨p % 64, Nat.mod_lt _ (by decide)⟩ a v
  | some (.mgmt, _, _), some _ => s.writeMgmt pl a v
  | _, _ => s.csrRefuse pl a 4

/-- A write of any width (R6). -/
def State.csrWrite (s : State) (pl : Plane) (a width : Nat) (v : W64) : State :=
  if width != 64 || a % 8 != 0 then s.csrRefuse pl a 4 else s.writeAny pl a v

/-- CSR_WRITE. -/
def execCsrWrite (pl : Plane) (addr : BitVec 32) (width : Nat) (v : W64) (s : State) : Host.Outcome State Fault Refusal :=
  .next (s.csrWrite pl addr.toNat width v)

end Sys2Proof.Machine
end

