-- ==== Sys2Proof/Machine/Astp.lean ====
section
/-! DEFINITION. Control sessions and their messages (R369-R376, R419), and the messages of one message time (R422, R423). -/

namespace Sys2Proof.Machine

/-! Sessions. -/

/-- The session of an id. -/
def State.session (s : State) (n : Nat) : Option Session := SMap.get s.net.sess none n

/-- Replace a session. -/
def State.setSession (s : State) (n : Nat) (x : Option Session) : State :=
  { s with net := { s.net with sess := SMap.set s.net.sess none n x } }

/-- Frames that the module accepts beyond the acknowledged SEQ (R373). -/
def State.astpWin (s : State) : Nat := s.rdF R.PANEL_ASTP_CFG F.PANEL_ASTP_CFG_WIN

/-- Sequence numbers are modulo 2³² on the wire (R371): the number nearest to `base` that `v` stands for. -/
def unwrap (base v : Nat) : Nat :=
  let d := (v + 2 ^ 32 - base % 2 ^ 32) % 2 ^ 32
  if d < 2 ^ 31 then base + d else base + d - 2 ^ 32

/-- Put a frame of a session on its sub-port. -/
def State.sendFrame (s : State) (n : Nat) (x : Session) (f : TxFrame) : State :=
  s.transmit x.sub (.resp x.ip x.port n x.part.val f x.ack x.limit)

/-- An ACK frame of a session. -/
def State.sendAck (s : State) (n : Nat) (x : Session) : State :=
  s.transmit x.sub (.ack x.ip x.port n x.part.val x.ack x.limit)

/-- Whether a frame waits for credit. -/
def TxFrame.fresh (f : TxFrame) : Bool := f.tries.isNone

/-- Send the frames that the host's LIMIT allows (R373). -/
def State.pump (s : State) (n : Nat) : State :=
  match s.session n with
  | none => s
  | some x =>
    let go := fun (f : TxFrame) => f.fresh && decide (f.seq ≤ x.credit)
    let s1 := s.each (x.queue.filter go) fun s f => s.sendFrame n x f
    s1.setSession n (some { x with queue := x.queue.map fun f => if go f then { f with tries := some 0, at_ := s.time.ns.toNat } else f })

/-- The pieces of a RESP's data: 8 bytes of the first frame are its header (R375). -/
def respPieces (data : List Byte) : List (Nat × List Byte) :=
  let first := data.take 8184
  let rest := chunks 8192 data.length (data.drop 8184)
  (0, first) :: rest.zipIdx.map fun p => (8184 + 8192 * p.2, p.1)

/-- The frames of a RESP, numbered from `next` (R371, R375). -/
def respFrames (next : Nat) (msgid : BitVec 16) (r : Resp) : List TxFrame :=
  let ps := respPieces r.data
  ps.zipIdx.map fun p =>
    let lo := p.1.1
    let hi := lo + p.1.2.length
    { seq := next + p.2
      msgid := msgid
      first := p.2 = 0
      last := p.2 + 1 = ps.length
      status := r.status
      detail := r.detail % 256
      ue := r.ues.any fun u => decide (u.1 < hi) && decide (lo < u.1 + u.2)
      bytes := r.data.length
      data := p.1.2
      at_ := 0
      tries := none }

/-- The RESP of a request: its frames join the session's queue and are kept (R374). -/
def State.reply (s : State) (n seq : Nat) (msgid : BitVec 16) (r : Resp) : State :=
  match s.session n with
  | none => s
  | some x =>
    let fs := respFrames x.next msgid r
    let kept := x.kept ++ [⟨seq, fs⟩]
    let x := { x with
      next := x.next + fs.length
      queue := x.queue ++ fs
      kept := kept.drop (kept.length - 64) }
    (s.setSession n (some x)).pump n

/-- What a frame's header tells the session (R373): frames acknowledged, the LIMIT, and where it was heard. A session that
closes ends when all is acknowledged (R375). -/
def State.heard (s : State) (h : AstpHdr) (x : Session) : State :=
  let ack := unwrap x.acked h.ackSeq
  let acked := if x.acked < ack && decide (ack < x.next) then ack else x.acked
  let x := { x with
    acked := acked
    credit := max x.credit (unwrap x.credit h.limit)
    sub := h.sub
    heard := s.time.ns.toNat
    queue := x.queue.filter fun f => acked < f.seq }
  if x.closing && x.queue.isEmpty then s.setSession h.session none else (s.setSession h.session (some x)).pump h.session

/-- A frame of a session that is not open, or that another endpoint names (R372). -/
def State.noSession (s : State) (h : AstpHdr) (status : Nat) : State :=
  s.each (List.range (max h.frames 1)) fun s _ =>
    s.transmit h.sub (.noSession h.src h.srcPort h.session h.part.val h.msgid status)

/-- A request that has been accepted before gets its kept RESP again, as retransmissions of the frames that the LIMIT has allowed; any
other frame out of order gets an ACK (R373, R374). -/
def State.outOfOrder (s : State) (h : AstpHdr) (x : Session) : State :=
  match x.kept.find? (·.req = h.seq) with
  | some k =>
    let fs := k.frames.filter fun f => decide (f.seq ≤ x.credit)
    (s.count (R.HZN_ASTP_RETX_CNTqk h.sub.h.val h.sub.q.val h.sub.k.val) fs.length).each fs
      fun s f => s.sendFrame h.session { x with sub := h.sub } { f with tries := some 1 }
  | none => s.sendAck h.session { x with sub := h.sub }

/-- Whether a frame reaches the sessions: its link is up, and the module is READY or drops it (R459). -/
def State.reach (s : State) (h : AstpHdr) : State × Bool :=
  if !s.linkIs h.sub then (s, false)
  else if !s.ready then (s.dropFrames h.sub (max h.frames 1), false)
  else (s.received h.sub (max h.frames 1), true)

/-- The open session that a frame names, from its own endpoint. -/
def State.named (s : State) (h : AstpHdr) : Option Session :=
  match s.session h.session with
  | some x => if x.ip = h.src && x.port = h.srcPort then some x else none
  | none => none

/-- Take in the frames of a request: answers the state, and whether the request is to be performed. -/
def State.takeIn (s : State) (h : AstpHdr) : State × Bool :=
  let r := s.reach h
  if !r.2 then (r.1, false)
  else
    match r.1.named h with
    | none => (r.1.noSession h stNoSession, false)
    | some x =>
      let s := r.1.heard h x
      match s.session h.session with
      | none => (s, false)
      | some x =>
        if unwrap (x.ack + 1) h.seq != x.ack + 1 then (s.outOfOrder h x, false)
        else
          let ack := x.ack + max h.frames 1
          (s.setSession h.session (some { x with ack := ack, limit := max x.limit (ack + s.astpWin) }), true)

/-- A request of a session: refused for another partition (R372), malformed (R375), or performed; then answered. -/
def State.request (s : State) (h : AstpHdr) (ok : Bool) (f : State → State × Resp) : State :=
  let right := (s.session h.session).any fun x => x.part = h.part
  let q := if !right then (s, .bare stRights) else if !ok then (s, .bare stBadMsg) else f s
  q.1.reply h.session h.seq h.msgid q.2

/-- Whether LEN and the bytes that must be 0 are those of a message with a payload of `n` bytes (R371, R375). -/
def hdrLenOk (h : AstpHdr) (n : Nat) : Bool := h.lens.sum = n && h.lens.all (fun k => decide (k ≤ 8192)) && h.mbz = 0

/-! OPEN, ACK and time-outs. -/

/-- Whether an address matches a host entry (R419). -/
def State.hostMatch (s : State) (p k : Nat) (ip : IpAddr) : Bool :=
  let a := s.rd (R.PART_HOSTk_A p k)
  let n := fld a 39 32
  let hi := (s.rd (R.PART_HOSTk_B p k)).toNat * 2 ^ 64 + (s.rd (R.PART_HOSTk_C p k)).toNat
  flag a 63 && flag a 62 == ip.v6 &&
    (if ip.v6 then (ip.hi.toNat * 2 ^ 64 + ip.lo.toNat) / 2 ^ (128 - n) = hi / 2 ^ (128 - n)
    else ip.lo.toNat % 2 ^ 32 / 2 ^ (32 - n) = fld a 31 0 / 2 ^ (32 - n))

/-- The session that an OPEN starts. -/
def State.newSession (s : State) (h : AstpHdr) : Session := {
  part := h.part
  ip := h.src
  port := h.srcPort
  sub := h.sub
  ack := 1
  limit := 1 + s.astpWin
  acked := 0
  next := 1
  credit := h.limit
  queue := []
  kept := []
  closing := false
  heard := s.time.ns.toNat
  bind := none
  later := [] }

/-- ASTP_OPEN. -/
def execAstpOpen (h : AstpHdr) (s : State) : Host.Outcome State Fault Refusal :=
  let r := s.reach h
  let s1 := r.1
  .next
    (if !r.2 then s1
    else
      match s1.named h with
      | some x =>
        let t := s1.heard h x
        if x.kept.any (fun k => k.req = h.seq && k.frames.any (·.msgid = h.msgid)) then t.outOfOrder h x else s1.noSession h stBusy
      | none =>
        if h.session = 0 || decide (65535 < h.session) || !hdrLenOk h 0 then s1.noSession h stBadMsg
        else if !(List.range 4).any (fun k => s1.hostMatch h.part.val k h.src) then s1.noSession h stRights
        else if (s1.session h.session).isSome || decide (256 ≤ s1.net.sess.length) then s1.noSession h stBusy
        else if h.seq != 1 then s1.noSession h stNoSession
        else (s1.setSession h.session (some (s1.newSession h))).reply h.session 1 h.msgid (.bare stOk))

/-- ASTP_ACK: one that names another partition is refused (R372). -/
def execAstpAck (h : AstpHdr) (s : State) : Host.Outcome State Fault Refusal :=
  let r := s.reach h
  .next
    (if !r.2 then r.1
    else
      match r.1.named h with
      | some x => if x.part = h.part then r.1.heard h x else r.1.noSession h stRights
      | none => r.1.noSession h stNoSession)

/-- ASTP_NO_SESSION: a frame of a session that is not open; a RESP is not answered. -/
def execAstpNoSession (f : StrayFrame) (s : State) : Host.Outcome State Fault Refusal :=
  let r := s.reach f.hdr
  .next
    (if !r.2 then r.1
    else if (r.1.named f.hdr).isSome then s
    else if f.isResp then r.1
    else r.1.noSession f.hdr stNoSession)

/-- Retransmissions after which a session closes (R373). -/
def maxTries : Nat := 16

/-- The timeout of a frame that has been retransmitted `k` times, in nanoseconds (R373). -/
def State.rto (s : State) (k : Nat) : Nat := 1000 * s.rdF R.PANEL_ASTP_CFG F.PANEL_ASTP_CFG_RTO * 2 ^ min k 7

/-- ASTP_RETX_TIMEOUT of a frame in flight whose timeout has passed. -/
def execAstpRetxTimeout (session seq : Nat) (s : State) : Host.Outcome State Fault Refusal :=
  .next
    (match s.session session with
    | none => s
    | some x =>
      match x.queue.find? (·.seq = seq) with
      | none => s
      | some f =>
        match f.tries with
        | none => s
        | some k =>
          if s.time.ns.toNat < f.at_ + s.rto k then s
          else if maxTries ≤ k then s.setSession session none
          else if !s.linkIs x.sub then s
          else
            let g := { f with tries := some (k + 1), at_ := s.time.ns.toNat }
            let q := x.queue.map fun y => if y.seq = seq then g else y
            let s := s.count (R.HZN_ASTP_RETX_CNTqk x.sub.h.val x.sub.q.val x.sub.k.val) 1
            (s.setSession session (some { x with queue := q })).sendFrame session x g)

/-- ASTP_SESSION_TIMEOUT. -/
def execAstpSessionTimeout (session : Nat) (s : State) : Host.Outcome State Fault Refusal :=
  .next
    (match s.session session with
    | some x =>
      if x.heard + s.rdF R.PANEL_ASTP_CFG F.PANEL_ASTP_CFG_STMO * 10 ^ 9 ≤ s.time.ns.toNat then s.setSession session none else s
    | none => s)

/-! Register messages (R375). -/

/-- A register read by a plane: DBG_DATA is an access of its own (R418), and FECU restarts when it is read. -/
def State.readOne (s : State) (p : Fin 64) (a : Nat) : State × Bool × W64 :=
  let pl := Plane.session p
  if a % 8 != 0 then (s.csrRefuse pl a 4, false, 0)
  else
    match csrBlock a with
    | some (.cell, k, 0xE08) =>
      (match mkCell (k / 128) (k % 128) with
      | some c =>
        let x := s.attempt pl a fun s => nextOf (execDbgDataAccess pl c none s) s
        ((if x.2 then x.1.wake c else x.1), x.2, x.1.readReg a)
      | none => (s, true, 0))
    | some (.hzn, h, _) =>
      let v := s.readReg a
      let s := if (List.range 8).any fun q => R.HZN_ETH_STATq h q = a then s.wrF a F.HZN_ETH_STATq_FECU 0 else s
      (s, true, v)
    | _ => (s, true, s.readReg a)

/-- Read registers one after another; the first one that is not performed ends the data. -/
def State.readMany (s : State) (p : Fin 64) (l : List Nat) : State × Option (List W64) :=
  l.foldl (fun (x : State × Option (List W64)) a =>
    let r := x.1.readOne p a
    (r.1, if r.2.1 then x.2.map (· ++ [r.2.2]) else none)) (s, some [])

/-- A CSR_RD: no data where a register lies outside the session's rights (R417). -/
def State.doCsrRd (s : State) (p : Fin 64) (addr count : Nat) : State × Resp :=
  let l := (List.range count).map fun i => addr + 8 * i
  if count = 0 || decide (256 < count) then (s, .bare stBadMsg)
  else
    match l.find? fun a => !s.mayAccess (.session p) a false with
    | some a => (s.csrRefuse (.session p) a 4, .bare stRights)
    | none =>
      match s.readMany p l with
      | (t, some vs) => (t, ⟨stOk, 0, vs.flatMap fun v => leBytes 8 v.toNat, []⟩)
      | (t, none) => (t, .bare stViolation)

/-- Whether an address is a word of a directory entry whose bind is pending, or that a step keeps busy (R224). -/
def State.dirBusy (s : State) (a : Nat) : Bool :=
  match csrBlock a with
  | some (.die, d, o) =>
    0x000C0000 ≤ o && (match s.entryOwner (d * 2048 + (o - 0x000C0000) / 128) with
    | some p => s.bindState p = 1 || s.zphase p != 0
    | none => false)
  | _ => false

/-- Whether a value written to a register names a reserved format code (R37): a rung in use of a ladder, PFMT of a slot, a stream of a
directory entry, FMT of an Ephemeris entry. Code 0x3F of a directory entry names no format (R223). -/
def namesReserved (a : Nat) (v : W64) : Bool :=
  match csrBlock a with
  | some (.part, p, _) =>
    [R.PART_LADDER0 p, R.PART_LADDER1 p, R.PART_LADDER2 p, R.PART_LADDER3 p].contains a &&
      (List.range (fld v 25 24 + 1)).any fun i => !fmtAssigned (fld v (6 * i + 5) (6 * i))
  | some (.die, _, o) =>
    if 0x00080000 ≤ o && o < 0x000A0000 then o / 8 % 16 = 8 && !fmtAssigned (fld v 61 56)
    else 0x000C0000 ≤ o && o / 8 % 16 = 0 && [fld v 59 54, fld v 53 48, fld v 47 42, fld v 41 36].any fun f => !fmtAssigned f && f != 0x3F
  | some (.hzn, _, o) => 0x00400000 ≤ o && o < 0x00440000 && o / 8 % 2 = 1 && !fmtAssigned (fld v 6 1)
  | _ => false

/-- One register write of a session: its status. A write that names a reserved format code is not performed (R37, R376). -/
def State.writeOne (s : State) (p : Fin 64) (a : Nat) (v : W64) : State × Nat :=
  let pl := Plane.session p
  let y := s.attempt pl a fun s => s.csrWrite pl a 64 v
  let bad := namesReserved a v
  let x := if y.2 && bad then (s.csrRefuse pl a 7, false) else y
  (x.1, if x.2 then stOk else if !s.mayAccess pl a true then stRights else if s.dirBusy a then stBusy
    else if bad then stFormat else stViolation)

/-- A CSR_WR: every register on its own, and the first refusal is reported with its index. -/
def State.doCsrWr (s : State) (p : Fin 64) (addr : Nat) (vals : List W64) : State × Resp :=
  if vals.isEmpty || decide (1023 < vals.length) then (s, .bare stBadMsg)
  else
    let r := vals.zipIdx.foldl (fun (x : State × Resp) v =>
      let w := x.1.writeOne p (addr + 8 * v.2) v.1
      (w.1, if x.2.status = stOk && w.2 != stOk then ⟨w.2, v.2, [], []⟩ else x.2)) (s, .bare stOk)
    r

/-! Memory messages (R317, R329-R331, R375). -/

/-- A WRITE. -/
def State.doWrite (s : State) (p : Fin 64) (addr : W64) (data : List Byte) : State × Resp :=
  if data.isEmpty || decide (2 ^ 20 < data.length) || fld addr 63 48 != 0 then (s, .bare stBadMsg)
  else
    let r := s.hostWrite p.val addr.toNat data
    (r.2, .bare r.1)

/-- Whether the fields of a PEEK are in range. -/
def peekOk (addr : W64) (n : Nat) : Bool := n != 0 && decide (n ≤ 2 ^ 24) && fld addr 63 48 = 0

/-- A PEEK. -/
def State.doPeek (s : State) (p : Fin 64) (addr : W64) (n : Nat) : State × Resp :=
  if peekOk addr n then s.peek p.val addr.toNat n else (s, .bare stBadMsg)

/-- A TAKE. -/
def State.doTake (s : State) (p : Fin 64) (addr : W64) (n : Nat) : State × Resp :=
  if peekOk addr n && addr.toNat % pageSize = 0 && n % pageSize = 0 then s.take p.val addr.toNat n else (s, .bare stBadMsg)

/-! LAUNCH and BIND. -/

/-- A LAUNCH message as a launch. -/
def launchOf (l : LaunchMsg) : LaunchV := ⟨l.first.toNat, l.count.toNat, l.pc.toNat % 2 ^ 48, l.pcstride.toNat, l.arg⟩

/-- A LAUNCH (R279). -/
def State.doLaunch (s : State) (p : Fin 64) (l : LaunchMsg) : State × Resp :=
  if l.pcstride.toNat % 16 != 0 || fld l.pc 63 48 != 0 then (s, .bare stBadMsg)
  else
    match s.launch p.val (launchOf l) with
    | some t => (t, .bare stOk)
    | none => (s, .bare stRefused)

/-- The words of a BIND in the order of their writes: 1 to 11, then word 0 with VALID = 1. -/
def bindWords (words : List W64) : List (Nat × W64) :=
  (List.range 11).map (fun i => (i + 1, words.getD i 0)) ++ [(0, words.getD 11 0 ||| BitVec.ofNat 64 (2 ^ 63))]

/-- Write the words of a BIND until one is refused: answers the refusal's status. -/
def State.bindWrites (s : State) (p : Fin 64) (n : Nat) (words : List W64) : State × Nat :=
  (bindWords words).foldl (fun (x : State × Nat) w =>
    if x.2 != stOk then x else x.1.writeOne p (zdirAddr n w.1) w.2) (s, stOk)

/-- STATUS of PART.ZEN_BIND. -/
def State.bindStatus (s : State) (p : Nat) : Nat := s.rdF (R.PART_ZEN_BIND p) F.PART_ZEN_BIND_STATUS

/-- A BIND: none where its RESP waits for the bind. One that names a reserved format code is rejected (R37). -/
def State.doBind (s : State) (p : Fin 64) (n : Nat) (words : List W64) : State × Option Resp :=
  if words.length != 12 || decide (32768 ≤ n) then (s, some (.bare stBadMsg))
  else if namesReserved (zdirAddr n 0) (words.getD 11 0) then (s, some (.bare stFormat))
  else
    let r := s.bindWrites p n words
    if r.2 = stOk then (r.1, if r.1.bindState p.val = 1 then none else some (.bare stOk))
    else if r.2 = stViolation then (r.1, some ⟨stBind, r.1.bindStatus p.val, [], []⟩)
    else (r.1, some ⟨r.2, if r.2 = stBusy then 5 else 0, [], []⟩)

/-- A BIND request of a session. -/
def State.bindRequest (s : State) (h : AstpHdr) (ok : Bool) (n : Nat) (words : List W64) : State :=
  if !ok || !(s.session h.session).any (fun x => x.part = h.part) then s.request h ok fun s => (s, .bare stOk)
  else
    match s.doBind h.part n words with
    | (t, some a) => t.reply h.session h.seq h.msgid a
    | (t, none) =>
      match t.session h.session with
      | some x => t.setSession h.session (some { x with bind := some (h.seq, h.msgid) })
      | none => t

/-- A CLOSE: the session closes when the RESP has been acknowledged. -/
def State.doClose (s : State) (n : Nat) : State × Resp :=
  (match s.session n with
  | some x => s.setSession n (some { x with closing := true })
  | none => s, .bare stOk)

/-- ZEN_BIND: the bind of a partition completes, and the BIND message that waits for it is answered (R225, R375). -/
def execZenBind (p : Fin 64) (s : State) : Host.Outcome State Fault Refusal :=
  .next
    (if s.bindState p.val != 1 then s
    else
      let s := s.bindDone p.val
      let st := s.bindStatus p.val
      let r : Resp := ⟨if st = 0 then stOk else stBind, st, [], []⟩
      s.each (s.net.sess.map (·.1)) fun s n =>
        match s.session n with
        | some x =>
          (match x.bind with
          | some b => if x.part = p then (s.setSession n (some { x with bind := none })).reply n b.1 b.2 r else s
          | none => s)
        | none => s)

/-! Requests of one message time (R423). -/

/-- The header of a request. -/
def reqHdr : AstpReq → AstpHdr
  | .csrRd h _ _ => h
  | .csrWr h _ _ => h
  | .write h _ _ => h
  | .peek h _ _ => h
  | .take h _ _ => h
  | .launch h _ => h
  | .bind h _ _ => h
  | .close h => h

/-- Bytes of a request's payload (R375). -/
def reqLen : AstpReq → Nat
  | .csrRd .. => 8
  | .csrWr _ _ vs => 8 + 8 * vs.length
  | .write _ _ bs => 16 + bs.length
  | .peek .. | .take .. => 16
  | .launch .. => 32
  | .bind _ _ ws => 8 + 8 * ws.length
  | .close _ => 0

/-- Whether a page that a request reads, writes or takes is held by its move (R320). -/
def State.pageWaits (s : State) (q : AstpReq) : Bool :=
  match q with
  | .take _ a n => s.takeWaits a.toNat n
  | .peek _ a n => s.hostHeld a.toNat n
  | .write _ a bs => s.hostHeld a.toNat bs.length
  | _ => false

/-- Whether a request must wait: one before it in its session has no RESP yet (R374), or a page that it names moves (R320). -/
def State.mustWait (s : State) (q : AstpReq) : Bool :=
  (s.session (reqHdr q).session).any (fun x => x.bind.isSome || !x.later.isEmpty) || s.pageWaits q

/-- Perform a request of a session that has been accepted, and answer it. -/
def State.serve (s : State) (q : AstpReq) : State :=
  let ok := hdrLenOk (reqHdr q) (reqLen q)
  match q with
  | .csrRd h a n => s.request h ok fun s => s.doCsrRd h.part a.toNat n
  | .csrWr h a vs => s.request h ok fun s => s.doCsrWr h.part a.toNat vs
  | .write h a bs => s.request h ok fun s => s.doWrite h.part a bs
  | .peek h a n => s.request h ok fun s => s.doPeek h.part a n
  | .take h a n => s.request h ok fun s => s.doTake h.part a n
  | .launch h l => s.request h ok fun s => s.doLaunch h.part l
  | .bind h e ws => s.bindRequest h ok e.toNat ws
  | .close h => s.request h ok fun s => s.doClose h.session

/-- A request joins those of its session that wait. -/
def State.putOff (s : State) (q : AstpReq) : State :=
  match s.session (reqHdr q).session with
  | some x => s.setSession (reqHdr q).session (some { x with later := x.later ++ [q] })
  | none => s

/-- The frames of a request arrive: it is performed and answered once it is accepted and nothing before it waits. -/
def State.performReq (s : State) (q : AstpReq) : State :=
  let r := s.takeIn (reqHdr q)
  if !r.2 then r.1 else if r.1.mustWait q then r.1.putOff q else r.1.serve q

/-- The first request of a session that waits is performed once nothing holds it. -/
def State.resume (s : State) (n : Nat) : State :=
  match s.session n with
  | none => s
  | some x =>
    match x.later with
    | [] => s
    | q :: rest => if x.bind.isSome || s.pageWaits q then s else (s.setSession n (some { x with later := rest })).serve q

/-- ASTP_CLOSE. -/
def execAstpClose (h : AstpHdr) (s : State) : Host.Outcome State Fault Refusal := .next (s.performReq (.close h))

/-- ASTP_CSR_RD. -/
def execAstpCsrRd (h : AstpHdr) (addr : BitVec 32) (count : Nat) (s : State) : Host.Outcome State Fault Refusal :=
  .next (s.performReq (.csrRd h addr count))

/-- ASTP_CSR_WR. -/
def execAstpCsrWr (h : AstpHdr) (addr : BitVec 32) (vals : List W64) (s : State) : Host.Outcome State Fault Refusal :=
  .next (s.performReq (.csrWr h addr vals))

/-- ASTP_WRITE. -/
def execAstpWrite (h : AstpHdr) (addr : W64) (data : List Byte) (s : State) : Host.Outcome State Fault Refusal :=
  .next (s.performReq (.write h addr data))

/-- ASTP_PEEK. -/
def execAstpPeek (h : AstpHdr) (addr : W64) (bytes : Nat) (s : State) : Host.Outcome State Fault Refusal :=
  .next (s.performReq (.peek h addr bytes))

/-- ASTP_TAKE. -/
def execAstpTake (h : AstpHdr) (addr : W64) (bytes : Nat) (s : State) : Host.Outcome State Fault Refusal :=
  .next (s.performReq (.take h addr bytes))

/-- ASTP_LAUNCH. -/
def execAstpLaunch (h : AstpHdr) (l : LaunchMsg) (s : State) : Host.Outcome State Fault Refusal :=
  .next (s.performReq (.launch h l))

/-- ASTP_BIND. -/
def execAstpBind (h : AstpHdr) (entry : BitVec 16) (words : List W64) (s : State) : Host.Outcome State Fault Refusal :=
  .next (s.performReq (.bind h entry words))

/-- What a request changes, for the test of contradiction: registers, directory entries, byte ranges written and taken, and cells
launched or stopped. -/
structure Foot where
  regs  : List Nat
  wr    : List Run
  tk    : List Run
  cells : List Nat
  deriving DecidableEq, Repr

/-- A register as the test of contradiction names it: a queue pair or region counts as one. -/
def footReg (a : Nat) : Nat :=
  if 0x00400000 ≤ a && a < 0x00410000 then a / 64 * 64
  else if 0x00500000 ≤ a && a < 0x00520000 then a / 32 * 32
  else a

/-- The cells that a register write launches, stops or aborts (R282). -/
def State.footRun (s : State) (a : Nat) (v : W64) : List Nat :=
  match csrBlock a with
  | some (.part, p, o) => if o = 0x700 && (flag v 0 || flag v 2) then (s.present p).map cellKey else []
  | _ => []

/-- What a request changes. -/
def State.foot (s : State) (q : AstpReq) : Foot :=
  match q with
  | .csrWr _ a vs =>
    let l := vs.zipIdx.map fun v => (a.toNat + 8 * v.2, v.1)
    ⟨l.map fun x => footReg x.1, [], [], l.flatMap fun x => s.footRun x.1 x.2⟩
  | .write _ a bs => ⟨[], [(a.toNat, bs.length)], [], []⟩
  | .take _ a n => ⟨[], [], [(a.toNat, n)], []⟩
  | .launch h l => ⟨[], [], [], (s.launchCells h.part.val (launchOf l)).map fun x => cellKey x.1⟩
  | .bind _ e _ => ⟨(List.range 12).map fun w => zdirAddr e.toNat w, [], [], []⟩
  | _ => ⟨[], [], [], []⟩

/-- Whether two byte ranges overlap. -/
def byteRunsMeet (a b : List Run) : Bool := a.any fun x => b.any fun y => decide (x.1 < y.1 + y.2) && decide (y.1 < x.1 + x.2)

/-- Whether two requests contradict (R423). -/
def footsMeet (a b : Foot) : Bool :=
  a.regs.any b.regs.contains || byteRunsMeet a.wr b.wr || byteRunsMeet a.wr b.tk || byteRunsMeet a.tk b.wr || a.cells.any b.cells.contains

/-- Requests in ascending session order, those of one session by SEQ. -/
def insertReq (q : AstpReq) (l : List AstpReq) : List AstpReq :=
  match l with
  | [] => [q]
  | r :: rest =>
    let a := reqHdr q
    let b := reqHdr r
    if a.session < b.session || (a.session = b.session && decide (a.seq < b.seq)) then q :: r :: rest else r :: insertReq q rest

/-- A request that lost to one performed before it, or to a management write of the same message time (R422, R423). -/
def State.conflict (s : State) (h : AstpHdr) : State :=
  (s.count (R.PART_CONFLICT_CNT h.part.val) 1).reply h.session h.seq h.msgid (.bare stConflict)

/-- The registers in which two states differ. -/
def State.changedRegs (s t : State) : List Nat :=
  ((s.csr ++ t.csr).map (·.1)).eraseDups.filter fun a => s.rd a != t.rd a

/-- Management writes of a message time, with what they change (R422). -/
def State.mgmtWrites (s : State) (l : List (BitVec 32 × W64)) : State × Foot :=
  l.foldl (fun (x : State × Foot) w =>
    let a := w.1.toNat
    let y := x.1.attempt .mgmt a fun s => s.csrWrite .mgmt a 64 w.2
    let regs := (if y.2 then [a] else []) ++ x.1.changedRegs y.1
    (y.1, { x.2 with
      regs := x.2.regs ++ regs.map footReg
      cells := x.2.cells ++ (if y.2 then x.1.footRun a w.2 else []) })) (s, ⟨[], [], [], []⟩)

/-- A message of a message time meets those before it that were accepted (R423). -/
def State.meetMsg (x : State × List (Nat × Foot)) (q : AstpReq) : State × List (Nat × Foot) :=
  let h := reqHdr q
  let f := x.1.foot q
  let r := x.1.takeIn h
  if !r.2 then (r.1, x.2)
  else if x.2.any fun g => g.1 != h.session && footsMeet g.2 f then (r.1.conflict h, x.2)
  else (if r.1.mustWait q then r.1.putOff q else r.1.serve q, (h.session, f) :: x.2)

/-- MESSAGE_TIME_END: management writes come first, then the messages in session order. -/
def execMessageTimeEnd (msgs : List AstpReq) (mgmt : List (BitVec 32 × W64)) (s : State) : Host.Outcome State Fault Refusal :=
  let m := s.mgmtWrites mgmt
  .next ((msgs.foldl (fun l q => insertReq q l) []).foldl State.meetMsg (m.1, [(0, m.2)])).1

end Sys2Proof.Machine
end

