-- ==== Sys2Proof/Machine/Dispatch.lean ====
section
/-! DEFINITION. The dispatcher: one arm per command, each one direct call of that command's meaning. -/

namespace Sys2Proof.Machine

/-- The effect of a command on everything but the queue. -/
def exec (i : Instr) (s : State) : Host.Outcome State Fault Refusal :=
  match i with
  | .ctlNop c p f => Sys2Proof.Machine.execCtlNop c p f s
  | .ctlBr c p f => Sys2Proof.Machine.execCtlBr c p f s
  | .ctlCall c p f => Sys2Proof.Machine.execCtlCall c p f s
  | .ctlJr c p f => Sys2Proof.Machine.execCtlJr c p f s
  | .ctlFence c p f => Sys2Proof.Machine.execCtlFence c p f s
  | .ctlArrive c p f => Sys2Proof.Machine.execCtlArrive c p f s
  | .ctlWbar c p f => Sys2Proof.Machine.execCtlWbar c p f s
  | .ctlWtime c p f => Sys2Proof.Machine.execCtlWtime c p f s
  | .ctlHalt c p f => Sys2Proof.Machine.execCtlHalt c p f s
  | .scalLi c p f => Sys2Proof.Machine.execScalLi c p f s
  | .scalAdd c p f => Sys2Proof.Machine.execScalAdd c p f s
  | .scalSub c p f => Sys2Proof.Machine.execScalSub c p f s
  | .scalMul c p f => Sys2Proof.Machine.execScalMul c p f s
  | .scalAnd c p f => Sys2Proof.Machine.execScalAnd c p f s
  | .scalOr c p f => Sys2Proof.Machine.execScalOr c p f s
  | .scalXor c p f => Sys2Proof.Machine.execScalXor c p f s
  | .scalShl c p f => Sys2Proof.Machine.execScalShl c p f s
  | .scalShr c p f => Sys2Proof.Machine.execScalShr c p f s
  | .scalSra c p f => Sys2Proof.Machine.execScalSra c p f s
  | .scalMin c p f => Sys2Proof.Machine.execScalMin c p f s
  | .scalMax c p f => Sys2Proof.Machine.execScalMax c p f s
  | .scalCmpEq c p f => Sys2Proof.Machine.execScalCmpEq c p f s
  | .scalCmpNe c p f => Sys2Proof.Machine.execScalCmpNe c p f s
  | .scalCmpLt c p f => Sys2Proof.Machine.execScalCmpLt c p f s
  | .scalCmpLe c p f => Sys2Proof.Machine.execScalCmpLe c p f s
  | .scalCmpLtu c p f => Sys2Proof.Machine.execScalCmpLtu c p f s
  | .scalCmpLeu c p f => Sys2Proof.Machine.execScalCmpLeu c p f s
  | .scalPmov c p f => Sys2Proof.Machine.execScalPmov c p f s
  | .scalPnot c p f => Sys2Proof.Machine.execScalPnot c p f s
  | .scalPand c p f => Sys2Proof.Machine.execScalPand c p f s
  | .scalPor c p f => Sys2Proof.Machine.execScalPor c p f s
  | .scalDget c p f => Sys2Proof.Machine.execScalDget c p f s
  | .scalDset c p f => Sys2Proof.Machine.execScalDset c p f s
  | .scalRdtime c p f => Sys2Proof.Machine.execScalRdtime c p f s
  | .scalRdbar c p f => Sys2Proof.Machine.execScalRdbar c p f s
  | .scalFadd c p f => Sys2Proof.Machine.execScalFadd c p f s
  | .scalFsub c p f => Sys2Proof.Machine.execScalFsub c p f s
  | .scalFmul c p f => Sys2Proof.Machine.execScalFmul c p f s
  | .scalFfma c p f => Sys2Proof.Machine.execScalFfma c p f s
  | .scalFdiv c p f => Sys2Proof.Machine.execScalFdiv c p f s
  | .scalFsqrt c p f => Sys2Proof.Machine.execScalFsqrt c p f s
  | .scalFmax c p f => Sys2Proof.Machine.execScalFmax c p f s
  | .scalFmin c p f => Sys2Proof.Machine.execScalFmin c p f s
  | .scalFcmpEq c p f => Sys2Proof.Machine.execScalFcmpEq c p f s
  | .scalFcmpLt c p f => Sys2Proof.Machine.execScalFcmpLt c p f s
  | .scalFcmpLe c p f => Sys2Proof.Machine.execScalFcmpLe c p f s
  | .scalI2f c p f => Sys2Proof.Machine.execScalI2f c p f s
  | .scalF2i c p f => Sys2Proof.Machine.execScalF2i c p f s
  | .scalFcvt c p f => Sys2Proof.Machine.execScalFcvt c p f s
  | .movCopy c p f => Sys2Proof.Machine.execMovCopy c p f s
  | .movLds c p f => Sys2Proof.Machine.execMovLds c p f s
  | .movSts c p f => Sys2Proof.Machine.execMovSts c p f s
  | .movAadd32 c p f => Sys2Proof.Machine.execMovAadd32 c p f s
  | .movAadd64 c p f => Sys2Proof.Machine.execMovAadd64 c p f s
  | .movAaddfx c p f => Sys2Proof.Machine.execMovAaddfx c p f s
  | .movSwap c p f => Sys2Proof.Machine.execMovSwap c p f s
  | .movGadd c p f => Sys2Proof.Machine.execMovGadd c p f s
  | .movTake c p f => Sys2Proof.Machine.execMovTake c p f s
  | .movSpill c p f => Sys2Proof.Machine.execMovSpill c p f s
  | .movFill c p f => Sys2Proof.Machine.execMovFill c p f s
  | .movHint c p f => Sys2Proof.Machine.execMovHint c p f s
  | .duskMm c p f => Sys2Proof.Machine.execDuskMm c p f s
  | .dawnMm c p f => Sys2Proof.Machine.execDawnMm c p f s
  | .dawnMmt c p f => Sys2Proof.Machine.execDawnMmt c p f s
  | .vecAdd c p f => Sys2Proof.Machine.execVecAdd c p f s
  | .vecSub c p f => Sys2Proof.Machine.execVecSub c p f s
  | .vecMul c p f => Sys2Proof.Machine.execVecMul c p f s
  | .vecFma c p f => Sys2Proof.Machine.execVecFma c p f s
  | .vecMax c p f => Sys2Proof.Machine.execVecMax c p f s
  | .vecMin c p f => Sys2Proof.Machine.execVecMin c p f s
  | .vecAbs c p f => Sys2Proof.Machine.execVecAbs c p f s
  | .vecNeg c p f => Sys2Proof.Machine.execVecNeg c p f s
  | .vecLdexp c p f => Sys2Proof.Machine.execVecLdexp c p f s
  | .vecCmp c p f => Sys2Proof.Machine.execVecCmp c p f s
  | .vecSel c p f => Sys2Proof.Machine.execVecSel c p f s
  | .vecRnd c p f => Sys2Proof.Machine.execVecRnd c p f s
  | .vecMov c p f => Sys2Proof.Machine.execVecMov c p f s
  | .vecDiv c p f => Sys2Proof.Machine.execVecDiv c p f s
  | .vecSqrt c p f => Sys2Proof.Machine.execVecSqrt c p f s
  | .vecRsqrt c p f => Sys2Proof.Machine.execVecRsqrt c p f s
  | .vecExp2 c p f => Sys2Proof.Machine.execVecExp2 c p f s
  | .vecLog2 c p f => Sys2Proof.Machine.execVecLog2 c p f s
  | .vecRsum c p f => Sys2Proof.Machine.execVecRsum c p f s
  | .vecCsum c p f => Sys2Proof.Machine.execVecCsum c p f s
  | .vecRmax c p f => Sys2Proof.Machine.execVecRmax c p f s
  | .vecCmax c p f => Sys2Proof.Machine.execVecCmax c p f s
  | .vecAcc c p f => Sys2Proof.Machine.execVecAcc c p f s
  | .vecLd c p f => Sys2Proof.Machine.execVecLd c p f s
  | .vecSt c p f => Sys2Proof.Machine.execVecSt c p f s
  | .rowSoftmax c p f => Sys2Proof.Machine.execRowSoftmax c p f s
  | .rowSmbwd c p f => Sys2Proof.Machine.execRowSmbwd c p f s
  | .rowNorm c p f => Sys2Proof.Machine.execRowNorm c p f s
  | .rowRms c p f => Sys2Proof.Machine.execRowRms c p f s
  | .rowNormbwd c p f => Sys2Proof.Machine.execRowNormbwd c p f s
  | .rowLse c p f => Sys2Proof.Machine.execRowLse c p f s
  | .rowStst c p f => Sys2Proof.Machine.execRowStst c p f s
  | .rowStld c p f => Sys2Proof.Machine.execRowStld c p f s
  | .zenLd c p f => Sys2Proof.Machine.execZenLd c p f s
  | .zenSt c p f => Sys2Proof.Machine.execZenSt c p f s
  | .zenSetsc c p f => Sys2Proof.Machine.execZenSetsc c p f s
  | .zenNsq c p f => Sys2Proof.Machine.execZenNsq c p f s
  | .zenAmax c p f => Sys2Proof.Machine.execZenAmax c p f s
  | .zenSgn c p f => Sys2Proof.Machine.execZenSgn c p f s
  | .zenLdlt c p f => Sys2Proof.Machine.execZenLdlt c p f s
  | .zenNext c p f => Sys2Proof.Machine.execZenNext c p f s
  | .collSlot c p f => Sys2Proof.Machine.execCollSlot c p f s
  | .collCancel c p f => Sys2Proof.Machine.execCollCancel c p f s
  | .chkVerdict c p f => Sys2Proof.Machine.execChkVerdict c p f s
  | .chkRetract c p f => Sys2Proof.Machine.execChkRetract c p f s
  | .chkSample c p f => Sys2Proof.Machine.execChkSample c p f s
  | .chkVlast c p f => Sys2Proof.Machine.execChkVlast c p f s
  | .instructionFetch c => Sys2Proof.Machine.execInstructionFetch c s
  | .unitAccept c u => Sys2Proof.Machine.execUnitAccept c u s
  | .instructionRetire c u => Sys2Proof.Machine.execInstructionRetire c u s
  | .duskPassAccept c => Sys2Proof.Machine.execDuskPassAccept c s
  | .columnGate c a => Sys2Proof.Machine.execColumnGate c a s
  | .prescanDone c a => Sys2Proof.Machine.execPrescanDone c a s
  | .passAbandon c a => Sys2Proof.Machine.execPassAbandon c a s
  | .duskPassRetire c => Sys2Proof.Machine.execDuskPassRetire c s
  | .dawnPassAccept c => Sys2Proof.Machine.execDawnPassAccept c s
  | .dawnPassRetire c => Sys2Proof.Machine.execDawnPassRetire c s
  | .cellStop c => Sys2Proof.Machine.execCellStop c s
  | .cellHaltComplete c => Sys2Proof.Machine.execCellHaltComplete c s
  | .barrierWaitEnd c => Sys2Proof.Machine.execBarrierWaitEnd c s
  | .timeWaitEnd c => Sys2Proof.Machine.execTimeWaitEnd c s
  | .collActionComplete c ent => Sys2Proof.Machine.execCollActionComplete c ent s
  | .parallaxCheckCompare c r => Sys2Proof.Machine.execParallaxCheckCompare c r s
  | .parallaxReplay c r differs => Sys2Proof.Machine.execParallaxReplay c r differs s
  | .parallaxOtherCell c r differs => Sys2Proof.Machine.execParallaxOtherCell c r differs s
  | .slotFence c => Sys2Proof.Machine.execSlotFence c s
  | .servicePoint p => Sys2Proof.Machine.execServicePoint p s
  | .almanacClose p => Sys2Proof.Machine.execAlmanacClose p s
  | .almanacStepEnd p => Sys2Proof.Machine.execAlmanacStepEnd p s
  | .almSlotConfWrite pl slot v => Sys2Proof.Machine.execAlmSlotConfWrite pl slot v s
  | .almRangeWrite pl p v => Sys2Proof.Machine.execAlmRangeWrite pl p v s
  | .almCkptSave pl p => Sys2Proof.Machine.execAlmCkptSave pl p s
  | .almCkptRestore pl p => Sys2Proof.Machine.execAlmCkptRestore pl p s
  | .almCkptPerform p => Sys2Proof.Machine.execAlmCkptPerform p s
  | .almSlotUe slot word => Sys2Proof.Machine.execAlmSlotUe slot word s
  | .zenSliceStart d => Sys2Proof.Machine.execZenSliceStart d s
  | .zenPassOneStart p => Sys2Proof.Machine.execZenPassOneStart p s
  | .zenPassOneDone p => Sys2Proof.Machine.execZenPassOneDone p s
  | .zenPassTwoStart p => Sys2Proof.Machine.execZenPassTwoStart p s
  | .zenPassTwoDone p => Sys2Proof.Machine.execZenPassTwoDone p s
  | .zenClearDone p => Sys2Proof.Machine.execZenClearDone p s
  | .zenDirWrite pl entry word v => Sys2Proof.Machine.execZenDirWrite pl entry word v s
  | .zenBind p => Sys2Proof.Machine.execZenBind p s
  | .zenRangeWrite pl p v => Sys2Proof.Machine.execZenRangeWrite pl p v s
  | .verdictSeal p => Sys2Proof.Machine.execVerdictSeal p s
  | .verdictRecordReceive p rec => Sys2Proof.Machine.execVerdictRecordReceive p rec s
  | .finalVerdict p => Sys2Proof.Machine.execFinalVerdict p s
  | .vrdRetr pl p => Sys2Proof.Machine.execVrdRetr pl p s
  | .vrdUncClear pl p => Sys2Proof.Machine.execVrdUncClear pl p s
  | .runCtlStop pl p => Sys2Proof.Machine.execRunCtlStop pl p s
  | .runCtlResume pl p => Sys2Proof.Machine.execRunCtlResume pl p s
  | .runCtlAbort pl p => Sys2Proof.Machine.execRunCtlAbort pl p s
  | .nanTrapClear pl p => Sys2Proof.Machine.execNanTrapClear pl p s
  | .numModeWrite pl p v => Sys2Proof.Machine.execNumModeWrite pl p v s
  | .barCfgWrite pl p v => Sys2Proof.Machine.execBarCfgWrite pl p v s
  | .rfenceWrite pl p k isB v => Sys2Proof.Machine.execRfenceWrite pl p k isB v s
  | .rfencePass p k => Sys2Proof.Machine.execRfencePass p k s
  | .placementWindowEnd d p => Sys2Proof.Machine.execPlacementWindowEnd d p s
  | .moveStart d => Sys2Proof.Machine.execMoveStart d s
  | .moveSwitch page => Sys2Proof.Machine.execMoveSwitch page s
  | .moveCommit page => Sys2Proof.Machine.execMoveCommit page s
  | .moveDone page => Sys2Proof.Machine.execMoveDone page s
  | .takeFrameRelease frame => Sys2Proof.Machine.execTakeFrameRelease frame s
  | .bistRowStart c => Sys2Proof.Machine.execBistRowStart c s
  | .bistRowDone c fails => Sys2Proof.Machine.execBistRowDone c fails s
  | .bistEscalate c => Sys2Proof.Machine.execBistEscalate c s
  | .arbEscalate c m => Sys2Proof.Machine.execArbEscalate c m s
  | .portBCollide c word a b => Sys2Proof.Machine.execPortBCollide c word a b s
  | .bistFull pl c => Sys2Proof.Machine.execBistFull pl c s
  | .eccWriteback c word => Sys2Proof.Machine.execEccWriteback c word s
  | .stkScrub n line f => Sys2Proof.Machine.execStkScrub n line f s
  | .stkRemapGo pl n log => Sys2Proof.Machine.execStkRemapGo pl n log s
  | .stkRemapSwitch n => Sys2Proof.Machine.execStkRemapSwitch n s
  | .stkRemapAbort n byReset => Sys2Proof.Machine.execStkRemapAbort n byReset s
  | .spanFlitReceive sp fl => Sys2Proof.Machine.execSpanFlitReceive sp fl s
  | .spanCreditReturn sp fl => Sys2Proof.Machine.execSpanCreditReturn sp fl s
  | .spanNakReceive sp fl => Sys2Proof.Machine.execSpanNakReceive sp fl s
  | .spanRetrain sp badTx badRx => Sys2Proof.Machine.execSpanRetrain sp badTx badRx s
  | .spanSyncReceive sp fl => Sys2Proof.Machine.execSpanSyncReceive sp fl s
  | .ethCfgWrite pl h q v => Sys2Proof.Machine.execEthCfgWrite pl h q v s
  | .linkUp sub => Sys2Proof.Machine.execLinkUp sub s
  | .subportReset sub => Sys2Proof.Machine.execSubportReset sub s
  | .arpRequest sub target sender mac => Sys2Proof.Machine.execArpRequest sub target sender mac s
  | .neighbourSolicitation sub target sender mac => Sys2Proof.Machine.execNeighbourSolicitation sub target sender mac s
  | .echoRequest sub dst src data => Sys2Proof.Machine.execEchoRequest sub dst src data s
  | .peerMacExpire sub ip => Sys2Proof.Machine.execPeerMacExpire sub ip s
  | .ethFrameDrop sub why => Sys2Proof.Machine.execEthFrameDrop sub why s
  | .astpFrameBad sub udpLen bytes => Sys2Proof.Machine.execAstpFrameBad sub udpLen bytes s
  | .astpOpen h => Sys2Proof.Machine.execAstpOpen h s
  | .astpClose h => Sys2Proof.Machine.execAstpClose h s
  | .astpAck h => Sys2Proof.Machine.execAstpAck h s
  | .astpCsrRd h addr count => Sys2Proof.Machine.execAstpCsrRd h addr count s
  | .astpCsrWr h addr vals => Sys2Proof.Machine.execAstpCsrWr h addr vals s
  | .astpWrite h addr data => Sys2Proof.Machine.execAstpWrite h addr data s
  | .astpPeek h addr bytes => Sys2Proof.Machine.execAstpPeek h addr bytes s
  | .astpTake h addr bytes => Sys2Proof.Machine.execAstpTake h addr bytes s
  | .astpLaunch h l => Sys2Proof.Machine.execAstpLaunch h l s
  | .astpBind h entry words => Sys2Proof.Machine.execAstpBind h entry words s
  | .astpNoSession f => Sys2Proof.Machine.execAstpNoSession f s
  | .astpRetxTimeout session seq => Sys2Proof.Machine.execAstpRetxTimeout session seq s
  | .astpSessionTimeout session => Sys2Proof.Machine.execAstpSessionTimeout session s
  | .messageTimeEnd msgs mgmt => Sys2Proof.Machine.execMessageTimeEnd msgs mgmt s
  | .astpTensor h t => Sys2Proof.Machine.execAstpTensor h t s
  | .astpVerdict h ent rec => Sys2Proof.Machine.execAstpVerdict h ent rec s
  | .astpFarewell h reason time => Sys2Proof.Machine.execAstpFarewell h reason time s
  | .roceRead sub q psn key addr len => Sys2Proof.Machine.execRoceRead sub q psn key addr len s
  | .roceWrite sub q psn key addr data imm => Sys2Proof.Machine.execRoceWrite sub q psn key addr data imm s
  | .roceSend sub q psn data imm => Sys2Proof.Machine.execRoceSend sub q psn data imm s
  | .roceInvalidRequest sub q psn opcode => Sys2Proof.Machine.execRoceInvalidRequest sub q psn opcode s
  | .roceCnp sub => Sys2Proof.Machine.execRoceCnp sub s
  | .qpWrite pl n word v => Sys2Proof.Machine.execQpWrite pl n word v s
  | .mrWrite pl n word v => Sys2Proof.Machine.execMrWrite pl n word v s
  | .ephSlotStart h n => Sys2Proof.Machine.execEphSlotStart h n s
  | .ephSlotEnd h n => Sys2Proof.Machine.execEphSlotEnd h n s
  | .vdeadline h n => Sys2Proof.Machine.execVdeadline h n s
  | .ephLaunch h n => Sys2Proof.Machine.execEphLaunch h n s
  | .ephBarrier h n => Sys2Proof.Machine.execEphBarrier h n s
  | .ephPrewake h n => Sys2Proof.Machine.execEphPrewake h n s
  | .peerWrite pl h n word v => Sys2Proof.Machine.execPeerWrite pl h n word v s
  | .ephRangeWrite pl p h v => Sys2Proof.Machine.execEphRangeWrite pl p h v s
  | .ttCommit pl p => Sys2Proof.Machine.execTtCommit pl p s
  | .ttCommitDone p => Sys2Proof.Machine.execTtCommitDone p s
  | .ttSwitch pl p => Sys2Proof.Machine.execTtSwitch pl p s
  | .timetableSwitch p => Sys2Proof.Machine.execTimetableSwitch p s
  | .ptpAnnounce a => Sys2Proof.Machine.execPtpAnnounce a s
  | .ptpSync sub domain transport logInt offset => Sys2Proof.Machine.execPtpSync sub domain transport logInt offset s
  | .ptpDelayResp sub domain transport delay => Sys2Proof.Machine.execPtpDelayResp sub domain transport delay s
  | .ptpDelayReq sub => Sys2Proof.Machine.execPtpDelayReq sub s
  | .syncTimeout => Sys2Proof.Machine.execSyncTimeout s
  | .holdoverExpire => Sys2Proof.Machine.execHoldoverExpire s
  | .powerSample m => Sys2Proof.Machine.execPowerSample m s
  | .thermalTrip => Sys2Proof.Machine.execThermalTrip s
  | .inputLoss => Sys2Proof.Machine.execInputLoss s
  | .inputRestore => Sys2Proof.Machine.execInputRestore s
  | .pwrEnRise => Sys2Proof.Machine.execPwrEnRise s
  | .pwrEnFall => Sys2Proof.Machine.execPwrEnFall s
  | .pwrCfgWrite pl v => Sys2Proof.Machine.execPwrCfgWrite pl v s
  | .startupRom => Sys2Proof.Machine.execStartupRom s
  | .startupRails regulated inputsAgree => Sys2Proof.Machine.execStartupRails regulated inputsAgree s
  | .startupFuses wordsOk item => Sys2Proof.Machine.execStartupFuses wordsOk item s
  | .startupConfig => Sys2Proof.Machine.execStartupConfig s
  | .startupStacks failed => Sys2Proof.Machine.execStartupStacks failed s
  | .startupCells => Sys2Proof.Machine.execStartupCells s
  | .startupLinks up => Sys2Proof.Machine.execStartupLinks up s
  | .startupTime => Sys2Proof.Machine.execStartupTime s
  | .startupReady => Sys2Proof.Machine.execStartupReady s
  | .fwBootTimeout => Sys2Proof.Machine.execFwBootTimeout s
  | .cellClockStop c => Sys2Proof.Machine.execCellClockStop c s
  | .cellWake c => Sys2Proof.Machine.execCellWake c s
  | .resetModule pl => Sys2Proof.Machine.execResetModule pl s
  | .resetModuleAbrupt pl => Sys2Proof.Machine.execResetModuleAbrupt pl s
  | .resetCell pl c => Sys2Proof.Machine.execResetCell pl c s
  | .resetStackCtl pl n => Sys2Proof.Machine.execResetStackCtl pl n s
  | .resetComet pl d => Sys2Proof.Machine.execResetComet pl d s
  | .resetSpanPort pl sp => Sys2Proof.Machine.execResetSpanPort pl sp s
  | .resetEthSub pl sub => Sys2Proof.Machine.execResetEthSub pl sub s
  | .resetHznMac pl h => Sys2Proof.Machine.execResetHznMac pl h s
  | .svcFence pl c => Sys2Proof.Machine.execSvcFence pl c s
  | .svcRejoin pl c sramOk selfOk => Sys2Proof.Machine.execSvcRejoin pl c sramOk selfOk s
  | .svcRetire pl c => Sys2Proof.Machine.execSvcRetire pl c s
  | .svcFuseCommit pl d stop => Sys2Proof.Machine.execSvcFuseCommit pl d stop s
  | .rejoinBacking c => Sys2Proof.Machine.execRejoinBacking c s
  | .fsrWrite => Sys2Proof.Machine.execFsrWrite s
  | .fsrExport subscriber => Sys2Proof.Machine.execFsrExport subscriber s
  | .fsrPushRetry subscriber reached => Sys2Proof.Machine.execFsrPushRetry subscriber reached s
  | .fwVerify pl => Sys2Proof.Machine.execFwVerify pl s
  | .fwActivate pl => Sys2Proof.Machine.execFwActivate pl s
  | .fwCommitSvn pl => Sys2Proof.Machine.execFwCommitSvn pl s
  | .fwUpdate img => Sys2Proof.Machine.execFwUpdate img s
  | .configWrite => Sys2Proof.Machine.execConfigWrite s
  | .quote nonce burnOk => Sys2Proof.Machine.execQuote nonce burnOk s
  | .dbgDataAccess pl c write => Sys2Proof.Machine.execDbgDataAccess pl c write s
  | .cellmapWrite pl p j v => Sys2Proof.Machine.execCellmapWrite pl p j v s
  | .capWrite pl p k v => Sys2Proof.Machine.execCapWrite pl p k v s
  | .csrWrite pl addr width v => Sys2Proof.Machine.execCsrWrite pl addr width v s
  | .spanLinkTrained sp => Sys2Proof.Machine.execSpanLinkTrained sp s
  | .sourceDisappears => Sys2Proof.Machine.execSourceDisappears s
  | .peerMacResolved sub ip mac => Sys2Proof.Machine.execPeerMacResolved sub ip mac s
  | .configurationUpdate settings verifies => Sys2Proof.Machine.execConfigurationUpdate settings verifies s

end Sys2Proof.Machine
end

