-- ==== Sys2Proof/Machine/Pins.lean ====
section
/-! DEFINITION. The contacts of the module (R366, R486-R490): what each one carries, and what the module drives on the sideband. -/

namespace Sys2Proof.Machine

/-- What a contact of a high-speed field does (R487, Table: Lane contacts). -/
inductive HsFunc where
  | ground
  | txPos
  | txNeg
  | rxPos
  | rxNeg
  deriving DecidableEq, Repr

/-- The function of position k of a lane. -/
def laneFunc (k : Nat) : HsFunc :=
  match k with
  | 2 => .txPos
  | 3 => .txNeg
  | 5 => .rxPos
  | 6 => .rxNeg
  | _ => .ground

/-- Port, lane and function of contact HSf-n, n from 1 to 272; the last 16 belong to no lane (R486, R487). -/
def hsContact (f : Fin 8) (n : Nat) : Option (Nat × Nat) × HsFunc :=
  if 1 ≤ n && n ≤ 256 then (some (4 * f.val + (n - 1) / 64, (n - 1) / 8 % 8), laneFunc ((n - 1) % 8 + 1)) else (none, .ground)

/-- Sub-ports of a port in a mode, and the one that a lane belongs to (R366, Table: Port modes). -/
def modeSubs (mode : Nat) : Nat := 2 ^ mode
def laneSub (mode lane : Nat) : Nat := lane / (8 / modeSubs mode)

/-- The sub-port that a lane of a port belongs to under the port's MODE. -/
def State.subOfLane (s : State) (port lane : Nat) : Nat :=
  laneSub (s.rdF (R.HZN_ETH_CFGq (port / 8) (port % 8)) F.HZN_ETH_CFGq_MODE) lane

/-- The signals of field MG (R489, Table: MG contacts). -/
inductive MgSignal where
  | gnd
  | mgtTx (pos : Bool)
  | mgtRx (pos : Bool)
  | pwrEn
  | pwrOk
  | alertN
  | faultN
  | pres (b : Bool)
  deriving DecidableEq, Repr

/-- The signal of contact MG-n; none for a reserved one. -/
def mgContact (n : Nat) : Option MgSignal :=
  if [1, 4, 7, 10, 13, 24].contains n then some .gnd
  else match n with
    | 2 => some (.mgtTx true)
    | 3 => some (.mgtTx false)
    | 5 => some (.mgtRx true)
    | 6 => some (.mgtRx false)
    | 8 => some .pwrEn
    | 9 => some .pwrOk
    | 11 => some .alertN
    | 12 => some .faultN
    | 14 => some (.pres false)
    | 23 => some (.pres true)
    | _ => none

/-- The level that the module drives on a sideband contact, none where it drives none: PWR_OK follows the main rails, and the open-drain
outputs are pulled low or off (R456, R460, R489, R490). Without the standby rail PWR_OK is low and the others are off. -/
def State.sideband (s : State) (x : MgSignal) : Option Bool :=
  match x with
  | .pwrOk => some (s.pwr.input && s.pwr.ok)
  | .alertN => if s.pwr.input && s.pwr.alert then some false else none
  | .faultN => if s.pwr.input && s.pwr.fault then some false else none
  | .gnd => some false
  | _ => none

end Sys2Proof.Machine
end

