-- ==== Sys2Proof/Machine/Tick.lean ====
section
/-! DEFINITION. One cc with no command waiting: what happens at every cc whatever is commanded (log entry 2). -/

namespace Sys2Proof.Machine

/-- The cell clock in MHz (R452). -/
def State.mhz (s : State) : Nat := 1750 - 25 * s.rdF R.PANEL_PWR_STAT F.PANEL_PWR_STAT_FSTEP

/-- What one cc adds to the Meridian counter, in units of 2⁻³² ns (R389, R455): a nominal cc at the rate of the servo. -/
def State.merInc (s : State) : Nat := (2 ^ 32 * 1000 * (10 ^ 9 + s.time.rate)).toNat / (s.mhz * 10 ^ 9)

/-- How far the counter of die `d` stands from the reference after a cc in which that has advanced by `ns`: it may drift within ±2 ns,
and does not run backwards (R389, R390). -/
def State.drift (s : State) (d ns : Nat) : Int :=
  max (SMap.get s.time.off 0 d - (ns : Int)) (max (-2) (min (Config.skew d s.time.cc) 2))

/-- The Meridian counters and the count of cc advance. -/
def State.tickTime (s : State) : State :=
  let x := s.time.ns.toNat * 2 ^ 32 + s.time.frac + s.merInc
  let off := (List.range 20).foldl (fun m d => SMap.set m 0 d (s.drift d (x / 2 ^ 32 - s.time.ns.toNat))) s.time.off
  { s with time := ⟨BitVec.ofNat 64 (x / 2 ^ 32), x % 2 ^ 32, s.time.cc + 1, s.time.rate, off, s.time.free⟩ }

/-- The time since the start of RAILS advances (BOOT_STAT, R460). -/
def State.tickBoot (s : State) : State :=
  let fs := s.pwr.fs + 10 ^ 9 / s.mhz
  { s with pwr := { s.pwr with fs := fs } }.wrF R.MGMT_BOOT_STAT F.MGMT_BOOT_STAT_MS (min (fs / 10 ^ 12) (2 ^ 32 - 1))

/-- An array of a cell for one cc: a ramp of 64 cc ends, and an array without work counts its idle cc (R117, R146). -/
def State.tickArr (s : State) (c : CellId) (a : Arr) : State :=
  let x := s.cell c
  let cols := s.rdF (arrStatReg c a) colsFld
  if cols = 1 then (if x.arrIdle a + 1 < 64 then s.setArrIdle c a (x.arrIdle a + 1) else s.ramped c a)
  else if cols = 2 then s.setArrIdle c a (if x.arrBusy a then 0 else x.arrIdle a + 1)
  else s

/-- The cc for which the stop condition of a cell's clock has held (R463). -/
def State.tickIdle (s : State) (c : CellId) : State :=
  s.setCell c { s.cell c with idle := if s.clockIdle c then (s.cell c).idle + 1 else 0 }

/-- A cell for one cc: it counts a wait, whose effect a stopped clock does not change (R288, R464), an instruction held at issue
(R288, R291) and a vec.acc held by its bank (R199), and where its clock runs, its idle times. -/
def State.tickCell (s : State) (c : CellId) : State :=
  let st := s.runState c
  let s := if st = stWaitBar || st = stWaitTime then s.count (R.CELL_SEQ_WAIT_CNT c) 1 else s
  let s := if st = stRun && (s.cell c).held.isSome then s.count (R.CELL_SEQ_STALL_CNT c) 1 else s
  let s := if s.vecWaits c then s.count (R.CELL_VEC_WAIT_CNT c) 1 else s
  if s.rdF (R.CELL_CLK_STAT c) F.CELL_CLK_STAT_RUN = 0 then s
  else ((s.tickArr c .dusk).tickArr c .dawn).tickIdle c

/-- A slice that runs a partition counts its cc (R240). -/
def State.tickZen (s : State) (d : Nat) : State :=
  if (SMap.get s.zslice ZSlice.reset d).cur.isSome then s.count (R.DIE_ZEN_BUSY_CNT d) 1 else s

/-- Errors of stored bits arise at no command of the module: where and when is free (log entry 71). -/
def State.tickUpset (s : State) : State :=
  { s with
    ce := match Config.upset s.time.cc with
      | some (k, some p) => if s.ce.any (·.1 = markKey k) then s.ce else (markKey k, p % 72) :: s.ce
      | _ => s.ce
    ue := match Config.upset s.time.cc with
      | some (k, none) => insertNat (markKey k) s.ue
      | _ => s.ue }

/-- Every cell slot of the module. -/
def allSlots : List CellId := (List.range (16 * 66)).filterMap fun k => mkCell (k / 66) (k % 66)

/-- One cc of the module. In standby nothing runs. -/
def State.tick (s : State) : State :=
  if s.pwr.ok then
    ((s.tickUpset.tickTime.tickBoot.each allSlots State.tickCell).each (List.range 16) State.tickZen).spanTick
  else s

end Sys2Proof.Machine
end

