-- ==== Sys2Proof/Machine/Held.lean ====
section
/-! DEFINITION. What waits inside the module is tried again at every cc (log entries 2, 72): instructions that their contexts hold, and the
requests and transfers that a page in SWITCH holds. -/

namespace Sys2Proof.Machine

/-- A context tries the instruction that it holds again (R260, R263, R264). -/
def State.retryCtx (s : State) (c : Ctx) : State :=
  match (s.ctx c).held with
  | some i => nextOf (exec i s) s
  | none => s

/-- The cells and Zenith contexts, in the order of their numbers. -/
def State.contexts (s : State) : List Ctx :=
  (s.cells.filterMap fun x => (mkCell (x.1 / 66) (x.1 % 66)).map Ctx.cell) ++
    s.zctx.map fun x => Ctx.zen (Fin.ofNat 16 (x.1 / 64)) (Fin.ofNat 64 x.1)

/-- The RoCEv2 requests that wait are tried again in arrival order (R320). -/
def State.retryRoce (s : State) : State :=
  s.net.later.foldl (fun s i => nextOf (exec i s) s) { s with net := { s.net with later := [] } }

/-- The receives whose transfers are wholly staged are completed (R319, R378). -/
def State.retryStaged (s : State) : State :=
  if s.net.stage.isEmpty then s
  else s.each (List.range 64) fun s p => s.each ((s.allArmed p).filter fun x => x.2.recv && x.2.status.isNone) fun s x => s.complete p x

/-- One cc with no command waiting: what waited is tried again, and the clocks advance. In standby nothing runs. -/
def State.cc (s : State) : State :=
  if s.pwr.ok then
    ((((s.each s.contexts State.retryCtx).retryRoce.each (s.net.sess.map (·.1)) State.resume).retryStaged).resolveIps.flow).tick
  else s

end Sys2Proof.Machine
end

