-- ==== Sys2Proof/Certificates/Slice0/Obligations.lean ====
section
/-! DEFINITION. The statements for the provers. -/

open Sys2Proof Sys2Proof.Machine

namespace Sys2Proof.Claim

/-! Words that the statements share. -/

/-- Memory is as it was: the directory, every byte, the frames, the error marks, and the tiers' moves and fences. -/
def MemSame (s t : State) : Prop :=
  t.dir = s.dir ∧ t.bytes = s.bytes ∧ t.frames = s.frames ∧ t.ue = s.ue ∧ t.ce = s.ce ∧ t.tiers = s.tiers

/-- The Zenith passes, the Almanac, the verdicts and the timetables are as they were. -/
def StepSame (s t : State) : Prop :=
  t.zrun = s.zrun ∧ t.zslice = s.zslice ∧ t.alm = s.alm ∧ t.vrd = s.vrd ∧ t.tts = s.tts

/-- The network, PTP, the clocks and the Span ports are as they were. -/
def FabricSame (s t : State) : Prop := t.net = s.net ∧ t.ptp = s.ptp ∧ t.time = s.time ∧ t.span = s.span

/-- The queue, the faults, the service state, Lodestar and power are as they were. -/
def ServiceSame (s t : State) : Prop :=
  t.pending = s.pending ∧ t.wear = s.wear ∧ t.fsrPend = s.fsrPend ∧ t.fencing = s.fencing ∧ t.rejoined = s.rejoined ∧
    t.lode = s.lode ∧ t.pwr = s.pwr

/-- Every program context is as it was. -/
def CtxSame (s t : State) : Prop := ∀ c, t.ctx c = s.ctx c

/-- Nothing but CSRs and program contexts differs. -/
def OnlyRegs (s t : State) : Prop :=
  MemSame s t ∧ StepSame s t ∧ FabricSame s t ∧ ServiceSame s t ∧ t.traps = s.traps

/-- Every CSR outside the list reads as before. -/
def CsrsBut (s t : State) (l : List Nat) : Prop := ∀ a, a ∉ l → t.rd a = s.rd a

/-- Every other program context is as before. -/
def CtxsBut (s t : State) (c : Ctx) : Prop := ∀ d, d ≠ c → t.ctx d = s.ctx d

/-- Nothing but the listed CSRs differs. -/
def OnlyCsrs (s t : State) (l : List Nat) : Prop := CsrsBut s t l ∧ CtxSame s t ∧ OnlyRegs s t

/-- The sequencer of the context holds no instruction but `i` (R260). -/
def HoldsNoOther (s : State) (c : Ctx) (i : Instr) : Prop := ∀ j, (s.ctx c).held = some j → j = i

/-- The context issues the instruction at this state: it runs and holds no other, its predicate is not pending and true, it
performs the class, and no register that the instruction names is pending (R259, R260, R263, R265). -/
def Issues (s : State) (c : Ctx) (p : Pred) (i : Instr) (ss ps : List Nat) : Prop :=
  s.running c = true ∧ HoldsNoOther s c i ∧ p.psel.val ∉ (s.ctx c).pendP ∧ ((s.ctx c).regs.getP p.psel.val != p.pneg) = true ∧
    performed c i = true ∧ (∀ n ∈ ss, n ∉ (s.ctx c).pendS) ∧ (∀ n ∈ ps, n ∉ (s.ctx c).pendP)

/-- Registers of a context that an issue may change. -/
def seqRegs : Ctx → List Nat
  | .cell k => [R.CELL_SEQ_STAT k, R.CELL_SEQ_ISSUE_CNT k]
  | .zen _ _ => []

/-- The sequencer of context `c` has issued one instruction, holds none and goes on at `pc`: on a cell the issue counts and the run
state stays, and the context's registers, line and everything else are those of `x`. No other context differs, and no CSR but
those of the sequencer and of `l`. -/
def AdvancedRegs (s t : State) (c : Ctx) (pc : Nat) (x : CellCtx) (l : List Nat) : Prop :=
  t.pc c = pc % 2 ^ 48 ∧
  (match c with
    | .cell k => t.ctx c = { x with held := none } ∧ t.rd (R.CELL_SEQ_ISSUE_CNT k) = satAdd64 (s.rd (R.CELL_SEQ_ISSUE_CNT k)) 1 ∧
        t.runState k = s.runState k
    | .zen _ _ => t.ctx c = { x with held := none, zpc := pc % 2 ^ 48 }) ∧
  CsrsBut s t (seqRegs c ++ l) ∧ CtxsBut s t c

/-- The same, and nothing else differs. -/
def AdvancedBut (s t : State) (c : Ctx) (pc : Nat) (x : CellCtx) (l : List Nat) : Prop :=
  AdvancedRegs s t c pc x l ∧ OnlyRegs s t

/-- The same with no CSR beside those of the sequencer. -/
def Advanced (s t : State) (c : Ctx) (pc : Nat) (x : CellCtx) : Prop := AdvancedBut s t c pc x []

/-- The context `x` once the instruction that issued at `s` has been accepted and is in flight as `fl`. -/
def inFlight (s : State) (c : Ctx) (x : CellCtx) (fl : Flight) : CellCtx :=
  { x with
    waiting := (s.ctx c).waiting.filter (·.seq != (s.ctx c).seqno)
    flight := (s.ctx c).flight ++ [fl]
    seqno := (s.ctx c).seqno + 1 }

/-- The instruction waits to issue: the context holds it, and nothing else changes (R260, R263, R264). -/
def Waits (o : Host.Outcome State Fault Refusal) (s : State) (c : Ctx) (i : Instr) : Prop :=
  ∃ t, o = .next t ∧ t.ctx c = { s.ctx c with held := some i } ∧ CsrsBut s t [] ∧ CtxsBut s t c ∧ OnlyRegs s t

/-- An instruction of context `c` has been refused at issue with a cause (R287): on a cell it is counted and latched with its
class, minor opcode and address, and counts as issued; on a Zenith unit it is counted. Nothing else changes but the PC, and
nothing is held. -/
def RefusedAtIssue (o : Host.Outcome State Fault Refusal) (s : State) (c : Ctx) (cause : Nat) (i : Instr) : Prop :=
  ∃ t, o = .next t ∧ t.pc c = (s.pc c + 16) % 2 ^ 48 ∧ CtxsBut s t c ∧ OnlyRegs s t ∧
    match c with
    | .cell k =>
      t.rd (R.CELL_VIOL_CNT k) = satAdd64 (s.rd (R.CELL_VIOL_CNT k)) 1 ∧
      t.rd (R.CELL_VIOL_LAST k) = BitVec.ofNat 64 (cause * 2 ^ 60 + insnClass i * 2 ^ 56 + insnMinor i * 2 ^ 48 + s.pc c) ∧
      t.rd (R.CELL_SEQ_ISSUE_CNT k) = satAdd64 (s.rd (R.CELL_SEQ_ISSUE_CNT k)) 1 ∧
      t.runState k = s.runState k ∧ t.ctx c = { s.ctx c with held := none } ∧
      CsrsBut s t [R.CELL_SEQ_STAT k, R.CELL_SEQ_ISSUE_CNT k, R.CELL_VIOL_CNT k, R.CELL_VIOL_LAST k]
    | .zen d _ =>
      t.rd (R.DIE_ZEN_VIOL_CNT d.val) = satAdd64 (s.rd (R.DIE_ZEN_VIOL_CNT d.val)) 1 ∧
      t.ctx c = { s.ctx c with held := none, zpc := (s.pc c + 16) % 2 ^ 48 } ∧ CsrsBut s t [R.DIE_ZEN_VIOL_CNT d.val]

/-- Nothing of the unit waits: it accepts the instruction at once. -/
def UnitFree (s : State) (c : Ctx) (u : UnitId) : Prop := (s.ctx c).queue u = []

/-- A register file after a write of s[n]: s0 reads 0 and discards writes. -/
def WroteS (r r' : RegFile) (n : Nat) (v : W64) : Prop :=
  (∀ k, r'.getS k = if k = n ∧ k ≠ 0 then v else r.getS k) ∧ r'.desc = r.desc ∧ r'.pred = r.pred

/-- A register file after a write of p[n]: p7 reads 1 and discards writes. -/
def WroteP (r r' : RegFile) (n : Nat) (b : Bool) : Prop :=
  (∀ k, k < 8 → r'.getP k = if k = n ∧ k ≠ 7 then b else r.getP k) ∧ r'.desc = r.desc ∧ r'.scal = r.scal

/-- The next state of `o`, an instruction that the sequencer performs, writes registers by `w` and goes on at `pc`. -/
def SeqDone (o : Host.Outcome State Fault Refusal) (s : State) (c : Ctx) (pc : Nat) (w : RegFile → RegFile → Prop) : Prop :=
  ∃ t r, o = .next t ∧ w (s.ctx c).regs r ∧ Advanced s t c pc { s.ctx c with regs := r }

/-- Operand b (R293). -/
def opB (r : RegFile) (f : FmtS) : W64 := if f.rb = 0 then f.imm else r.getS f.rb.val

/-- The instructions RD := s[RA] op b, with their operations (R293). -/
def binOps : List ((Ctx → Pred → FmtS → Instr) × (W64 → W64 → W64)) :=
  [(.scalAdd, fun a b => a + b), (.scalSub, fun a b => a - b), (.scalMul, fun a b => a * b),
    (.scalAnd, fun a b => a &&& b), (.scalOr, fun a b => a ||| b), (.scalXor, fun a b => a ^^^ b),
    (.scalShl, fun a b => a <<< (b.toNat % 64)), (.scalShr, fun a b => a >>> (b.toNat % 64)),
    (.scalSra, fun a b => a.sshiftRight (b.toNat % 64)),
    (.scalMin, fun a b => if a.toInt ≤ b.toInt then a else b), (.scalMax, fun a b => if a.toInt ≤ b.toInt then b else a)]

/-- The comparisons PD := s[RA] ⊙ b (R293). -/
def cmpOps : List ((Ctx → Pred → FmtS → Instr) × (W64 → W64 → Bool)) :=
  [(.scalCmpEq, fun a b => a == b), (.scalCmpNe, fun a b => !(a == b)),
    (.scalCmpLt, fun a b => decide (a.toInt < b.toInt)), (.scalCmpLe, fun a b => decide (a.toInt ≤ b.toInt)),
    (.scalCmpLtu, fun a b => decide (a.toNat < b.toNat)), (.scalCmpLeu, fun a b => decide (a.toNat ≤ b.toNat))]

/-- The instructions of format S (R277): ctl and scal. -/
def insnsS : List (Ctx → Pred → FmtS → Instr) :=
  [.ctlNop, .ctlBr, .ctlCall, .ctlJr, .ctlFence, .ctlArrive, .ctlWbar, .ctlWtime, .ctlHalt, .scalLi, .scalAdd,
    .scalSub, .scalMul, .scalAnd, .scalOr, .scalXor, .scalShl, .scalShr, .scalSra, .scalMin, .scalMax, .scalCmpEq,
    .scalCmpNe, .scalCmpLt, .scalCmpLe, .scalCmpLtu, .scalCmpLeu, .scalPmov, .scalPnot, .scalPand, .scalPor,
    .scalDget, .scalDset, .scalRdtime, .scalRdbar, .scalFadd, .scalFsub, .scalFmul, .scalFfma, .scalFdiv, .scalFsqrt,
    .scalFmax, .scalFmin, .scalFcmpEq, .scalFcmpLt, .scalFcmpLe, .scalI2f, .scalF2i, .scalFcvt]

/-- The instructions of format M: mov. -/
def insnsM : List (Ctx → Pred → FmtM → Instr) :=
  [.movCopy, .movLds, .movSts, .movAadd32, .movAadd64, .movAaddfx, .movSwap, .movGadd, .movTake, .movSpill, .movFill,
    .movHint]

/-- The instructions of format A: dusk and dawn. -/
def insnsA : List (Ctx → Pred → FmtA → Instr) :=
  [.duskMm, .dawnMm, .dawnMmt]

/-- The instructions of format V: vec, row and zen. -/
def insnsV : List (Ctx → Pred → FmtV → Instr) :=
  [.vecAdd, .vecSub, .vecMul, .vecFma, .vecMax, .vecMin, .vecAbs, .vecNeg, .vecLdexp, .vecCmp, .vecSel, .vecRnd,
    .vecMov, .vecDiv, .vecSqrt, .vecRsqrt, .vecExp2, .vecLog2, .vecRsum, .vecCsum, .vecRmax, .vecCmax, .vecAcc,
    .vecLd, .vecSt, .rowSoftmax, .rowSmbwd, .rowNorm, .rowRms, .rowNormbwd, .rowLse, .rowStst, .rowStld, .zenLd,
    .zenSt, .zenSetsc, .zenNsq, .zenAmax, .zenSgn, .zenLdlt, .zenNext]

/-- The instructions of format K: coll and chk. -/
def insnsK : List (Ctx → Pred → FmtK → Instr) :=
  [.collSlot, .collCancel, .chkVerdict, .chkRetract, .chkSample, .chkVlast]

/-- An instruction command: its context, its predicate and itself. -/
inductive IsInsn : Ctx → Pred → Instr → Prop where
  | s (x : Ctx → Pred → FmtS → Instr) (h : x ∈ insnsS) (c : Ctx) (p : Pred) (f : FmtS) : IsInsn c p (x c p f)
  | m (x : Ctx → Pred → FmtM → Instr) (h : x ∈ insnsM) (c : Ctx) (p : Pred) (f : FmtM) : IsInsn c p (x c p f)
  | a (x : Ctx → Pred → FmtA → Instr) (h : x ∈ insnsA) (c : Ctx) (p : Pred) (f : FmtA) : IsInsn c p (x c p f)
  | v (x : Ctx → Pred → FmtV → Instr) (h : x ∈ insnsV) (c : Ctx) (p : Pred) (f : FmtV) : IsInsn c p (x c p f)
  | k (x : Ctx → Pred → FmtK → Instr) (h : x ∈ insnsK) (c : Ctx) (p : Pred) (f : FmtK) : IsInsn c p (x c p f)

end Sys2Proof.Claim

open Sys2Proof.Claim

/-- A step takes the command at the front of the queue and performs it with the queue's rest.
Model's choices: log entry 65. -/
def Obligations.StepRunsFrontCommand : Prop :=
  ∀ (s : State) (c : Instr) (rest : List Instr), s.pending = c :: rest → step s = exec c { s with pending := rest }

/-- R265: every instruction whose predicate is false retires when it issues, as a no-op: on a cell the PC moves to the next
word and the two counters count, whatever the instruction names; on a Zenith unit only the PC moves. The predicate p7 reads 1
whatever the registers hold. -/
def Obligations.FalsePredicateRetires : Prop :=
  (∀ r : RegFile, r.getP 7 = true) ∧
  ∀ c p i s, IsInsn c p i → s.running c = true → HoldsNoOther s c i → p.psel.val ∉ (s.ctx c).pendP →
    ((s.ctx c).regs.getP p.psel.val != p.pneg) = false →
    ∃ t, exec i s = .next t ∧ t.pc c = (s.pc c + 16) % 2 ^ 48 ∧ CtxsBut s t c ∧ OnlyRegs s t ∧
      match c with
      | .cell k =>
        t.rd (R.CELL_SEQ_ISSUE_CNT k) = satAdd64 (s.rd (R.CELL_SEQ_ISSUE_CNT k)) 1 ∧
        t.rd (R.CELL_SEQ_PRED_CNT k) = satAdd64 (s.rd (R.CELL_SEQ_PRED_CNT k)) 1 ∧
        t.runState k = s.runState k ∧ t.ctx c = { s.ctx c with held := none } ∧
        CsrsBut s t [R.CELL_SEQ_STAT k, R.CELL_SEQ_ISSUE_CNT k, R.CELL_SEQ_PRED_CNT k]
      | .zen _ _ => t.ctx c = { s.ctx c with held := none, zpc := (s.pc c + 16) % 2 ^ 48 } ∧ CsrsBut s t []

/-- R259, R287: an instruction of a class that its context does not perform is refused with cause 0x1: counted and latched on
a cell with its class, minor opcode and address, counted on a Zenith unit; it counts as issued, and nothing else changes.
Model's choices: log entry 1. -/
def Obligations.ForeignClassRefused : Prop :=
  ∀ c p i s, IsInsn c p i → s.running c = true → HoldsNoOther s c i → p.psel.val ∉ (s.ctx c).pendP →
    ((s.ctx c).regs.getP p.psel.val != p.pneg) = true → performed c i = false → RefusedAtIssue (exec i s) s c 1 i

/-- The model's choices: an instruction of a context that does not issue, or that holds another instruction, leaves the state as
it is (log entry 1); one whose predicate is pending is held and issues before any other of its context, at the cc at which it can
(log entry 72); with no command waiting one cc passes (log entry 2): in standby nothing happens, and where nothing waits inside
the module the clocks advance, and neither a byte, an entry of the directory nor a run state changes. -/
def Obligations.WaitsAndTicks : Prop :=
  (∀ c p i s, IsInsn c p i → s.running c = false ∨ ¬ HoldsNoOther s c i → exec i s = .next s) ∧
  (∀ c p i s, IsInsn c p i → s.running c = true → HoldsNoOther s c i → p.psel.val ∈ (s.ctx c).pendP →
    Waits (exec i s) s c i) ∧
  (∀ s, s.pending = [] → s.pwr.ok = false → step s = .next s) ∧
  (∀ s, s.pending = [] → s.pwr.ok = true → (∀ c, (s.ctx c).held = none) → s.net.sess = [] → s.net.later = [] →
    s.net.stage = [] → s.net.wait = [] → s.net.out = [] → s.span = [] →
    ∃ t, step s = .next t ∧ t.time.cc = s.time.cc + 1 ∧ t.bytes = s.bytes ∧ t.dir = s.dir ∧ t.lode = s.lode ∧
      ∀ k, t.runState k = s.runState k)

/-- R293: scal.li, scal.add, sub, mul, and, or, xor, shl, shr, sra, min and max write RD and go on at the next word. -/
def Sys2Proof.Claim.ScalarIntegerResults : Prop :=
  (∀ c p (f : FmtS) s, f = { fmtS0 with rd := f.rd, imm := f.imm } → Issues s c p (.scalLi c p f) [f.rd.val] [] →
    SeqDone (exec (.scalLi c p f) s) s c (s.pc c + 16) (WroteS · · f.rd.val f.imm)) ∧
  (∀ x ∈ binOps, ∀ c p (f : FmtS) s, f = { fmtS0 with rd := f.rd, ra := f.ra, rb := f.rb, imm := f.imm } →
    (f.rb ≠ 0 → f.imm = 0) → Issues s c p (x.1 c p f) [f.rd.val, f.ra.val, f.rb.val] [] →
    SeqDone (exec (x.1 c p f) s) s c (s.pc c + 16)
      (WroteS · · f.rd.val (x.2 ((s.ctx c).regs.getS f.ra.val) (opB (s.ctx c).regs f))))

/-- R293: the integer comparisons and the predicate instructions write PD and go on at the next word. -/
def Sys2Proof.Claim.ScalarPredicateResults : Prop :=
  (∀ x ∈ cmpOps, ∀ c p (f : FmtS) s, f = { fmtS0 with pd := f.pd, ra := f.ra, rb := f.rb, imm := f.imm } →
    (f.rb ≠ 0 → f.imm = 0) → Issues s c p (x.1 c p f) [f.ra.val, f.rb.val] [f.pd.val] →
    SeqDone (exec (x.1 c p f) s) s c (s.pc c + 16)
      (WroteP · · f.pd.val (x.2 ((s.ctx c).regs.getS f.ra.val) (opB (s.ctx c).regs f)))) ∧
  (∀ c p (f : FmtS) s, f = { fmtS0 with pd := f.pd, pa := f.pa } → Issues s c p (.scalPmov c p f) [] [f.pd.val, f.pa.val] →
    SeqDone (exec (.scalPmov c p f) s) s c (s.pc c + 16) (WroteP · · f.pd.val ((s.ctx c).regs.getP f.pa.val))) ∧
  (∀ c p (f : FmtS) s, f = { fmtS0 with pd := f.pd, pa := f.pa } → Issues s c p (.scalPnot c p f) [] [f.pd.val, f.pa.val] →
    SeqDone (exec (.scalPnot c p f) s) s c (s.pc c + 16) (WroteP · · f.pd.val (!(s.ctx c).regs.getP f.pa.val))) ∧
  (∀ c p (f : FmtS) s, f = { fmtS0 with pd := f.pd, pa := f.pa, imm := f.imm } → f.imm.toNat < 8 →
    (Issues s c p (.scalPand c p f) [] [f.pd.val, f.pa.val, f.imm.toNat] →
      SeqDone (exec (.scalPand c p f) s) s c (s.pc c + 16)
        (WroteP · · f.pd.val ((s.ctx c).regs.getP f.pa.val && (s.ctx c).regs.getP f.imm.toNat))) ∧
    (Issues s c p (.scalPor c p f) [] [f.pd.val, f.pa.val, f.imm.toNat] →
      SeqDone (exec (.scalPor c p f) s) s c (s.pc c + 16)
        (WroteP · · f.pd.val ((s.ctx c).regs.getP f.pa.val || (s.ctx c).regs.getP f.imm.toNat))))

/-- R293, R295, R389: scal.dget, scal.dset, scal.rdtime and scal.rdbar move a field, the time or a counter. The field that IMM
selects is given by its lowest bit and width (Table: Descriptor field selectors). -/
def Sys2Proof.Claim.ScalarAccessResults : Prop :=
  (∀ c p (f : FmtS) s lo w, f = { fmtS0 with rd := f.rd, dn := f.dn, imm := f.imm } → descSel f.imm.toNat = some (lo, w) →
    Issues s c p (.scalDget c p f) [f.rd.val] [] →
    SeqDone (exec (.scalDget c p f) s) s c (s.pc c + 16)
      (WroteS · · f.rd.val (BitVec.ofNat 64 (((s.ctx c).regs.getD f.dn.val).toNat / 2 ^ lo % 2 ^ w)))) ∧
  (∀ c p (f : FmtS) s lo w, f = { fmtS0 with dn := f.dn, ra := f.ra, imm := f.imm } → descSel f.imm.toNat = some (lo, w) →
    ((s.ctx c).regs.getS f.ra.val).toNat < 2 ^ w → wordRsvOk (lo, w) ((s.ctx c).regs.getS f.ra.val) = true →
    Issues s c p (.scalDset c p f) [f.ra.val] [] →
    SeqDone (exec (.scalDset c p f) s) s c (s.pc c + 16) fun r r' =>
      r'.scal = r.scal ∧ r'.pred = r.pred ∧ (∀ n, n ≠ f.dn.val → r'.getD n = r.getD n) ∧
        ∀ b, b < 256 → (r'.getD f.dn.val).toNat.testBit b =
          if lo ≤ b ∧ b < lo + w then (r.getS f.ra.val).toNat.testBit (b - lo) else (r.getD f.dn.val).toNat.testBit b) ∧
  (∀ c p (f : FmtS) s, f = { fmtS0 with rd := f.rd } → Issues s c p (.scalRdtime c p f) [f.rd.val] [] →
    SeqDone (exec (.scalRdtime c p f) s) s c (s.pc c + 16) (WroteS · · f.rd.val (s.nsAt (ctxDie c)))) ∧
  (∀ c p (f : FmtS) s, f = { fmtS0 with rd := f.rd, bar := f.bar } → f.bar.val < s.nbar (s.part c) →
    Issues s c p (.scalRdbar c p f) [f.rd.val] [] →
    SeqDone (exec (.scalRdbar c p f) s) s c (s.pc c + 16)
      (WroteS · · f.rd.val (BitVec.ofNat 64 (s.barVal (s.part c) f.bar.val))))

namespace Sys2Proof.Claim

/-- The counters of saturated and overflowed conversions of a context (R70, R217). -/
def convRegs : Ctx → List Nat
  | .cell k => [R.CELL_SAT_CNT k, R.CELL_OVF_CNT k]
  | .zen d _ => [R.DIE_ZEN_SAT_CNT d.val, R.DIE_ZEN_OVF_CNT d.val]

/-- The two counters have counted `sat` and `ovf`. -/
def ConvCounted (s t : State) (c : Ctx) (sat ovf : Nat) : Prop :=
  match c with
  | .cell k => t.rd (R.CELL_SAT_CNT k) = satAdd64 (s.rd (R.CELL_SAT_CNT k)) sat ∧
      t.rd (R.CELL_OVF_CNT k) = satAdd64 (s.rd (R.CELL_OVF_CNT k)) ovf
  | .zen d _ => t.rd (R.DIE_ZEN_SAT_CNT d.val) = satAdd64 (s.rd (R.DIE_ZEN_SAT_CNT d.val)) sat ∧
      t.rd (R.DIE_ZEN_OVF_CNT d.val) = satAdd64 (s.rd (R.DIE_ZEN_OVF_CNT d.val)) ovf

/-- A scalar operand in FMT. -/
def fpVal (r : RegFile) (f : FmtS) (n : Fin 32) : Val := scalVal f.fmt.val (r.getS n.val)

/-- The floating-point instructions that write RD, whether they read RB, and their exact results (R294). -/
def fpOps : List ((Ctx → Pred → FmtS → Instr) × Bool × (RegFile → FmtS → XR)) :=
  [(.scalFadd, true, fun r f => ((fpVal r f f.ra).add (fpVal r f f.rb)).toXR),
    (.scalFsub, true, fun r f => ((fpVal r f f.ra).sub (fpVal r f f.rb)).toXR),
    (.scalFmul, true, fun r f => (fpVal r f f.ra).mulX (fpVal r f f.rb)),
    (.scalFfma, true, fun r f => (((fpVal r f f.ra).mul (fpVal r f f.rb)).add (fpVal r f f.rd)).toXR),
    (.scalFdiv, true, fun r f => (fpVal r f f.ra).divX (fpVal r f f.rb)),
    (.scalFsqrt, false, fun r f => (fpVal r f f.ra).sqrtX),
    (.scalFmax, true, fun r f => ((fpVal r f f.ra).max (fpVal r f f.rb)).toXR),
    (.scalFmin, true, fun r f => ((fpVal r f f.ra).min (fpVal r f f.rb)).toXR),
    (.scalI2f, false, fun r f => (Dy.ofInt (r.getS f.ra.val).toInt).toXR),
    (.scalFcvt, false, fun r f => (scalVal (if f.fmt.val = fmtFP32 then fmtFP64 else fmtFP32) (r.getS f.ra.val)).toXR)]

/-- The scalar registers that such an instruction names. -/
def fpNames (f : FmtS) (two : Bool) : List Nat := if two then [f.rd.val, f.ra.val, f.rb.val] else [f.rd.val, f.ra.val]

/-- The fields of a scalar floating-point instruction: FP32 or FP64, and nothing that it does not use (R277, R294). -/
def FpFields (f : FmtS) (two : Bool) : Prop :=
  f = { fmtS0 with rd := f.rd, ra := f.ra, rb := f.rb, fmt := f.fmt } ∧ (two = false → f.rb = 0) ∧
    (f.fmt.val = fmtFP32 ∨ f.fmt.val = fmtFP64)

/-- The comparisons, by the code of the relation: = , <, ≤. -/
def fcmpOps : List ((Ctx → Pred → FmtS → Instr) × (Val → Val → Bool)) :=
  [(.scalFcmpEq, Val.eqv), (.scalFcmpLt, Val.lt), (.scalFcmpLe, Val.le)]

/-- The trap of the context's partition holds an event of an earlier cc (R65, R66). -/
def TrapHeld (s : State) (c : Ctx) : Prop :=
  flag (s.rd (R.PART_NAN_TRAP0 (s.part c))) 63 = true ∧
    ∀ e, SMap.get s.traps none (s.part c) = some e → e.cc ≠ s.time.cc

/-- What a NaN event leaves while the trap holds an earlier one (R65, R70, R247): NAN is raised in the partition's open record,
and the event counts. -/
def NanCounted (s t : State) (c : Ctx) : Prop :=
  t.rd (R.PART_VRD_OWN (s.part c)) = s.rd (R.PART_VRD_OWN (s.part c)) ||| 2 ∧
    t.rd (nanCounter c) = satAdd64 (s.rd (nanCounter c)) 1

end Sys2Proof.Claim

/-- R294: the scalar floating-point instructions whose result is not a NaN write it into RD, rounded into FMT, count what the
conversion saturates or overflows, and go on; scal.f2i writes the rounded and clamped integer, and the comparisons write PD. -/
def Sys2Proof.Claim.ScalarFloatResults : Prop :=
  (∀ o ∈ fpOps, ∀ c p (f : FmtS) s, FpFields f o.2.1 → Issues s c p (o.1 c p f) (fpNames f o.2.1) [] →
    isNanX (o.2.2 (s.ctx c).regs f) = false →
    ∃ t r, exec (o.1 c p f) s = .next t ∧
      WroteS (s.ctx c).regs r f.rd.val (BitVec.ofNat 64 (scalRound f.fmt.val (s.ovf c) (o.2.2 (s.ctx c).regs f)).bits) ∧
      ConvCounted s t c (scalRound f.fmt.val (s.ovf c) (o.2.2 (s.ctx c).regs f)).sat
        (scalRound f.fmt.val (s.ovf c) (o.2.2 (s.ctx c).regs f)).ovf ∧
      AdvancedBut s t c (s.pc c + 16) { s.ctx c with regs := r } (convRegs c)) ∧
  (∀ c p (f : FmtS) s, FpFields f false → Issues s c p (.scalF2i c p f) (fpNames f false) [] →
    (fpVal (s.ctx c).regs f f.ra).isNan = false →
    ∃ t r, exec (.scalF2i c p f) s = .next t ∧
      WroteS (s.ctx c).regs r f.rd.val (BitVec.ofInt 64 (f2i (fpVal (s.ctx c).regs f f.ra)).1) ∧
      ConvCounted s t c (if (f2i (fpVal (s.ctx c).regs f f.ra)).2 then 1 else 0) 0 ∧
      AdvancedBut s t c (s.pc c + 16) { s.ctx c with regs := r } (convRegs c)) ∧
  (∀ o ∈ fcmpOps, ∀ c p (f : FmtS) s, f = { fmtS0 with pd := f.pd, ra := f.ra, rb := f.rb, fmt := f.fmt } →
    (f.fmt.val = fmtFP32 ∨ f.fmt.val = fmtFP64) → Issues s c p (o.1 c p f) [f.ra.val, f.rb.val] [f.pd.val] →
    (fpVal (s.ctx c).regs f f.ra).isNan = false → (fpVal (s.ctx c).regs f f.rb).isNan = false →
    SeqDone (exec (o.1 c p f) s) s c (s.pc c + 16)
      (WroteP · · f.pd.val (o.2 (fpVal (s.ctx c).regs f f.ra) (fpVal (s.ctx c).regs f f.rb))))

/-- R65, R294: a scalar instruction whose result is a NaN, and a comparison or scal.f2i of a NaN, is a NaN event; where the
partition's trap already holds an event of an earlier cc the instruction completes, NAN is raised and the event counts. -/
def Sys2Proof.Claim.ScalarNanEvents : Prop :=
  (∀ o ∈ fpOps, ∀ c p (f : FmtS) s, FpFields f o.2.1 → Issues s c p (o.1 c p f) (fpNames f o.2.1) [] →
    isNanX (o.2.2 (s.ctx c).regs f) = true → TrapHeld s c →
    ∃ t r, exec (o.1 c p f) s = .next t ∧
      WroteS (s.ctx c).regs r f.rd.val (if f.fmt.val = fmtFP32 then 0x7FC00000 else 0x7FF8000000000000) ∧
      NanCounted s t c ∧
      AdvancedBut s t c (s.pc c + 16) { s.ctx c with regs := r } [R.PART_VRD_OWN (s.part c), nanCounter c]) ∧
  (∀ o ∈ fcmpOps, ∀ c p (f : FmtS) s, f = { fmtS0 with pd := f.pd, ra := f.ra, rb := f.rb, fmt := f.fmt } →
    (f.fmt.val = fmtFP32 ∨ f.fmt.val = fmtFP64) → Issues s c p (o.1 c p f) [f.ra.val, f.rb.val] [f.pd.val] →
    ((fpVal (s.ctx c).regs f f.ra).isNan || (fpVal (s.ctx c).regs f f.rb).isNan) = true →
    TrapHeld s c →
    ∃ t r, exec (o.1 c p f) s = .next t ∧ WroteP (s.ctx c).regs r f.pd.val false ∧ NanCounted s t c ∧
      AdvancedBut s t c (s.pc c + 16) { s.ctx c with regs := r } [R.PART_VRD_OWN (s.part c), nanCounter c]) ∧
  (∀ c p (f : FmtS) s, FpFields f false → Issues s c p (.scalF2i c p f) (fpNames f false) [] →
    (fpVal (s.ctx c).regs f f.ra).isNan = true → TrapHeld s c →
    ∃ t r, exec (.scalF2i c p f) s = .next t ∧ WroteS (s.ctx c).regs r f.rd.val 0 ∧ NanCounted s t c ∧
      AdvancedBut s t c (s.pc c + 16) { s.ctx c with regs := r } [R.PART_VRD_OWN (s.part c), nanCounter c])

/-- R65-R67: a NaN event of a cell's scalar instruction while the trap is open is captured (VALID and the address of the
instruction), NAN is raised, and every present cell of the partition that runs or waits without an earlier stop
request is to stop with cause NaN. -/
def Sys2Proof.Claim.NanTrapCaptures : Prop :=
  ∀ o ∈ fpOps, ∀ k p (f : FmtS) s, FpFields f o.2.1 → Issues s (.cell k) p (o.1 (.cell k) p f) (fpNames f o.2.1) [] →
    isNanX (o.2.2 (s.cell k).regs f) = true → flag (s.rd (R.PART_NAN_TRAP0 (s.part (.cell k)))) 63 = false →
    ∃ t, exec (o.1 (.cell k) p f) s = .next t ∧
      flag (t.rd (R.PART_NAN_TRAP0 (s.part (.cell k)))) 63 = true ∧
      (t.rd (R.PART_NAN_TRAP1 (s.part (.cell k)))).toNat = s.pc (.cell k) ∧
      flag (t.rd (R.PART_VRD_OWN (s.part (.cell k)))) 1 = true ∧
      (∀ d ∈ s.present (s.part (.cell k)), s.runState d = stRun ∨ s.runState d = stWaitBar ∨ s.runState d = stWaitTime →
        (s.cell d).stopReq = 0 → (t.cell d).stopReq = causeNan) ∧
      MemSame s t ∧ StepSame s t ∧ FabricSame s t ∧ ServiceSame s t

namespace Sys2Proof.Claim

/-! The vector engine. -/

/-- Element `k` of the tile that an instruction names as A, and the values of its operands A, B and C (R195). -/
def elA (x : CellCtx) (f : FmtV) (k : Nat) : F32 := (x.tile f.ta.val).getD k 0
def valA (x : CellCtx) (f : FmtV) (k : Nat) : Val := f32Val (elA x f k)
def elB (x : CellCtx) (f : FmtV) (k : Nat) : F32 := vecOperand x x.regs f.bsrc.val f.bidx.val (k / 32) (k % 32)
def valB (x : CellCtx) (f : FmtV) (k : Nat) : Val := f32Val (elB x f k)
def valC (x : CellCtx) (f : FmtV) (k : Nat) : Val :=
  f32Val (vecOperand x x.regs f.csrc.val f.cidx.val (k / 32) (k % 32))

/-- Element-wise operations with their exact results: on A, on A and B, on A, B and C (R196). -/
def vec1Ops : List ((Ctx → Pred → FmtV → Instr) × (Val → XR)) :=
  [(.vecAbs, fun a => a.abs.toXR), (.vecNeg, fun a => a.neg.toXR), (.vecSqrt, Val.sqrtX), (.vecRsqrt, Val.rsqrtX),
    (.vecExp2, exp2X), (.vecLog2, log2X)]
def vec2Ops : List ((Ctx → Pred → FmtV → Instr) × (Val → Val → XR)) :=
  [(.vecAdd, fun a b => (a.add b).toXR), (.vecSub, fun a b => (a.sub b).toXR), (.vecMul, fun a b => (a.mul b).toXR),
    (.vecMax, fun a b => (a.max b).toXR), (.vecMin, fun a b => (a.min b).toXR), (.vecDiv, Val.divX)]

/-- The terms of a reduction into element `k`: a row of the tile into column 0, or a column into row 0 (R196). -/
def rowTerms (t : List F32) (k : Nat) : List F32 := (t.drop (32 * (k / 32))).take 32
def colTerms (t : List F32) (k : Nat) : List F32 := (List.range 32).map fun r => t.getD (32 * r + k % 32) 0

/-- The reductions: whether they sum, and whether they reduce rows. -/
def reduceOps : List ((Ctx → Pred → FmtV → Instr) × Bool × Bool) :=
  [(.vecRsum, true, true), (.vecCsum, true, false), (.vecRmax, false, true), (.vecCmax, false, false)]

/-- The exact sum or the maximum of terms; NaN where a term is NaN. -/
def reduced (sum : Bool) (l : List F32) : Val :=
  if (l.any fun b => (f32Val b).isNan) then .nan
  else if sum then (l.map f32Val).foldl Val.add (.fin ⟨0, 0⟩)
  else ((l.map f32Val).drop 1).foldl Val.max ((l.map f32Val).headD .nan)

/-- A tile instruction has been accepted: TD holds `g` at every element, no other tile differs, and the instruction is in
flight and brings no scalar and no predicate. -/
def TileDone (o : Host.Outcome State Fault Refusal) (s : State) (c : Ctx) (i : Instr) (td : Nat) (g : Nat → Nat) : Prop :=
  ∃ t fl, o = .next t ∧ fl.job = s.newJob c (vecUnit c) i ∧ fl.rd = none ∧ fl.pd = [] ∧
    (∀ k, k < 1024 → ((t.ctx c).tile td).getD k 0 = BitVec.ofNat 32 (g k)) ∧
    (∀ n, n ≠ td → (t.ctx c).tile n = (s.ctx c).tile n) ∧
    AdvancedBut s t c (s.pc c + 16) (inFlight s c { s.ctx c with tiles := (t.ctx c).tiles } fl) (convRegs c)

end Sys2Proof.Claim

/-- R195, R196: the element-wise vector instructions in FP32 write each element of TD, rounded once: abs, neg, sqrt, rsqrt,
exp2, log2, add, sub, mul, max, min, div, fma and ldexp. -/
def Sys2Proof.Claim.VectorElementResults : Prop :=
  (∀ o ∈ vec1Ops, ∀ c p (f : FmtV) s, f = { fmtV0 with td := f.td, ta := f.ta } → UnitFree s c (vecUnit c) →
    Issues s c p (o.1 c p f) [] [] →
    TileDone (exec (o.1 c p f) s) s c (o.1 c p f) f.td.val fun k => (toF32 (s.ovf c) (o.2 (valA (s.ctx c) f k))).bits) ∧
  (∀ o ∈ vec2Ops, ∀ c p (f : FmtV) s,
    f = { fmtV0 with td := f.td, ta := f.ta, bsrc := f.bsrc, bidx := f.bidx } → srcOk f.bsrc f.bidx = true →
    UnitFree s c (vecUnit c) → Issues s c p (o.1 c p f) (srcReads f.bsrc f.bidx) [] →
    TileDone (exec (o.1 c p f) s) s c (o.1 c p f) f.td.val fun k =>
      (toF32 (s.ovf c) (o.2 (valA (s.ctx c) f k) (valB (s.ctx c) f k))).bits) ∧
  (∀ c p (f : FmtV) s,
    f = { fmtV0 with td := f.td, ta := f.ta, bsrc := f.bsrc, bidx := f.bidx, csrc := f.csrc, cidx := f.cidx } →
    srcOk f.bsrc f.bidx = true → srcOk f.csrc f.cidx = true → UnitFree s c (vecUnit c) →
    Issues s c p (.vecFma c p f) (srcReads f.bsrc f.bidx ++ srcReads f.csrc f.cidx) [] →
    TileDone (exec (.vecFma c p f) s) s c (.vecFma c p f) f.td.val fun k =>
      (toF32 (s.ovf c) (((valA (s.ctx c) f k).mul (valB (s.ctx c) f k)).add (valC (s.ctx c) f k)).toXR).bits) ∧
  (∀ c p (f : FmtV) s, f = { fmtV0 with td := f.td, ta := f.ta, rs := f.rs } → UnitFree s c (vecUnit c) →
    Issues s c p (.vecLdexp c p f) [f.rs.val] [] →
    TileDone (exec (.vecLdexp c p f) s) s c (.vecLdexp c p f) f.td.val fun k =>
      (toF32 (s.ovf c) ((valA (s.ctx c) f k).scale (signed 32 ((s.ctx c).regs.getS f.rs.val).toNat)).toXR).bits)

/-- R63, R196: vec.cmp, vec.sel, vec.mov, vec.rnd and the four reductions write each element of TD. -/
def Sys2Proof.Claim.VectorSelectReduceResults : Prop :=
  (∀ c p (f : FmtV) s, f = { fmtV0 with td := f.td, ta := f.ta, bsrc := f.bsrc, bidx := f.bidx, cmp := f.cmp } →
    srcOk f.bsrc f.bidx = true → UnitFree s c (vecUnit c) → Issues s c p (.vecCmp c p f) (srcReads f.bsrc f.bidx) [] →
    TileDone (exec (.vecCmp c p f) s) s c (.vecCmp c p f) f.td.val fun k =>
      if cmpVal f.cmp.val (valA (s.ctx c) f k) (valB (s.ctx c) f k) then 0x3F800000 else 0) ∧
  (∀ c p (f : FmtV) s,
    f = { fmtV0 with td := f.td, ta := f.ta, bsrc := f.bsrc, bidx := f.bidx, csrc := f.csrc, cidx := f.cidx } →
    srcOk f.bsrc f.bidx = true → srcOk f.csrc f.cidx = true → UnitFree s c (vecUnit c) →
    Issues s c p (.vecSel c p f) (srcReads f.bsrc f.bidx ++ srcReads f.csrc f.cidx) [] →
    TileDone (exec (.vecSel c p f) s) s c (.vecSel c p f) f.td.val fun k =>
      if (valC (s.ctx c) f k).isNan then 0x7FC00000
      else if (valC (s.ctx c) f k).isZero then (elB (s.ctx c) f k).toNat else (elA (s.ctx c) f k).toNat) ∧
  (∀ c p (f : FmtV) s, f = { fmtV0 with td := f.td, ta := f.ta } → UnitFree s c (vecUnit c) →
    Issues s c p (.vecMov c p f) [] [] →
    TileDone (exec (.vecMov c p f) s) s c (.vecMov c p f) f.td.val fun k => (elA (s.ctx c) f k).toNat) ∧
  (∀ c p (f : FmtV) s, f = { fmtV0 with td := f.td, ta := f.ta, fmt := f.fmt } → fmtAssigned f.fmt.val = true →
    f.fmt.val ≠ fmtE8M0 → UnitFree s c (vecUnit c) → Issues s c p (.vecRnd c p f) [] [] →
    TileDone (exec (.vecRnd c p f) s) s c (.vecRnd c p f) f.td.val fun k =>
      (toF32 (s.ovf c) (elemVal (s.tabs c) f.fmt.val
        (convert (s.tabs c) (s.ovf c) f.fmt.val (valA (s.ctx c) f k).toXR).bits).toXR).bits) ∧
  (∀ o ∈ reduceOps, ∀ c p (f : FmtV) s, f = { fmtV0 with td := f.td, ta := f.ta } → UnitFree s c (vecUnit c) →
    Issues s c p (o.1 c p f) [] [] →
    TileDone (exec (o.1 c p f) s) s c (o.1 c p f) f.td.val fun k =>
      if (if o.2.2 then k % 32 else k / 32) = 0 then
        (toF32 (s.ovf c) (reduced o.2.1
          (if o.2.2 then rowTerms ((s.ctx c).tile f.ta.val) k else colTerms ((s.ctx c).tile f.ta.val) k)).toXR).bits
      else 0)

namespace Sys2Proof.Claim

/-! Control. -/

/-- No word is marked with an error, no page is in SWITCH (R319), no Span link is down for want of lanes (R364), and no byte of
the ranges `rs` is sealed (R229). -/
def Calm (s : State) (p : Nat) (rs : List Run) : Prop :=
  s.ue = [] ∧ s.ce = [] ∧ (∀ pg, (s.ent pg).st ≠ .switch) ∧ (∀ sp, s.portLost sp = false) ∧ ∀ r ∈ rs, ∀ v ∈ s.sealedRuns p, r.1 + r.2 ≤ v.1 ∨ v.1 + v.2 ≤ r.1

/-- Whether bit `u` of a fence mask names a unit (R291). -/
def fenceNames (m : Nat) : UnitId → Bool
  | .mov => m.testBit 0
  | .dusk => m.testBit 1
  | .dawn => m.testBit 2
  | .vec => m.testBit 3
  | .row => m.testBit 4
  | .coll => m.testBit 5
  | .chk => m.testBit 6
  | .zen => false

/-- Nothing that a fence names is left to retire: a unit of the mask on a cell, any instruction on the Zenith unit. -/
def FenceOpen (s : State) (c : Ctx) (m : W64) : Prop :=
  match c with
  | .cell _ => ∀ j ∈ (s.ctx c).unretired, fenceNames m.toNat j.unit = false
  | .zen _ _ => (s.ctx c).unretired = []

/-- The masks that a context permits. -/
def FenceMask (c : Ctx) (m : W64) : Prop :=
  match c with
  | .cell _ => m.toNat < 128
  | .zen _ _ => m = 0

/-- Cell `k` has issued one instruction, has left RUN for state `st` with counter `wbar`, and its context is `x`; no other
context and no CSR but those of its sequencer differ. -/
def LeftRun (s t : State) (k : CellId) (st wbar : Nat) (x : CellCtx) : Prop :=
  t.runState k = st ∧ t.rdF (R.CELL_SEQ_STAT k) F.CELL_SEQ_STAT_WBAR = wbar ∧
    t.pc (.cell k) = (s.pc (.cell k) + 16) % 2 ^ 48 ∧
    t.rd (R.CELL_SEQ_ISSUE_CNT k) = satAdd64 (s.rd (R.CELL_SEQ_ISSUE_CNT k)) 1 ∧ t.cell k = { x with held := none } ∧
    CsrsBut s t [R.CELL_SEQ_STAT k, R.CELL_SEQ_ISSUE_CNT k] ∧ CtxsBut s t (.cell k) ∧ OnlyRegs s t

/-- Run state, counter and cause of a cell, with nothing else changed but its context, which is `x`, and its clock's
registers. -/
def RunSet (s t : State) (k : CellId) (st cause wbar pc : Nat) (x : CellCtx) (l : List Nat) : Prop :=
  t.runState k = st ∧ t.rdF (R.CELL_SEQ_STAT k) F.CELL_SEQ_STAT_CAUSE = cause ∧
    t.rdF (R.CELL_SEQ_STAT k) F.CELL_SEQ_STAT_WBAR = wbar ∧ t.pc (.cell k) = pc ∧ t.cell k = x ∧
    CsrsBut s t (R.CELL_SEQ_STAT k :: l) ∧ CtxsBut s t (.cell k) ∧ OnlyRegs s t

/-- The core clock of a cell runs, and a wake of a stopped clock has counted (R463, R464). -/
def Woken (s t : State) (k : CellId) : Prop :=
  t.rdF (R.CELL_CLK_STAT k) F.CELL_CLK_STAT_RUN = 1 ∧
    t.rd (R.CELL_WAKE_CNT k) = if s.rdF (R.CELL_CLK_STAT k) F.CELL_CLK_STAT_RUN = 1 then s.rd (R.CELL_WAKE_CNT k)
      else satAdd64 (s.rd (R.CELL_WAKE_CNT k)) 1

end Sys2Proof.Claim

/-- R289-R291: ctl.nop goes on, ctl.br sets the PC to its address plus 16 · IMM, ctl.call writes the return address to RD and
branches, ctl.jr goes to s[RA] modulo 2⁴⁸, and ctl.fence goes on once nothing that it names is left to retire and is held until then. A taken branch
leaves the line held. -/
def Sys2Proof.Claim.ControlFlowResults : Prop :=
  (∀ c p s, Issues s c p (.ctlNop c p fmtS0) [] [] →
    ∃ t, exec (.ctlNop c p fmtS0) s = .next t ∧ Advanced s t c (s.pc c + 16) (s.ctx c)) ∧
  (∀ c p (f : FmtS) s, f = { fmtS0 with imm := f.imm } → Issues s c p (.ctlBr c p f) [] [] →
    ∃ t, exec (.ctlBr c p f) s = .next t ∧
      Advanced s t c (((s.pc c : Int) + 16 * f.imm.toInt) % 2 ^ 48).toNat { s.ctx c with line := none }) ∧
  (∀ c p (f : FmtS) s, f = { fmtS0 with rd := f.rd, imm := f.imm } → Issues s c p (.ctlCall c p f) [f.rd.val] [] →
    ∃ t r, exec (.ctlCall c p f) s = .next t ∧ WroteS (s.ctx c).regs r f.rd.val (BitVec.ofNat 64 (s.pc c + 16)) ∧
      Advanced s t c (((s.pc c : Int) + 16 * f.imm.toInt) % 2 ^ 48).toNat { s.ctx c with regs := r, line := none }) ∧
  (∀ c p (f : FmtS) s, f = { fmtS0 with ra := f.ra } → Issues s c p (.ctlJr c p f) [f.ra.val] [] →
    ∃ t, exec (.ctlJr c p f) s = .next t ∧
      Advanced s t c ((s.ctx c).regs.getS f.ra.val).toNat { s.ctx c with line := none }) ∧
  (∀ c p (f : FmtS) s, f = { fmtS0 with imm := f.imm } → FenceMask c f.imm → Issues s c p (.ctlFence c p f) [] [] →
    (FenceOpen s c f.imm → ∃ t, exec (.ctlFence c p f) s = .next t ∧ Advanced s t c (s.pc c + 16) (s.ctx c)) ∧
    (¬ FenceOpen s c f.imm → Waits (exec (.ctlFence c p f) s) s c (.ctlFence c p f)))

/-- R284, R292: ctl.arrive of a context in which nothing is left to retire and no arrival waits advances its counter by one,
up to 2⁴⁸ − 1; the registers, the bytes, the directory and the other CSRs but the issue count and the wakes stay. -/
def Sys2Proof.Claim.ArriveAdvances : Prop :=
  ∀ c p (f : FmtS) s, f = { fmtS0 with bar := f.bar } → f.bar.val < s.nbar (s.part c) → (s.ctx c).unretired = [] →
    (s.ctx c).arrives = [] → Issues s c p (.ctlArrive c p f) [] [] →
    ∃ t, exec (.ctlArrive c p f) s = .next t ∧
      t.barVal (s.part c) f.bar.val = min (s.barVal (s.part c) f.bar.val + 1) (2 ^ 48 - 1) ∧
      t.pc c = (s.pc c + 16) % 2 ^ 48 ∧ (t.ctx c).regs = (s.ctx c).regs ∧ (t.ctx c).arrives = [] ∧
      (t.bytes = s.bytes ∧ t.dir = s.dir ∧ t.frames = s.frames) ∧
      CsrsBut s t (seqRegs c ++ R.PART_BARk (s.part c) f.bar.val ::
        (s.present (s.part c)).flatMap fun k => [R.CELL_CLK_STAT k, R.CELL_WAKE_CNT k])

/-- R281, R284-R286: ctl.arrive with instructions left to retire waits in the context; ctl.wbar goes on at a count already
reached and else waits in WAIT_BAR; ctl.wtime goes on at a time reached, counting a time already past, and else waits in
WAIT_TIME; ctl.halt leaves the cell HALTING. -/
def Sys2Proof.Claim.WaitAndHaltResults : Prop :=
  (∀ c p (f : FmtS) s, f = { fmtS0 with bar := f.bar } → f.bar.val < s.nbar (s.part c) → (s.ctx c).unretired ≠ [] →
    (∀ a ∈ (s.ctx c).arrives ++ [((s.ctx c).seqno, f.bar.val)], ∃ j ∈ (s.ctx c).unretired, j.seq ≤ a.1) →
    Issues s c p (.ctlArrive c p f) [] [] →
    ∃ t, exec (.ctlArrive c p f) s = .next t ∧ Advanced s t c (s.pc c + 16) { s.ctx c with
      arrives := (s.ctx c).arrives ++ [((s.ctx c).seqno, f.bar.val)], seqno := (s.ctx c).seqno + 1 }) ∧
  (∀ k p (f : FmtS) s n, f = { fmtS0 with bar := f.bar, ra := f.ra } → f.bar.val < s.nbar (s.part (.cell k)) →
    n = ((s.cell k).regs.getS f.ra.val).toNat % 2 ^ 48 → Issues s (.cell k) p (.ctlWbar (.cell k) p f) [f.ra.val] [] →
    ∃ t, exec (.ctlWbar (.cell k) p f) s = .next t ∧
      if n ≤ s.barVal (s.part (.cell k)) f.bar.val then Advanced s t (.cell k) (s.pc (.cell k) + 16) (s.cell k)
      else LeftRun s t k stWaitBar f.bar.val { s.cell k with wait := some (.bar f.bar.val n) }) ∧
  (∀ k p (f : FmtS) s n, f = { fmtS0 with ra := f.ra, imm := f.imm } →
    n = ((s.cell k).regs.getS f.ra.val + f.imm).toNat → Issues s (.cell k) p (.ctlWtime (.cell k) p f) [f.ra.val] [] →
    ∃ t, exec (.ctlWtime (.cell k) p f) s = .next t ∧
      if n < (s.nsAt k.die.val).toNat then
        t.rd (R.CELL_SEQ_TLATE_CNT k) = satAdd64 (s.rd (R.CELL_SEQ_TLATE_CNT k)) 1 ∧
        AdvancedBut s t (.cell k) (s.pc (.cell k) + 16) (s.cell k) [R.CELL_SEQ_TLATE_CNT k]
      else if n = (s.nsAt k.die.val).toNat then Advanced s t (.cell k) (s.pc (.cell k) + 16) (s.cell k)
      else LeftRun s t k stWaitTime 0 { s.cell k with wait := some (.time n) }) ∧
  (∀ k p (f : FmtS) s, f = { fmtS0 with bar := f.bar, bare := f.bare } →
    (f.bare = true → f.bar.val < s.nbar (s.part (.cell k))) → Issues s (.cell k) p (.ctlHalt (.cell k) p f) [] [] →
    ∃ t, exec (.ctlHalt (.cell k) p f) s = .next t ∧
      LeftRun s t k stHalting 0 { s.cell k with
        haltBar := if f.bare then some f.bar.val else none, wait := none, stopReq := 0, line := none })

/-- R283, R287: ctl.arrive, ctl.wbar and ctl.halt with BARE that name a counter which is not present, and scal.rdbar, are
refused with cause 0xC. -/
def Sys2Proof.Claim.AbsentCounterRefused : Prop :=
  (∀ c p (f : FmtS) s, f = { fmtS0 with bar := f.bar } → s.nbar (s.part c) ≤ f.bar.val →
    Issues s c p (.ctlArrive c p f) [] [] → RefusedAtIssue (exec (.ctlArrive c p f) s) s c 0xC (.ctlArrive c p f)) ∧
  (∀ c p (f : FmtS) s, f = { fmtS0 with bar := f.bar, ra := f.ra } → s.nbar (s.part c) ≤ f.bar.val →
    Issues s c p (.ctlWbar c p f) [f.ra.val] [] → RefusedAtIssue (exec (.ctlWbar c p f) s) s c 0xC (.ctlWbar c p f)) ∧
  (∀ c p (f : FmtS) s, f = { fmtS0 with bar := f.bar, bare := true } → s.nbar (s.part c) ≤ f.bar.val →
    Issues s c p (.ctlHalt c p f) [] [] → RefusedAtIssue (exec (.ctlHalt c p f) s) s c 0xC (.ctlHalt c p f)) ∧
  (∀ c p (f : FmtS) s, f = { fmtS0 with rd := f.rd, bar := f.bar } → s.nbar (s.part c) ≤ f.bar.val →
    Issues s c p (.scalRdbar c p f) [f.rd.val] [] → RefusedAtIssue (exec (.scalRdbar c p f) s) s c 0xC (.scalRdbar c p f))

/-- R65, R281, R282, R285, R286: a HALTING cell with nothing left to retire becomes IDLE; a requested stop takes effect with
its cause, an interrupted wait issuing again; a wait that has come true ends in RUN with the clock running. -/
def Sys2Proof.Claim.RunStateEvents : Prop :=
  (∀ k s, s.runState k = stHalting → (s.cell k).unretired = [] → (s.cell k).haltBar = none →
    ∃ t, exec (.cellHaltComplete k) s = .next t ∧ RunSet s t k stIdle 0 0 (s.pc (.cell k)) (s.cell k) []) ∧
  (∀ k s b, s.runState k = stHalting → (s.cell k).unretired = [] → (s.cell k).haltBar = some b →
    b < s.nbar (s.part (.cell k)) →
    ∃ t, exec (.cellHaltComplete k) s = .next t ∧ t.runState k = stIdle ∧ (t.cell k).haltBar = none ∧
      t.barVal (s.part (.cell k)) b = min (s.barVal (s.part (.cell k)) b + 1) (2 ^ 48 - 1)) ∧
  (∀ k s, s.runState k = stRun → (s.cell k).stopReq ≠ 0 → (s.cell k).stopReq < 8 →
    ∃ t, exec (.cellStop k) s = .next t ∧ RunSet s t k stStopped (s.cell k).stopReq 0 (s.pc (.cell k))
      { s.cell k with stopReq := 0, wait := none, line := none, held := none } []) ∧
  (∀ k s, s.runState k = stWaitBar ∨ s.runState k = stWaitTime → (s.cell k).stopReq ≠ 0 → (s.cell k).stopReq < 8 →
    ∃ t, exec (.cellStop k) s = .next t ∧ RunSet s t k stStopped (s.cell k).stopReq 0
      ((s.pc (.cell k) + 2 ^ 48 - 16) % 2 ^ 48) { s.cell k with stopReq := 0, wait := none, line := none, held := none } []) ∧
  (∀ k s b n, s.runState k = stWaitBar → (s.cell k).wait = some (.bar b n) → n ≤ s.barVal (s.part (.cell k)) b →
    ∃ t, exec (.barrierWaitEnd k) s = .next t ∧ Woken s t k ∧ RunSet s t k stRun 0 0 (s.pc (.cell k))
      { s.cell k with wait := none, idle := 0 } [R.CELL_CLK_STAT k, R.CELL_WAKE_CNT k]) ∧
  (∀ k s n, s.runState k = stWaitTime → (s.cell k).wait = some (.time n) → n ≤ (s.nsAt k.die.val).toNat →
    ∃ t, exec (.timeWaitEnd k) s = .next t ∧ Woken s t k ∧ RunSet s t k stRun 0 0 (s.pc (.cell k))
      { s.cell k with wait := none, idle := 0 } [R.CELL_CLK_STAT k, R.CELL_WAKE_CNT k])

/-- R267-R269, R275, R287: a fetch holds the line of the PC in the cell's own SRAM and elsewhere the word; a line that is held is
not read again; a word with an unlisted class or minor opcode is refused with cause 1; a PC that is misaligned or names a page
that the partition does not own or that is FREE is a violation of cause 4, after which a cell is STOPPED. -/
def Sys2Proof.Claim.InstructionFetches : Prop :=
  (∀ c s, let pc := s.pc c
    let r : Run := if s.ownPage c (pc / pageSize) then (pc / 64 * 64, 64) else (pc, 16)
    s.running c = true → (s.ctx c).lineWord pc = none → pc % 16 = 0 → s.pageOk (s.part c) (pc / pageSize) = true →
    s.isFree (pc / pageSize) = false → Calm s (s.part c) [] →
    ∃ t, exec (.instructionFetch c) s = .next t ∧ (t.ctx c).line = some ⟨r.1, s.bytesAt r.1 r.2, []⟩ ∧
      (t.ctx c).regs = (s.ctx c).regs ∧ CtxsBut s t c ∧ t.dir = s.dir ∧ t.bytes = s.bytes ∧ t.frames = s.frames) ∧
  (∀ c s w, s.running c = true → (s.ctx c).lineWord (s.pc c) = some w → (s.ctx c).lineBad (s.pc c) = false →
    minorListed (bitsOf w 127 124) (bitsOf w 123 116) = true → exec (.instructionFetch c) s = .next s) ∧
  (∀ c s w, s.running c = true → (s.ctx c).lineWord (s.pc c) = some w → (s.ctx c).lineBad (s.pc c) = false →
    minorListed (bitsOf w 127 124) (bitsOf w 123 116) = false → (s.ctx c).held = none → bitsOf w 114 112 ∉ (s.ctx c).pendP →
    ((s.ctx c).regs.getP (bitsOf w 114 112) != w.testBit 115) = true →
    ∃ t, exec (.instructionFetch c) s = .next t ∧ t.pc c = (s.pc c + 16) % 2 ^ 48 ∧
      match c with
      | .cell k =>
        t.rd (R.CELL_VIOL_CNT k) = satAdd64 (s.rd (R.CELL_VIOL_CNT k)) 1 ∧
        t.rd (R.CELL_VIOL_LAST k) =
          BitVec.ofNat 64 (2 ^ 60 + bitsOf w 127 124 * 2 ^ 56 + bitsOf w 123 116 * 2 ^ 48 + s.pc c) ∧
        OnlyCsrs s t [R.CELL_SEQ_STAT k, R.CELL_SEQ_ISSUE_CNT k, R.CELL_VIOL_CNT k, R.CELL_VIOL_LAST k]
      | .zen d _ => t.rd (R.DIE_ZEN_VIOL_CNT d.val) = satAdd64 (s.rd (R.DIE_ZEN_VIOL_CNT d.val)) 1 ∧
        CsrsBut s t [R.DIE_ZEN_VIOL_CNT d.val] ∧ CtxsBut s t c ∧ OnlyRegs s t) ∧
  (∀ k s, let pc := s.pc (.cell k)
    s.runState k = stRun → (s.cell k).lineWord pc = none →
    pc % 16 ≠ 0 ∨ s.pageOk (s.part (.cell k)) (pc / pageSize) = false ∨ s.isFree (pc / pageSize) = true →
    ∃ t, exec (.instructionFetch (.cell k)) s = .next t ∧
      t.rd (R.CELL_VIOL_CNT k) = satAdd64 (s.rd (R.CELL_VIOL_CNT k)) 1 ∧
      t.rd (R.CELL_VIOL_LAST k) = BitVec.ofNat 64 (4 * 2 ^ 60 + pc) ∧
      RunSet s t k stStopped causeFetch 0 pc { s.cell k with line := none, held := none, stopReq := 0 }
        [R.CELL_VIOL_CNT k, R.CELL_VIOL_LAST k])

namespace Sys2Proof.Claim

/-! Units that take an instruction at once. -/

/-- The state in which a free unit takes instruction `i`: it has issued and waits at the head of its queue (R260). -/
def entered (s : State) (c : Ctx) (u : UnitId) (i : Instr) : State :=
  (s.setCtx c { s.ctx c with waiting := (s.ctx c).waiting ++ [s.newJob c u i], seqno := (s.ctx c).seqno + 1 }).issuedAt c
    (s.pc c + 16)

/-- The unit has taken the instruction: from the state `entered` its work leaves `x`, and the instruction leaves the queue and
is in flight as `fl` (R261). -/
def Taken (o : Host.Outcome State Fault Refusal) (s : State) (c : Ctx) (u : UnitId) (i : Instr)
    (work : State → State → Flight → Prop) : Prop :=
  ∃ x fl, o = .next ((x.dropWaiting c (s.newJob c u i)).fly c fl) ∧ fl.job = s.newJob c u i ∧ work (entered s c u i) x fl

/-- What an instruction takes to be taken at once: it issues and nothing waits before it. -/
def Ready (s : State) (c : Ctx) (p : Pred) (u : UnitId) (i : Instr) (ss ps : List Nat) : Prop :=
  Issues s c p i ss ps ∧ UnitFree s c u

/-- The tensor addresses of byte ranges, in order. -/
def runAddrs (rs : List Run) : List Nat := rs.flatMap fun r => (List.range r.2).map (r.1 + ·)

/-- The bytes of the frames once each byte of a list has been stored at the home of its address, in order; nothing else of
memory changes. -/
def stores (s : State) (l : List (Nat × Byte)) : SMap Byte :=
  l.foldl (fun b x => match s.frameOf x.1 with
    | some f => SMap.set b 0 (f * pageSize + x.1 % pageSize) x.2
    | none => b) s.bytes

/-- A unit of context `c` changes memory only in bytes, tiers and what `l` lists of the CSRs, and no program context. -/
def UnitFrame (s x : State) (l : List Nat) : Prop :=
  CsrsBut s x l ∧ CtxSame s x ∧ StepSame s x ∧ FabricSame s x ∧ ServiceSame s x ∧ x.ue = s.ue ∧ x.ce = s.ce ∧ x.traps = s.traps

/-- The flit counters of the Span ports, which transfers between dies advance (R22, R365). -/
def spanRegs : List Nat := (List.range 20).flatMap fun d => (List.range 4).map fun p => R.DIE_SPAN_FLIT_CNTp d p

/-- The counters of the home cache of a die and of the ways between the dies. -/
def homeRegs (c : Ctx) : List Nat := R.DIE_HC_HIT_CNT (ctxDie c) :: R.DIE_HC_MISS_CNT (ctxDie c) :: spanRegs

/-- The descriptor fields of descriptor register `n` as the instruction took them. -/
def dsc (s : State) (c : Ctx) (n : Fin 16) : DescV := descV ((s.ctx c).regs.getD n.val)

/-- The bytes of a region are stored at DD, row by row, after its pages have been allocated. -/
def copied (s1 : State) (t : Tabs) (ds dd : DescV) : List (Nat × Byte) :=
  ds.rows.flatMap fun r => (runAddrs (dd.rowRuns t r)).zip (packElems (fmtWidth t ds.fmt) (s1.rowElems t ds r))

/-- The four bank atomics: their width in bytes, the new word and the value of RD from operand and old word (R344, R345). -/
def atomOps : List ((Ctx → Pred → FmtM → Instr) × Nat × (Nat → Nat → Nat) × (Nat → W64)) :=
  [(.movAadd32, 4, fun b o => (o + b) % 2 ^ 32, fun o => (BitVec.ofNat 32 o).signExtend 64),
    (.movAadd64, 8, fun b o => (o + b) % 2 ^ 64, fun o => BitVec.ofNat 64 o),
    (.movAaddfx, 8, fun b o => (o + b) % 2 ^ 64, fun o => BitVec.ofNat 64 o),
    (.movSwap, 8, fun b _ => b, fun o => BitVec.ofNat 64 o)]

/-- The page of an atomic once it is certain to have a home (R317). -/
def placed (s : State) (w : Writer) (p pg : Nat) (s1 : State) : Prop :=
  if s.isFree pg then s.allocate w p pg true = some s1 else s1 = s

/-- Whether a hint for a page is ignored (R326): the page is not HOMED, is another partition's or is in a move, the placement of the
partition is fixed, or it is to move where it cannot: to no cell of the partition, where it is already, or from where it is pinned. -/
def hintIgnored (s : State) (q kind rel pg : Nat) : Bool :=
  (s.ent pg).st != .homed || (s.ent pg).owner != q || s.inMove pg || (s.tierCfg q).toNat % 4 == 1 ||
    kind != 1 && kind != 2 && ((s.ent pg).pin || ((s.relLogical q rel).map (s.homedAt pg)).getD true)

/-- What a hint does with one page: it is counted as ignored, pins, unpins, or requests a move to a cell (R326). -/
def hinted (q kind rel : Nat) (s : State) (pg : Nat) : State :=
  if hintIgnored s q kind rel pg then s.count (R.PART_TIER_HINT_IGN_CNT q) 1
  else if kind = 1 then s.setEnt pg { s.ent pg with pin := true }
  else if kind = 2 then s.setEnt pg { s.ent pg with pin := false }
  else
    let d := locDie (s.ent pg).home
    { s with tiers := { s.tiers with
      reqs := SMap.set s.tiers.reqs [] d (SMap.get s.tiers.reqs [] d ++ [⟨pg, (s.relLogical q rel).getD 0, false⟩]) } }

/-- The bytes of the frames once element `x` of a region has been added, as FX64, to the word of `dd` that has its indices: one bank
atomic, modulo 2⁶⁴; a NaN adds 0 (R299, R345). -/
def gaddOne (e : State) (t : Tabs) (ds sc dd : DescV) (b : SMap Byte) (x : Row × Nat) : SMap Byte :=
  let m := { e with bytes := b }
  let v := scaledVal t ds.fmt (m.elemBits t ds x.1 x.2) (m.scaleByte ds sc x.1 x.2)
  let a := ((dd.rowPart x.1 (8 * x.2) 8).headD (0, 0)).1
  stores m ((runAddrs [(a, 8)]).zip (leBytes 8 ((leNat (m.bytesAt a 8) + if v.isNan then 0 else (fxOf v).1) % 2 ^ 64)))

end Sys2Proof.Claim

/-- R260: mov.copy of a cell, as an instruction for a unit, waits behind the instructions of a queue that holds some and
fewer than 8, and with 8 it is held and does not issue; the state `entered`, from which a free unit takes an instruction, differs
from the state before only by the issue. -/
def Sys2Proof.Claim.QueueEntry : Prop :=
  (∀ k p (f : FmtM) s, f = { fmtM0 f with dd := f.dd, ds := f.ds } → Issues s (.cell k) p (.movCopy (.cell k) p f) [] [] →
    0 < ((s.cell k).queue .mov).length →
    ∃ t, exec (.movCopy (.cell k) p f) s = .next t ∧
      if ((s.cell k).queue .mov).length < 8 then
        Advanced s t (.cell k) (s.pc (.cell k) + 16) { s.cell k with
          waiting := (s.cell k).waiting ++ [s.newJob (.cell k) .mov (.movCopy (.cell k) p f)], seqno := (s.cell k).seqno + 1 }
      else t.cell k = { s.cell k with held := some (.movCopy (.cell k) p f) } ∧ CsrsBut s t [] ∧ CtxsBut s t (.cell k) ∧
        OnlyRegs s t) ∧
  (∀ s c u i, Advanced s (entered s c u i) c (s.pc c + 16) { s.ctx c with
    waiting := (s.ctx c).waiting ++ [s.newJob c u i], seqno := (s.ctx c).seqno + 1 })

/-- R297, R317: mov.copy stores the bits of the region DS in the region DD, whose FREE pages it allocates; mov.take does the
same and leaves every page of DS free.
Model's choices: log entries 3, 17 and 37. -/
def Obligations.MovCopyResults : Prop :=
  ∀ take c p (f : FmtM) s s1,
    let i := if take then Instr.movTake c p f else Instr.movCopy c p f
    let e := entered s c .mov i
    let t := s.tabs c
    f = { fmtM0 f with dd := f.dd, ds := f.ds } → Ready s c p .mov i [] [] → Calm e (e.part c) ((dsc s c f.dd).runs t) →
    e.copyFail c (s.newJob c .mov i) f take = none →
    (take = true → ∀ pg ∈ pagesOf ((dsc s c f.ds).runs t), e.inMove pg = false) →
    e.allocateAll (writerOf c) (e.part c) (pagesOf ((dsc s c f.dd).runs t)) = some s1 →
    Taken (exec i s) s c .mov i fun _ x fl =>
      fl = Flight.plain (s.newJob c .mov i) ∧ x.bytes = stores s1 (copied s1 t (dsc s c f.ds) (dsc s c f.dd)) ∧
      x.frames = s1.frames ∧
      (∀ pg, if take = true ∧ pg ∈ pagesOf ((dsc s c f.ds).runs t) then (x.ent pg).st = .free else x.ent pg = s1.ent pg) ∧
      UnitFrame s1 x (R.PART_TIER_EMPTY_CNT (e.part c) :: homeRegs c)

/-- R296, R298, R328: mov.lds sets PD to 0 and leaves RD at a gated or FREE page, and else loads the word and sets PD to 1;
mov.sts stores the word, allocating its page. -/
def Sys2Proof.Claim.MovWordResults : Prop :=
  (∀ c p (f : FmtM) s,
    let i := Instr.movLds c p f
    let e := entered s c .mov i
    let a := movAddr (s.ctx c).regs f.ra.val f.imm
    f = { fmtM0 f with rd := f.rd, pd := f.pd, ra := f.ra, imm := f.imm } →
    Ready s c p .mov i [f.rd.val, f.ra.val] [f.pd.val] → Calm e (e.part c) [] →
    (f.bare = true → f.bar.val < e.nbar (e.part c)) → a % 8 = 0 → e.pageOk (e.part c) (a / 65536) = true →
    Taken (exec i s) s c .mov i fun e x fl =>
      x.bytes = e.bytes ∧ x.dir = e.dir ∧ x.frames = e.frames ∧
      if e.gated (e.part c) (a / 65536) = true then
        fl = { Flight.plain (s.newJob c .mov i) with pd := [(f.pd.val, false)] } ∧
        x.rd (R.PART_TIER_NOTREADY_CNT (e.part c)) = satAdd64 (e.rd (R.PART_TIER_NOTREADY_CNT (e.part c))) 1 ∧
        UnitFrame e x [R.PART_TIER_NOTREADY_CNT (e.part c)]
      else if e.isFree (a / 65536) = true then
        fl = { Flight.plain (s.newJob c .mov i) with pd := [(f.pd.val, false)] } ∧ UnitFrame e x (homeRegs c)
      else
        fl = { Flight.plain (s.newJob c .mov i) with
          rd := some (f.rd.val, BitVec.ofNat 64 (leNat (e.bytesAt a 8))), pd := [(f.pd.val, true)] } ∧
        UnitFrame e x (homeRegs c)) ∧
  (∀ c p (f : FmtM) s s1,
    let i := Instr.movSts c p f
    let e := entered s c .mov i
    let a := movAddr (s.ctx c).regs f.ra.val f.imm
    f = { fmtM0 f with ra := f.ra, rb := f.rb, imm := f.imm } →
    Ready s c p .mov i [f.ra.val, f.rb.val] [] → Calm e (e.part c) [(a, 8)] →
    (f.bare = true → f.bar.val < e.nbar (e.part c)) → a % 8 = 0 → e.pageOk (e.part c) (a / 65536) = true →
    e.allocateAll (writerOf c) (e.part c) [a / 65536] = some s1 →
    Taken (exec i s) s c .mov i fun _ x fl =>
      fl = Flight.plain (s.newJob c .mov i) ∧
      x.bytes = stores s1 ((runAddrs [(a, 8)]).zip (leBytes 8 ((s.ctx c).regs.getS f.rb.val).toNat)) ∧
      x.dir = s1.dir ∧ x.frames = s1.frames ∧ UnitFrame s1 x (homeRegs c))

/-- R18, R344, R345: mov.aadd32, aadd64, aaddfx and swap of a page homed in the SRAM of the issuer's die put the new word
there and bring the old one to RD; the cell that holds the word counts the atomic. -/
def Sys2Proof.Claim.MovAtomicResults : Prop :=
  ∀ o ∈ atomOps, ∀ c p (f : FmtM) s s1 k,
    let i := o.1 c p f
    let e := entered s c .mov i
    let a := movAddr (s.ctx c).regs f.ra.val f.imm
    let old := leNat (s1.bytesAt a o.2.1)
    f = { fmtM0 f with rd := f.rd, ra := f.ra, rb := f.rb, imm := f.imm } →
    Ready s c p .mov i [f.rd.val, f.ra.val, f.rb.val] [] → Calm e (e.part c) [(a, o.2.1)] →
    (f.bare = true → f.bar.val < e.nbar (e.part c)) → a % o.2.1 = 0 → e.pageOk (e.part c) (a / 65536) = true →
    placed (e.resolve c [a / 65536]) (writerOf c) (e.part c) (a / 65536) s1 →
    s1.atomCell (ctxDie c) (a / 65536) = some k →
    Taken (exec i s) s c .mov i fun _ x fl =>
      fl = { Flight.plain (s.newJob c .mov i) with rd := some (f.rd.val, o.2.2.2 old) } ∧
      x.bytes = stores s1 ((runAddrs [(a, o.2.1)]).zip
        (leBytes o.2.1 (o.2.2.1 ((s.ctx c).regs.getS f.rb.val).toNat old))) ∧
      x.rd (R.CELL_ATOM_CNT k) = satAdd64 (s1.rd (R.CELL_ATOM_CNT k)) 1 ∧
      x.dir = s1.dir ∧ x.frames = s1.frames ∧ UnitFrame s1 x [R.CELL_ATOM_CNT k, R.CELL_ATOM_WRAP_CNT k]

/-- R18, R287: a bank atomic on a page that is not homed in the SRAM of the issuer's die is refused with cause 0xB after its
issue: counted and latched on the issuing cell, and no byte changes. -/
def Sys2Proof.Claim.AtomicElsewhereRefused : Prop :=
  ∀ o ∈ atomOps, ∀ k p (f : FmtM) s,
    let c := Ctx.cell k
    let i := o.1 c p f
    let e := entered s c .mov i
    let a := movAddr (s.ctx c).regs f.ra.val f.imm
    f = { fmtM0 f with rd := f.rd, ra := f.ra, rb := f.rb, imm := f.imm } →
    Ready s c p .mov i [f.rd.val, f.ra.val, f.rb.val] [] → e.bareFail c i = none → a % o.2.1 = 0 →
    e.pageOk (e.part c) (a / 65536) = true → (e.ent (a / 65536)).st ≠ .free → (e.ent (a / 65536)).st ≠ .switch →
    e.atomCell (ctxDie c) (a / 65536) = none → (e.ctx c).arrives = [] →
    ∃ t, exec i s = .next t ∧ t.bytes = s.bytes ∧ t.dir = s.dir ∧ t.frames = s.frames ∧
      t.rd (R.CELL_VIOL_CNT k) = satAdd64 (s.rd (R.CELL_VIOL_CNT k)) 1 ∧
      t.rd (R.CELL_VIOL_LAST k) =
        BitVec.ofNat 64 (0xB * 2 ^ 60 + insnClass i * 2 ^ 56 + insnMinor i * 2 ^ 48 + s.pc c) ∧
      (t.ctx c).queue .mov = []

/-- R299, R345: mov.gadd adds each element of DS, as FX64, to the word of DD that has its indices, in order and modulo 2⁶⁴, by
one bank atomic each; a NaN adds 0. Here every word of DD is homed in the SRAM of the issuer's die. -/
def Sys2Proof.Claim.MovGaddResults : Prop :=
  ∀ c p (f : FmtM) s,
    let i := Instr.movGadd c p f
    let e := entered s c .mov i
    let t := s.tabs c
    let ds := dsc s c f.ds
    let sc := descV ((s.ctx c).regs.getD ds.sdi)
    let dd := dsc s c f.dd
    let els := ds.rows.flatMap fun r => (List.range ds.e0).map fun m => (r, m)
    let adr := fun (x : Row × Nat) => ((dd.rowPart x.1 (8 * x.2) 8).headD (0, 0)).1
    f = { fmtM0 f with dd := f.dd, ds := f.ds } → Ready s c p .mov i [] [] → Calm e (e.part c) (els.map fun x => (adr x, 8)) →
    e.gaddFail c (s.newJob c .mov i) f = none →
    (∀ x ∈ els, e.isFree (adr x / 65536) = false ∧ (e.atomCell (ctxDie c) (adr x / 65536)).isSome = true) →
    Taken (exec i s) s c .mov i fun e x fl =>
      fl.rd = none ∧ fl.pd = [] ∧ x.dir = e.dir ∧ x.frames = e.frames ∧ CtxSame e x ∧ StepSame e x ∧ FabricSame e x ∧
      ServiceSame e x ∧ x.bytes = els.foldl (gaddOne e t ds sc dd) e.bytes

/-- R332, R333: mov.spill stores the header and the coded blocks of DS at the start of DD, marks the pages written, counts the
raw blocks and brings the length to RD. -/
def Sys2Proof.Claim.MovSpillResults : Prop :=
  ∀ c p (f : FmtM) s,
    let i := Instr.movSpill c p f
    let e := entered s c .mov i
    let t := s.tabs c
    let ds := dsc s c f.ds
    let dd := dsc s c f.dd
    let bs := e.streamOf t ds
    let out := spillHeader ds bs.length ++ (blocksOf bs).flatMap (blockBytes ds.fmt)
    let rs := firstBytes out.length (dd.runs t)
    f = { fmtM0 f with rd := f.rd, dd := f.dd, ds := f.ds } → Ready s c p .mov i [f.rd.val] [] → Calm e (e.part c) rs →
    e.spillFail c (s.newJob c .mov i) f = none →
    Taken (exec i s) s c .mov i fun e x fl =>
      fl = { Flight.plain (s.newJob c .mov i) with rd := some (f.rd.val, BitVec.ofNat 64 out.length) } ∧
      x.bytes = stores e ((runAddrs rs).zip out) ∧ x.frames = e.frames ∧
      (∀ pg, x.ent pg = if pg ∈ pagesOf rs then { e.ent pg with spill := true } else e.ent pg) ∧
      x.rd (R.PART_TIER_SPILL_RAW_CNT (e.part c)) = satAdd64 (e.rd (R.PART_TIER_SPILL_RAW_CNT (e.part c)))
        ((blocksOf bs).filter fun b => (codeBlock ds.fmt b).1 = 0).length ∧
      UnitFrame e x (R.PART_TIER_SPILL_RAW_CNT (e.part c) :: R.PART_TIER_EMPTY_CNT (e.part c) :: homeRegs c)

/-- R332-R334: what mov.spill writes for a region of DD's shape, mov.fill reads back as the same bytes, whatever follows it.
Model's choices: log entry 68. -/
def Obligations.SpillFillRoundTrip : Prop :=
  ∀ (dd : DescV) (t : Tabs) (bs rest : List Byte), bs.length = dd.streamLen t → bs.length < 2 ^ 44 →
    ∃ n, fillArea dd t (spillHeader dd bs.length ++ (blocksOf bs).flatMap (blockBytes dd.fmt) ++ rest) = .ok bs n ∧
      n = (spillHeader dd bs.length ++ (blocksOf bs).flatMap (blockBytes dd.fmt)).length

/-- R334, R317: mov.fill stores the bytes of a good spill area in DD, allocating its pages. -/
def Sys2Proof.Claim.MovFillResults : Prop :=
  ∀ c p (f : FmtM) s s1 bs n,
    let i := Instr.movFill c p f
    let e := entered s c .mov i
    let t := s.tabs c
    let ds := dsc s c f.ds
    let dd := dsc s c f.dd
    let rs := dd.runs t
    f = { fmtM0 f with dd := f.dd, ds := f.ds } → Ready s c p .mov i [] [] → Calm e (e.part c) rs →
    e.bareFail c i = none → e.movDescFail c (s.newJob c .mov i) f.ds.val (movPermit (fun _ => true) false false) = none →
    e.movDescFail c (s.newJob c .mov i) f.dd.val (movPermit (fun _ => true) false true) = none →
    e.quotaFail c rs = none → fillArea dd t (e.bytesOf (ds.runs t)) = .ok bs n →
    (e.resolve c (pagesOf (ds.runs t))).allocateAll (writerOf c) (e.part c) (pagesOf rs) = some s1 →
    Taken (exec i s) s c .mov i fun _ x fl =>
      fl = Flight.plain (s.newJob c .mov i) ∧ x.bytes = stores s1 ((runAddrs rs).zip bs) ∧ x.dir = s1.dir ∧
      x.frames = s1.frames ∧ UnitFrame s1 x (homeRegs c)

/-- R326: mov.hint pins or unpins each page of the region that its partition owns, or requests a move of it to the cell that
s[RA] names, one page after another; a page that it cannot serve counts. Nothing else changes. -/
def Sys2Proof.Claim.MovHintResults : Prop :=
  ∀ c p (f : FmtM) s,
    let i := Instr.movHint c p f
    let e := entered s c .mov i
    let ds := dsc s c f.ds
    let pgs := pagesOf (ds.runs (s.tabs c))
    f = { fmtM0 f with ra := f.ra, ds := f.ds, imm := f.imm } → f.imm.toNat % 4 ≠ 3 → Ready s c p .mov i [f.ra.val] [] →
    e.bareFail c i = none → ds.formOk (descV ((s.ctx c).regs.getD ds.sdi)) (s.tabs c) (movPermit (fun _ => true) false false) = true →
    (∀ pg ∈ pgs, pg < 2 ^ 26) →
    Taken (exec i s) s c .mov i fun e x fl =>
      fl = Flight.plain (s.newJob c .mov i) ∧
      x = pgs.foldl (hinted (e.part c) (f.imm.toNat % 4) ((s.ctx c).regs.getS f.ra.val).toNat) e

namespace Sys2Proof.Claim

/-- A unit of cell `k` changes its own context to `y`, and of everything else only bytes, tiers, the directory, the frames and
what `l` lists of the CSRs. -/
def CellFrame (s x : State) (k : CellId) (y : CellCtx) (l : List Nat) : Prop :=
  x.cell k = y ∧ CsrsBut s x l ∧ CtxsBut s x (.cell k) ∧ StepSame s x ∧ FabricSame s x ∧ ServiceSame s x ∧ x.ue = s.ue ∧
    x.ce = s.ce ∧ x.traps = s.traps

/-- The bank that vec.acc names can be read: no array instruction for it waits, and it is FULL (R199). -/
def BankReadable (e : State) (k : CellId) (j : Job) (b : Nat) : Prop :=
  (e.cell k).bankAhead j b = false ∧ e.bankSt k b = bFull ∧ (e.cell k).engineHold j .row = false

/-- The value of entry `n` of a bank (R158, R198). -/
def bankVal (e : State) (k : CellId) (b n : Nat) : Val :=
  entVal (e.bank k b).form (SMap.get (e.bank k b).ents AccEnt.zero n)

/-- The bank has become READING, and its sticky entries have been counted (R199). -/
def BankRead (e x : State) (k : CellId) (b : Nat) : Prop :=
  x.bankSt k b = bReading ∧ x.rd (R.CELL_VEC_STICKY_CNT k) =
    satAdd64 (e.rd (R.CELL_VEC_STICKY_CNT k)) ((bankEnts (e.bank k b)).filter (·.sticky)).length

/-- CSRs that vec.acc may change. -/
def accRegs (k : CellId) (b : Nat) : List Nat :=
  [bankReg k b, R.CELL_VEC_STICKY_CNT k, R.CELL_VEC_INEX_CNT k, R.CELL_SAT_CNT k, R.CELL_OVF_CNT k]

/-- The row instructions that form one result per row: the fields that they use, the scalars that they read, and their
formulas. -/
def rowInsns : List ((Ctx → Pred → FmtV → Instr) × (FmtV → FmtV) × (FmtV → List Nat) × (FmtV → Job → RowOp)) :=
  [(.rowSoftmax, fun f => { fmtV0 with ds := f.ds, du := f.du, rs := f.rs, sbase := f.sbase }, fun f => [f.rs.val], softmaxOp),
    (.rowSmbwd, fun f => { fmtV0 with ds := f.ds, dt := f.dt, du := f.du, rs := f.rs, sbase := f.sbase }, fun f => [f.rs.val],
      smbwdOp),
    (.rowNorm, fun f => { fmtV0 with ds := f.ds, du := f.du, rs := f.rs, sbase := f.sbase }, fun f => [f.rs.val], normOp false),
    (.rowRms, fun f => { fmtV0 with ds := f.ds, du := f.du, rs := f.rs, sbase := f.sbase }, fun f => [f.rs.val], normOp true),
    (.rowNormbwd, fun f => { fmtV0 with ds := f.ds, dt := f.dt, du := f.du, sbase := f.sbase, tag := f.tag }, fun _ => [],
      normbwdOp),
    (.rowLse, fun f => { fmtV0 with du := f.du, sbase := f.sbase }, fun _ => [], lseOp)]

/-- Row `i` as the engine takes it from the bytes of `m` (R205, R206): its inputs as FP32 and its entry. -/
def rowIn (o : RowOp) (k : CellId) (j : Job) (m : State) (n i : Nat) : RowIn :=
  let tout := (descV (j.regs.getD o.out)).fmt
  let l := o.ins.map fun q => (m.rowLoad j tout q (i * n) i).map fun e => BitVec.ofNat 32 e.bits
  ⟨j, tout, i * n, l.headD [], (l.drop 1).headD [], ((m.cell k).stat (o.sb + i)).first, ((m.cell k).stat (o.sb + i)).sec⟩

/-- The bytes of the frames once row `a` of a row instruction has been stored. -/
def rowOne (s : State) (k : CellId) (j : Job) (op : RowOp) (n : Nat) (b : SMap Byte) (a : Nat) : SMap Byte :=
  let m := { s with bytes := b }
  let du := descV (j.regs.getD op.out)
  stores m ((runAddrs (du.rowRuns j.tabs ⟨a, 0, 0⟩)).zip (packElems (fmtWidth j.tabs du.fmt) (op.fn (rowIn op k j m n a)).ys))

end Sys2Proof.Claim

/-- R198-R201: vec.acc reads a FULL bank: F32 rounds each entry, F32ADD adds an FP32 tile to it exactly and rounds once,
TRIPLE writes hi, mid and lo into three tiles; the bank becomes READING until the instruction retires. -/
def Sys2Proof.Claim.VecAccTileForms : Prop :=
  ∀ k p (f : FmtV) s,
    let c := Ctx.cell k
    let i := Instr.vecAcc c p f
    let e := entered s c .vec i
    let j := s.newJob c .vec i
    let v := bankVal e k f.bank.val
    f.form ≠ 3 → accFields f = true → (f.form = 2 → f.td.val ≤ 5) → Ready s c p .vec i [] [] →
    BankReadable e k j f.bank.val →
    Taken (exec i s) s c .vec i fun e x fl =>
      fl.rd = none ∧ fl.pd = [] ∧ fl.bank = some (f.bank.val, f.rel) ∧ BankRead e x k f.bank.val ∧
      CellFrame e x k { e.cell k with tiles := (x.cell k).tiles } (accRegs k f.bank.val) ∧ MemSame e x ∧
      (∀ n, n < 1024 →
        (f.form = 0 → ((x.cell k).tile f.td.val).getD n 0 = BitVec.ofNat 32 (toF32 (s.ovf c) (v n).toXR).bits) ∧
        (f.form = 1 → ((x.cell k).tile f.td.val).getD n 0 = BitVec.ofNat 32 (toF32 (s.ovf c)
          ((v n).add (f32Val (((e.cell k).tile f.tx.val).getD n 0))).toXR).bits) ∧
        (f.form = 2 →
          ((x.cell k).tile f.td.val).getD n 0 = BitVec.ofNat 32 (accTriple j (v n)).1.bits ∧
          ((x.cell k).tile (f.td.val + 1)).getD n 0 = BitVec.ofNat 32 (accTriple j (v n)).2.1.bits ∧
          ((x.cell k).tile (f.td.val + 2)).getD n 0 = BitVec.ofNat 32 (accTriple j (v n)).2.2.1.bits)) ∧
      (∀ n, ¬ (f.td.val ≤ n ∧ n ≤ f.td.val + (if f.form = 2 then 2 else 0)) → (x.cell k).tile n = (s.cell k).tile n)

/-- R201: TRIPLE of a finite entry that FP32 holds without saturating: each part is what the earlier parts leave, rounded to
FP32. -/
def Sys2Proof.Claim.TripleParts : Prop :=
  ∀ (j : Job) (d : Dy), (toF32 j.ovf d.toXR).sat = 0 → (toF32 j.ovf d.toXR).ovf = 0 →
    let hi := (toF32 j.ovf d.toXR).bits
    ∀ h m, f32Val (BitVec.ofNat 32 hi) = .fin h →
      f32Val (BitVec.ofNat 32 (toF32 j.ovf (d.sub h).toXR).bits) = .fin m →
      (accTriple j (.fin d)).1.bits = hi ∧
      (accTriple j (.fin d)).2.1.bits = (toF32 j.ovf (d.sub h).toXR).bits ∧
      (accTriple j (.fin d)).2.2.1.bits = (toF32 j.ovf ((d.sub h).sub m).toXR).bits

/-- R198-R200: vec.acc in form F64 stores each entry of a FULL bank, rounded to FP64, at its place in DS. -/
def Sys2Proof.Claim.VecAccStoreForm : Prop :=
  ∀ k p (f : FmtV) s s2,
    let c := Ctx.cell k
    let i := Instr.vecAcc c p f
    let e := entered s c .vec i
    let j := s.newJob c .vec i
    let d := dsc s c f.ds
    let t := s.tabs c
    f.form = 3 → accFields f = true → Ready s c p .vec i [] [] → BankReadable e k j f.bank.val → Calm e (e.part c) (d.runs t) →
    e.accF64Fail c j f = none →
    (e.readBank k f.bank.val).allocateAll (.cell k) (e.part c) (pagesOf (d.runs t)) = some s2 →
    Taken (exec i s) s c .vec i fun e x fl =>
      fl.rd = none ∧ fl.pd = [] ∧ fl.bank = some (f.bank.val, f.rel) ∧ BankRead e x k f.bank.val ∧
      x.dir = s2.dir ∧ x.frames = s2.frames ∧ CellFrame s2 x k (e.cell k) (homeRegs c ++ accRegs k f.bank.val) ∧
      x.bytes = stores s2 ((List.range d.e1).flatMap fun a => (runAddrs (d.rowRuns t ⟨a, 0, 0⟩)).zip
        (packElems 64 ((List.range d.e0).map fun m =>
          (convert t (s.ovf c) fmtFP64 (bankVal e k f.bank.val (32 * a + m)).toXR).bits)))

/-- R203, R204: vec.ld writes each element of DS to TD as FP32, 0 outside its extents; vec.st stores a tile, or the strip of
a block length, in the format of DS under the scales that it chooses, which it stores as well.
Model's choices: log entries 3, 17 and 37. -/
def Obligations.VecLoadStoreResults : Prop :=
  (∀ k p (f : FmtV) s,
    let c := Ctx.cell k
    let i := Instr.vecLd c p f
    let e := entered s c .vec i
    let j := s.newJob c .vec i
    let t := s.tabs c
    let d := dsc s c f.ds
    let ds := descV ((s.cell k).regs.getD d.sdi)
    f = { fmtV0 with td := f.td, ds := f.ds } → Ready s c p .vec i [] [] → Calm e (e.part c) [] →
    (e.cell k).engineHold j .row = false → e.engineFail c j ldPermit f.ds.val = none →
    Taken (exec i s) s c .vec i fun e x fl =>
      fl.rd = none ∧ fl.pd = [] ∧ fl.bank = none ∧ x.bytes = e.bytes ∧ x.dir = e.dir ∧ x.frames = e.frames ∧
      CellFrame e x k { e.cell k with tiles := (x.cell k).tiles }
        (R.PART_TIER_EMPTY_CNT (e.part c) :: homeRegs c ++ convRegs c) ∧
      (∀ n, n < 1024 → ((x.cell k).tile f.td.val).getD n 0 =
        if n / 32 < d.e1 ∧ n % 32 < d.e0 then
          BitVec.ofNat 32 (toF32 (s.ovf c) (scaledVal t d.fmt (e.elemBits t d ⟨n / 32, 0, 0⟩ (n % 32))
            (e.scaleByte d ds ⟨n / 32, 0, 0⟩ (n % 32))).toXR).bits
        else 0) ∧
      (∀ n, n ≠ f.td.val → (x.cell k).tile n = (s.cell k).tile n)) ∧
  (∀ k p (f : FmtV) s s1,
    let c := Ctx.cell k
    let i := Instr.vecSt c p f
    let e := entered s c .vec i
    let j := s.newJob c .vec i
    let t := s.tabs c
    let d := dsc s c f.ds
    let ds := descV ((s.cell k).regs.getD d.sdi)
    let el := stripAt (s.cell k) f.ta.val d.group.dir
    let sc := fun a m => if d.scaled then blockScale t d el a m else 0
    let runs := d.runs t ++ (scaleBytes d ds sc).map (·.1)
    f = { fmtV0 with ta := f.ta, ds := f.ds } → Ready s c p .vec i [] [] → Calm e (e.part c) runs →
    (e.cell k).engineHold j .row = false → e.engineFail c j (stPermit d) f.ds.val = none →
    e.quotaFail c (d.runs t ++ d.scaleRuns ds) = none → (d.scaled = true → f.ta.val + d.group.gsize ≤ 8) →
    e.allocateAll (.cell k) (e.part c) (pagesOf runs) = some s1 →
    Taken (exec i s) s c .vec i fun e x fl =>
      fl.rd = none ∧ fl.pd = [] ∧ fl.bank = none ∧ x.dir = s1.dir ∧ x.frames = s1.frames ∧
      CellFrame s1 x k (e.cell k) (homeRegs c ++ convRegs c) ∧
      x.bytes = stores s1 (((List.range d.e1).flatMap fun a => (runAddrs (d.rowRuns t ⟨a, 0, 0⟩)).zip
        (packElems (fmtWidth t d.fmt) ((List.range d.e0).map fun m =>
          (convert t (s.ovf c) d.fmt ((f32Val (el a m)).scale (-(sc a m))).toXR).bits))) ++
        (scaleBytes d ds sc).map fun q => (q.1.1, q.2)))

/-- R205-R211, R213: a row instruction forms each row of DU by its formula from the row's inputs and entry, in order, stores
it, writes the row's entry with its tag where it makes one, and counts the rows. -/
def Sys2Proof.Claim.RowResults : Prop :=
  ∀ o ∈ rowInsns, ∀ k p (f : FmtV) s s1,
    let c := Ctx.cell k
    let i := o.1 c p f
    let e := entered s c .row i
    let j := s.newJob c .row i
    let op := o.2.2.2 f j
    let t := s.tabs c
    let du := dsc s c f.du
    let d0 := descV ((s.cell k).regs.getD (op.ins.headD op.out))
    f = o.2.1 f → Ready s c p .row i (o.2.2.1 f) [] → Calm e (e.part c) (du.runs t) → (e.cell k).engineHold j .vec = false →
    e.rowFail k op j = none →
    e.allocateAll (.cell k) (e.part c) (pagesOf (du.runs t)) = some s1 →
    Taken (exec i s) s c .row i fun e x fl =>
      fl.rd = none ∧ fl.pd = [] ∧ fl.bank = none ∧ x.dir = s1.dir ∧ x.frames = s1.frames ∧
      CellFrame s1 x k { e.cell k with stats := (x.cell k).stats }
        (R.PART_TIER_EMPTY_CNT (e.part c) :: homeRegs c ++ convRegs c ++
          [R.CELL_ROW_CNT k, R.CELL_ROW_MASK_CNT k, R.CELL_ROW_PINF_CNT k]) ∧
      (op.rows = true → x.rd (R.CELL_ROW_CNT k) = satAdd64 (s1.rd (R.CELL_ROW_CNT k)) d0.e1) ∧
      x.bytes = (List.range d0.e1).foldl (rowOne s1 k j op d0.e0) s1.bytes ∧
      ∀ a tag b, a < d0.e1 → op.tag = some tag →
        (op.fn (rowIn op k j { s1 with bytes := (List.range a).foldl (rowOne s1 k j op d0.e0) s1.bytes } d0.e0 a)).ent = some b →
        (x.cell k).stat (op.sb + a) = statOf b.1 b.2 tag

/-- R208: a row whose scaled elements are all −∞ gives +0 everywhere, the entry (−∞, +0) and one mask count; a row with r
elements at +∞ gives 1/r at those and +0 elsewhere, and one count of such rows. -/
def Sys2Proof.Claim.SoftmaxSpecialRows : Prop :=
  ∀ (alpha : Val) (r : RowIn), r.xs ≠ [] →
    let z := (r.zs alpha).map (·.val)
    ((∀ v ∈ z, v = .inf true) →
      (rowSoftmaxRes alpha r).ys = r.xs.map (fun _ => (r.out (.zero false)).bits) ∧
      (rowSoftmaxRes alpha r).ent = some (0xFF800000, 0) ∧ (rowSoftmaxRes alpha r).mask = 1 ∧
      (rowSoftmaxRes alpha r).pinf = 0) ∧
    ((∀ v ∈ z, v.isNan = false) → .inf false ∈ z →
      let n := (z.filter fun v => v.eqv (.inf false)).length
      (rowSoftmaxRes alpha r).ys =
        z.map (fun v => if v.eqv (.inf false) then (r.out ((natVal 1).divX (natVal n))).bits else (r.out (.zero false)).bits) ∧
      (rowSoftmaxRes alpha r).mask = 0 ∧ (rowSoftmaxRes alpha r).pinf = 1)

/-- R206, R207: row.stst stores the two words of each entry, and row.stld writes them into the store with TAG. -/
def Sys2Proof.Claim.StatisticsTransfers : Prop :=
  (∀ k p (f : FmtV) s s1,
    let c := Ctx.cell k
    let i := Instr.rowStst c p f
    let e := entered s c .row i
    let j := s.newJob c .row i
    let t := s.tabs c
    let d := dsc s c f.du
    f = { fmtV0 with du := f.du, sbase := f.sbase } → Ready s c p .row i [] [] → Calm e (e.part c) (d.runs t) →
    (e.cell k).engineHold j .vec = false → e.statFail k j f.du.val f.sbase.val true true = none →
    e.allocateAll (.cell k) (e.part c) (pagesOf (d.runs t)) = some s1 →
    Taken (exec i s) s c .row i fun e x fl =>
      fl.rd = none ∧ fl.pd = [] ∧ fl.bank = none ∧ x.dir = s1.dir ∧ x.frames = s1.frames ∧
      CellFrame s1 x k (e.cell k) (homeRegs c) ∧
      x.bytes = stores s1 ((List.range d.e1).flatMap fun a => (runAddrs (d.rowRuns t ⟨a, 0, 0⟩)).zip
        (leBytes 8 ((s.cell k).stat (f.sbase.val + a)).v.toNat))) ∧
  (∀ k p (f : FmtV) s,
    let c := Ctx.cell k
    let i := Instr.rowStld c p f
    let e := entered s c .row i
    let j := s.newJob c .row i
    let t := s.tabs c
    let d := dsc s c f.ds
    f = { fmtV0 with ds := f.ds, sbase := f.sbase, tag := f.tag } → f.tag ≠ 0 → Ready s c p .row i [] [] →
    Calm e (e.part c) [] → (e.cell k).engineHold j .vec = false →
    e.statFail k j f.ds.val f.sbase.val false true = none →
    Taken (exec i s) s c .row i fun e x fl =>
      fl.rd = none ∧ fl.pd = [] ∧ fl.bank = none ∧ x.bytes = e.bytes ∧ x.dir = e.dir ∧ x.frames = e.frames ∧
      CellFrame e x k { e.cell k with stats := (x.cell k).stats } (R.PART_TIER_EMPTY_CNT (e.part c) :: homeRegs c) ∧
      ∀ n, (x.cell k).stat n = if f.sbase.val ≤ n ∧ n < f.sbase.val + d.e1 then
          statOf (BitVec.ofNat 32 ((e.rowElems t d ⟨n - f.sbase.val, 0, 0⟩).getD 0 0))
            (BitVec.ofNat 32 ((e.rowElems t d ⟨n - f.sbase.val, 0, 0⟩).getD 1 0)) f.tag.val
        else (s.cell k).stat n)

namespace Sys2Proof.Claim

/-! Arrays. -/

/-- The array instructions with their units. -/
def arrInsns : List ((Ctx → Pred → FmtA → Instr) × UnitId) := [(.duskMm, .dusk), (.dawnMm, .dawn), (.dawnMmt, .dawn)]

/-- The unit of an array. -/
def arrUnit : Arr → UnitId
  | .dusk => .dusk
  | .dawn => .dawn

/-- The passes of an array's class. -/
def arrPasses (x : CellCtx) : Arr → List Pass
  | .dusk => x.dusk
  | .dawn => x.dawn

/-- The bank that a pass of an array names: 0 fa0, 1 fa1, 2 ba0, 3 ba1 (R102, R125). -/
def passBank (a : Arr) (j : Job) : Nat :=
  (match a with
    | .dusk => 0
    | .dawn => 2) + bnat ((arrFields j.ins).mode.toNat.testBit 11)

/-- The counter of discarded banks, and the counter of repeated passes, of an array's class. -/
def discReg (k : CellId) : Arr → Nat
  | .dusk => R.CELL_DUSK_DISC_CNT k
  | .dawn => R.CELL_DAWN_DISC_CNT k

/-- A Dusk instruction whose operand the Dusk array does not take is handed to the Dawn array (R104). -/
def handsOver (a : Arr) (oa ob : PassOp) : Bool :=
  match a with
  | .dusk => !(isDuskFmt oa.fmt && isDuskFmt ob.fmt)
  | .dawn => false

/-- What the head of an array's queue needs to be accepted (R107, R112, R141, R168, R174). -/
def CanAccept (s : State) (k : CellId) (a : Arr) (j : Job) : Prop :=
  let p := s.part (.cell k)
  s.headJob (.cell k) (arrUnit a) = some j ∧
    (match a with
      | .dusk => (s.cell k).dusk.length < 2
      | .dawn => (s.cell k).onDawn < 2) ∧
    (handsOver a (s.passOp p j false) (s.passOp p j true) = true → (s.cell k).onDawn < 2) ∧
    s.bankSt k (passBank a j) ≠ bFilling ∧ s.bankSt k (passBank a j) ≠ bReading ∧
    ((slotField (arrFields j.ins) false).1 = true ∨ (slotField (arrFields j.ins) true).1 = true → (s.almOf p).verdict = none) ∧
    s.passFail p j (match a with | .dusk => true | .dawn => false) = none

/-- The commands that accept the head of an array's queue. -/
def acceptCmds (k : CellId) (a : Arr) : List Instr :=
  [match a with | .dusk => .duskPassAccept k | .dawn => .dawnPassAccept k, .unitAccept (.cell k) (arrUnit a)]

/-- The exact product of an element pair, in units of the weight 2^w. -/
def pairN (w : Int) (x : QEl × QEl) : Int :=
  match x.1.v, x.2.v with
  | .fin u, .fin v => u.m * v.m * 2 ^ (u.e + v.e + (x.1.e + x.2.e) - w).toNat
  | _, _ => 0

end Sys2Proof.Claim

/-- R101, R102, R260: dusk.mm, dawn.mm and dawn.mmt whose reserved bits and low mode bits are 0 wait in the array's queue. -/
def Sys2Proof.Claim.ArrayInstructionsQueue : Prop :=
  ∀ o ∈ arrInsns, ∀ k p (f : FmtA) s, f.rsv = 0 → f.mode.toNat % 1024 = 0 → Issues s (.cell k) p (o.1 (.cell k) p f) [] [] →
    ((s.cell k).queue o.2).length < 8 →
    ∃ t, exec (o.1 (.cell k) p f) s = .next t ∧ Advanced s t (.cell k) (s.pc (.cell k) + 16) { s.cell k with
      waiting := (s.cell k).waiting ++ [s.newJob (.cell k) o.2 (o.1 (.cell k) p f)], seqno := (s.cell k).seqno + 1 }

/-- R103, R104, R111, R112, R138, R141: an array accepts the head of its queue: the instruction becomes the newest pass of its
class with the operands that its bindings give, and its bank becomes zero and FILLING, a FULL one being counted as
discarded; a pass for the other array is handed over and counted.
Model's choices: log entries 3 and 79. -/
def Obligations.PassAcceptance : Prop :=
  ∀ k a s j, CanAccept s k a j → ∀ i ∈ acceptCmds k a,
    ∃ t w, exec i s = .next t ∧ arrPasses (t.cell k) a = arrPasses (s.cell k) a ++ [w] ∧
      w.job = j ∧ w.bank = passBank a j ∧ w.a = s.passOp (s.part (.cell k)) j false ∧ w.b = s.passOp (s.part (.cell k)) j true ∧
      w.handed = handsOver a w.a w.b ∧ w.attempt = 0 ∧ w.scanA = none ∧ w.scanB = none ∧
      (t.cell k).waiting = (s.cell k).waiting.filter (·.seq != j.seq) ∧
      t.bankSt k (passBank a j) = bFilling ∧ t.bank k (passBank a j) = Bank.zero ∧
      t.rd (discReg k a) = (if s.bankSt k (passBank a j) = bFull then satAdd64 (s.rd (discReg k a)) 1 else s.rd (discReg k a)) ∧
      t.rd (R.CELL_DUSK_HAND_CNT k) = (if w.handed then satAdd64 (s.rd (R.CELL_DUSK_HAND_CNT k)) 1
        else s.rd (R.CELL_DUSK_HAND_CNT k)) ∧
      (t.cell k).regs = (s.cell k).regs ∧ (t.cell k).tiles = (s.cell k).tiles ∧
      CtxsBut s t (.cell k) ∧ OnlyRegs s t

/-- R89, R90, R94, R95: on good memory the pre-scan of the earliest unscanned pass of an array fixes the scales and bounds of
both operands; a pass with more outliers than the table holds becomes wide and is counted. -/
def Sys2Proof.Claim.PrescanResults : Prop :=
  ∀ k a s w, ((s.cell k).passesOn a).find? (·.scanA.isNone) = some w → Calm s (s.part (.cell k)) [] →
    let p := s.part (.cell k)
    let n := (s.scanPass p w false).entries + (s.scanPass p w true).entries
    ∃ t w', exec (.prescanDone k a) s = .next t ∧ w' ∈ (t.cell k).dusk ++ (t.cell k).dawn ∧ w'.job = w.job ∧ w'.bank = w.bank ∧
      w'.a = w.a ∧ w'.b = w.b ∧ w'.wide = decide (2048 < n) ∧ w'.scanA.isSome = true ∧ w'.scanB.isSome = true ∧
      (n ≤ 2048 → w'.scanA = some (s.scanPass p w false) ∧ w'.scanB = some (s.scanPass p w true)) ∧
      t.rd (R.CELL_TWIDE_CNT k) = (if 2048 < n then satAdd64 (s.rd (R.CELL_TWIDE_CNT k)) 1 else s.rd (R.CELL_TWIDE_CNT k)) ∧
      t.bytes = s.bytes ∧ t.dir = s.dir ∧ t.frames = s.frames ∧ CtxsBut s t (.cell k) ∧ StepSame s t ∧ FabricSame s t ∧
      ServiceSame s t

/-- R91, R113: a pass whose data no longer meets its pre-scan is counted; the first time it starts anew, the second time it is
refused with cause 0xA, its bank becomes zero and FREE, and the pass is gone. -/
def Sys2Proof.Claim.PassAbandonment : Prop :=
  ∀ k a s w, ((s.cell k).passesOn a).find? (fun w => w.scanA.isSome && !s.passHolds w) = some w →
    let cnt := if w.bank < 2 then R.CELL_DUSK_REDO_CNT k else R.CELL_DAWN_REDO_CNT k
    ∃ t, exec (.passAbandon k a) s = .next t ∧ t.rd cnt = satAdd64 (s.rd cnt) 1 ∧ t.bytes = s.bytes ∧
      (w.attempt = 0 → ∃ w' ∈ (t.cell k).dusk ++ (t.cell k).dawn, w'.job = w.job ∧ w'.attempt = 1 ∧ w'.scanA = none ∧
        w'.scanB = none ∧ w'.wide = false ∧ t.bankSt k w.bank = s.bankSt k w.bank) ∧
      (w.attempt ≠ 0 → w.bank < 4 → t.bankSt k w.bank = bFree ∧ t.bank k w.bank = Bank.zero ∧
        t.rd (R.CELL_VIOL_CNT k) = satAdd64 (s.rd (R.CELL_VIOL_CNT k)) 1 ∧
        (t.rd (R.CELL_VIOL_LAST k)).toNat / 2 ^ 60 = 0xA ∧
        ∀ q ∈ (t.cell k).dusk ++ (t.cell k).dawn, q.job.seq ≠ w.job.seq)

/-- R114, R137: the earliest pass of a class that can retire, whose data meets its pre-scan, leaves its result in its bank,
which becomes FULL; the pass leaves the array, is counted, and its instruction retires. -/
def Sys2Proof.Claim.PassRetirement : Prop :=
  ∀ k a s w, (arrPasses (s.cell k) a).find? (s.cell k).canRetire = some w → s.ue = [] → s.passHolds w = true →
    w.bank / 2 = (match a with | .dusk => 0 | .dawn => 1) →
    let cnt := match a with | .dusk => R.CELL_DUSK_BUSY_CNT k | .dawn => R.CELL_DAWN_PASS_CNT k
    ∃ t, exec (match a with | .dusk => .duskPassRetire k | .dawn => .dawnPassRetire k) s = .next t ∧
      t.bank k w.bank = (s.passOut w).bank ∧ t.bankSt k w.bank = bFull ∧
      (∀ q ∈ (t.cell k).dusk ++ (t.cell k).dawn, q.job.seq ≠ w.job.seq) ∧
      (∀ b, b < 4 → b ≠ w.bank → t.bank k b = s.bank k b ∧ t.bankSt k b = s.bankSt k b) ∧
      t.rd cnt = satAdd64 (s.rd cnt) (match a with | .dusk => if w.onDawn then 0 else w.busy | .dawn => 1) ∧
      (t.cell k).regs = (s.cell k).regs ∧ (t.cell k).tiles = (s.cell k).tiles ∧ t.bytes = s.bytes ∧ t.dir = s.dir ∧
      t.frames = s.frames

/-- R151-R156: an entry whose elements are finite, of formats with one piece each, and whose products all lie within the
window of a fixed pass is the exact sum of the products: nothing is shed and no flag is set. -/
def Obligations.AccumulationExact : Prop :=
  ∀ (c : PassSum) (la lb : List QEl) (ea eb : Int) (ma mb : List Int),
    let w := c.anchor ea eb - c.window
    c.rank ≤ 1 → c.fixed = true → la.length = lb.length → c.lens.sum = la.length → ma.length = c.lens.length →
    mb.length = c.lens.length → (∀ x ∈ la ++ lb, ∃ d, x.v = .fin d) →
    (∀ x ∈ la.zip lb, ∀ u v, x.1.v = .fin u → x.2.v = .fin v → u.m * v.m ≠ 0 → w ≤ u.e + v.e + (x.1.e + x.2.e)) →
    let r := c.entry la lb ea eb ma mb
    r.ent = ⟨((la.zip lb).map (pairN w)).sum, c.anchor ea eb, false, false, false, false⟩ ∧ r.shed = 0 ∧ r.bad = []

/-- R117, R118, R146: columns that are up, with gating on, and idle for the programmed time are gated; the status field and the
idle time become 0, and nothing else changes. -/
def Sys2Proof.Claim.ColumnGating : Prop :=
  ∀ k a s, s.rdF (arrStatReg k a) (1, 0) = 2 → s.rdF (arrCtlReg k a) F.CELL_DUSK_CTL_GATE_IDLE ≠ 0 →
    16 * s.rdF (arrCtlReg k a) F.CELL_DUSK_CTL_GATE_IDLE ≤ (s.cell k).arrIdle a → (s.cell k).arrBusy a = false →
    ∃ t, exec (.columnGate k a) s = .next t ∧ t.rdF (arrStatReg k a) (1, 0) = 0 ∧ (t.cell k).arrIdle a = 0 ∧
      (t.rd (arrStatReg k a)).toNat / 4 = (s.rd (arrStatReg k a)).toNat / 4 ∧
      t.cell k = (match a with
        | .dusk => { s.cell k with idleDusk := 0 }
        | .dawn => { s.cell k with idleDawn := 0 }) ∧
      CsrsBut s t [arrStatReg k a] ∧ CtxsBut s t (.cell k) ∧ OnlyRegs s t

/-- R261, R263, R276, R199: the oldest instruction of a cell's unit that waits for nothing else retires: it leaves the flight,
its scalar and its predicates are written, BAR advances where it has BARE, and a bank that it read becomes FULL, or zero and
FREE with REL. UNIT_ACCEPT leaves a queue whose head its unit cannot yet begin.
Model's choices: log entries 3 and 9. -/
def Obligations.RetirementResults : Prop :=
  (∀ k u s f, (s.cell k).oldest u = some f →
    ∃ t, exec (.instructionRetire (.cell k) u) s = .next t ∧
      (t.cell k).flight = (s.cell k).flight.filter (·.job.seq != f.job.seq) ∧
      (t.cell k).tiles = (s.cell k).tiles ∧ (t.cell k).waiting = (s.cell k).waiting ∧
      (∀ n v, f.pd = [] → f.rd = some (n, v) → WroteS (s.cell k).regs (t.cell k).regs n v) ∧
      (∀ n b, f.rd = none → f.pd = [(n, b)] → WroteP (s.cell k).regs (t.cell k).regs n b) ∧
      (f.rd = none → f.pd = [] → (t.cell k).regs = (s.cell k).regs) ∧
      (∀ b, bareOf f.job.ins = some b → b < s.nbar (s.part (.cell k)) → (s.cell k).arrives = [] →
        t.barVal (s.part (.cell k)) b = min (s.barVal (s.part (.cell k)) b + 1) (2 ^ 48 - 1)) ∧
      (∀ b rel, f.bank = some (b, rel) → b < 4 →
        t.bankSt k b = (if rel then bFree else bFull) ∧ t.bank k b = if rel then Bank.zero else s.bank k b) ∧
      t.bytes = s.bytes ∧ t.dir = s.dir ∧ t.frames = s.frames) ∧
  (∀ k u s j x fl w, u ≠ .dusk → u ≠ .dawn → u ≠ .chk → s.headJob (.cell k) u = some j → perfOf j.ins = some w →
    w j (.cell k) s = .done x fl →
    exec (.unitAccept (.cell k) u) s = .next (s.verdictDone (.cell k) ((x.dropWaiting (.cell k) j).fly (.cell k) fl))) ∧
  (∀ k u s j w, u ≠ .dusk → u ≠ .dawn → s.headJob (.cell k) u = some j → perfOf j.ins = some w →
    w j (.cell k) s = .wait → exec (.unitAccept (.cell k) u) s = .next s)

namespace Sys2Proof.Claim

/-! Collectives, verdicts and the Ephemeris. -/

/-- The action that coll.slot arms (R306). -/
def newArmed (e : State) (k : CellId) (j : Job) (ent : Nat) : Armed :=
  ⟨ent, j, (e.nsAt (16 + entDie ent)).toNat, e.ttActive (e.part (.cell k)), false, false, false, ent, none⟩

/-- The occurrence of an entry of a timetable has started, as the clock of its Horizon die shows it (R389, R404). -/
def Begun (s : State) (p tt ent : Nat) : Prop :=
  let v := s.seenBy (16 + entDie ent)
  (s.rd (R.PART_TT_EPOCHt p tt)).toNat ≤ v.time.ns.toNat ∧ v.occStart p (s.entryT p tt ent) ≤ v.time.ns.toNat

/-- The armed actions of a cell once the one of entry `a.ent` is `a`. -/
def rearmed (l : List Armed) (a : Armed) : List Armed := l.map fun b => if b.ent = a.ent then a else b

/-- What a transfer slot that starts at `at'` needs to be served (R387, R394, R402-R405). -/
def Served (s : State) (p : Nat) (e : EphE) (a : Armed) (at' : Nat) : Prop :=
  s.clockOk = true ∧ s.modId ≠ 0 ∧ s.linkIs e.subPort = true ∧ a.at_ + 1000 ≤ at' ∧ s.bumped p e at' = false

/-- The slot of an entry of the active timetable, which has begun and is not over. -/
def SlotNow (s : State) (h : Fin 4) (i : Fin 16384) (p ent : Nat) : Prop :=
  s.dueEntry h.val i.val = some (p, ent) ∧ s.hnow h.val < (s.eph h.val i.val).slotEnd (s.entStart p ent)

/-- A slot of the active timetable at which exactly the action `a` of cell `k` stands, its peer not lost. -/
def SlotOf (s : State) (h : Fin 4) (i : Fin 16384) (p ent : Nat) (k : CellId) (a : Armed) : Prop :=
  SlotNow s h i p ent ∧ s.part (.cell k) = p ∧
    s.rdF (peerAddr ent (s.eph h.val i.val)) F.HZN_PEERi_A_STATE ≠ peerLostSt ∧
    (s.allArmed p).filter (fun x => x.2.now = ent && x.2.tt = s.ttActive p && x.2.status.isNone && !x.2.began &&
      !x.2.doneTx && decide (s.armedStart p x.2 = s.entStart p ent)) = [(k, a)]

/-- The frames of the transfer that an action sends (R97, R377). -/
def sendFrames (s : State) (a : Armed) (p : Nat) : List TensorFrame :=
  let ds := descV (a.job.regs.getD (collK a.job).ds.val)
  tensorFrames ⟨(s.entryT p a.tt a.ent).rent % 65536, Nat.mod_lt _ (by decide)⟩ ds.fmt ds.grp (strmByte (collK a.job))
    (s.rdF (R.PART_ZEN_STEP p) F.PART_ZEN_STEP_STEP) (s.xfer a.job ds (descV (a.job.regs.getD ds.sdi)))

/-- The event of an entry is due, has not been performed in its occurrence, and no event before it falls at the same time (R408). -/
def EventAlone (s : State) (h : Fin 4) (i : Fin 16384) (p ent : Nat) : Prop :=
  s.dueEntry h.val i.val = some (p, ent) ∧ s.dueEvents p ent (s.entStart p ent) = [ent]

/-- The final verdict of a partition has formed from its combined record (R251, R252). -/
def FinalFormed (s t : State) (p : Nat) (r : VerdictRec) : Prop :=
  let w := s.finalWord p r
  t.vphase p = 3 ∧ t.rd (R.PART_VRD_LAST p) = w ∧ t.rd (R.PART_VRD_NSQ p) = finalNsq w r ∧
    (t.vrdOf p).clean = decide (w = 0) ∧ (t.almOf p).verdict = some w ∧
    t.rd (R.PART_VRD_CLEAN_CNT p) = satAdd64 (s.rd (R.PART_VRD_CLEAN_CNT p)) (if w = 0 then 1 else 0) ∧
    t.rd (R.PART_VRD_DIRTY_CNT p) = satAdd64 (s.rd (R.PART_VRD_DIRTY_CNT p)) (if w = 0 then 0 else 1) ∧
    (∀ k, k < 8 → t.rd (R.PART_VRD_BITk_CNT p k) = satAdd64 (s.rd (R.PART_VRD_BITk_CNT p k)) (bnat (flag w k))) ∧
    t.rdF (R.PART_TT_CTL p) F.PART_TT_CTL_CLEAN =
      (if w = 0 then min (s.rdF (R.PART_TT_CTL p) F.PART_TT_CTL_CLEAN + 1) 255 else 0) ∧
    MemSame s t ∧ CtxSame s t ∧ FabricSame s t ∧ ServiceSame s t

/-- A launch has started cell `k` with rank `i` (R279). -/
def Launched (t : State) (l : LaunchV) (k : CellId) (i : Nat) : Prop :=
  let r := (t.cell k).regs
  t.runState k = stRun ∧ t.pc (.cell k) = (l.pc + i * l.stride) % 2 ^ 48 ∧
    r.getS 1 = BitVec.ofNat 64 (l.first + i) ∧ r.getS 2 = BitVec.ofNat 64 l.count ∧ r.getS 3 = l.arg ∧
    r.getS 4 = BitVec.ofNat 64 i ∧ (∀ n, 4 < n → r.getS n = 0) ∧ (∀ n, r.getD n = 0) ∧ r.pred = 0x80 ∧
    t.rdF (R.CELL_CLK_STAT k) F.CELL_CLK_STAT_RUN = 1

/-- The stray and duplicate counters of a sub-port. -/
def strayReg (u : SubPort) : Nat := R.HZN_ASTP_STRAY_CNTqk u.h.val u.q.val u.k.val
def dupReg (u : SubPort) : Nat := R.HZN_ASTP_DUP_CNTqk u.h.val u.q.val u.k.val

/-- The counters of frames accepted on and discarded at a sub-port (R387). -/
def rxReg (u : SubPort) : Nat := R.HZN_ETH_RX_CNTqk u.h.val u.q.val u.k.val
def dropReg (u : SubPort) : Nat := R.HZN_ETH_DROP_CNTqk u.h.val u.q.val u.k.val

/-- A sub-port has its link up and the module performs what comes in on it (R385, R459). -/
def Heard (s : State) (u : SubPort) : Prop := s.linkIs u = true ∧ s.ready = true

/-- Frames of one transfer agree on its shape. -/
def sameShape (t u : TensorFrame) : Bool :=
  u.fmt = t.fmt && u.grp = t.grp && u.frames = t.frames && u.total = t.total && u.stotal = t.stotal

/-- A write of `v` to a register that has writable bits sets no bit of a read-only field (R7). -/
def Writable (a : Nat) (v : W64) : Prop :=
  match regAt a with
  | some r => roTouched r v = false ∧ (r.rw ≠ 0 ∨ r.w1c ≠ 0 ∨ r.w1s ≠ 0 ∨ r.wo ≠ 0)
  | none => False

/-- The value that a write of `v` leaves by the access codes of the register at `a` (R7, R8). -/
def putVal (a : Nat) (old v : W64) : W64 :=
  match regAt a with
  | some r => regPut r old v
  | none => old

end Sys2Proof.Claim

/-- R306, R307, R404, R405: coll.slot arms its entry and is held until the action completes; where the occurrence had started
and the chain has no reserve, the action completes LATE and LATE is raised. coll.cancel completes an action that has not begun
with status 4 and brings 1 to RD, and else brings 0. -/
def Sys2Proof.Claim.CollectiveArming : Prop :=
  (∀ k p (f : FmtK) s,
    let c := Ctx.cell k
    let i := Instr.collSlot c p f
    let e := entered s c .coll i
    let j := s.newJob c .coll i
    let q := e.part c
    let tt := e.ttActive q
    let a := newArmed e k j f.ent.val
    f.rsv = 0 → f.ra = 0 → f.imm.toNat < 4 → Ready s c p .coll i [f.rd.val] [] → (s.cell k).armed.length < 256 →
    (∀ b ∈ (s.cell k).armed, b.ent ≠ f.ent.val) → e.collFail c j f = none →
    Taken (exec i s) s c .coll i fun e x fl =>
      fl = { Flight.plain j with hold := true } ∧ MemSame e x ∧
      (¬ Begun e q tt f.ent.val → CellFrame e x k { e.cell k with armed := (e.cell k).armed ++ [a] } []) ∧
      (Begun e q tt f.ent.val → (e.entryT q tt f.ent.val).next = 0x3FFF →
        x.rd (R.PART_EPH_LATE_CNT q) = satAdd64 (e.rd (R.PART_EPH_LATE_CNT q)) 1 ∧
        x.rd (R.PART_VRD_OWN q) = e.rd (R.PART_VRD_OWN q) ||| 64 ∧
        CellFrame e x k { e.cell k with armed := (e.cell k).armed ++ [{ a with status := some 2 }] }
          [R.PART_EPH_LATE_CNT q, R.PART_VRD_OWN q])) ∧
  (∀ k p (f : FmtK) s,
    let c := Ctx.cell k
    let i := Instr.collCancel c p f
    let j := s.newJob c .coll i
    let hit := (s.cell k).armed.find? fun a => a.ent = f.ent.val && a.status.isNone && !a.began
    f = { fmtK0 with ent := f.ent, rd := f.rd } → Ready s c p .coll i [f.rd.val] [] →
    Taken (exec i s) s c .coll i fun e x fl =>
      fl = { Flight.plain j with rd := some (f.rd.val, if hit.isSome then 1 else 0) } ∧ MemSame e x ∧
      CellFrame e x k (match hit with
        | some a => { e.cell k with armed := rearmed (e.cell k).armed { a with status := some 4 } }
        | none => e.cell k) [])

/-- R243, R247, R308, R309: chk.retract raises RETR in the open record, chk.sample marks an array, chk.vlast brings the last
verdict to RD, and chk.verdict marks its cell; the last present cell of the partition to execute one issues the contribution:
the verdict starts with the open step, and every cell may execute the next. -/
def Sys2Proof.Claim.CheckInstructions : Prop :=
  (∀ c p s, Ready s c p .chk (.chkRetract c p fmtK0) [] [] →
    Taken (exec (.chkRetract c p fmtK0) s) s c .chk (.chkRetract c p fmtK0) fun e x fl =>
      fl = Flight.plain (s.newJob c .chk (.chkRetract c p fmtK0)) ∧
      x.rd (R.PART_VRD_OWN (e.part c)) = e.rd (R.PART_VRD_OWN (e.part c)) ||| 32 ∧
      OnlyCsrs e x [R.PART_VRD_OWN (e.part c)]) ∧
  (∀ k p (f : FmtK) s,
    let i := Instr.chkSample (.cell k) p f
    f = { fmtK0 with imm := f.imm } → f.imm.toNat < 2 → Ready s (.cell k) p .chk i [] [] →
    Taken (exec i s) s (.cell k) .chk i fun e x fl =>
      fl = Flight.plain (s.newJob (.cell k) .chk i) ∧ MemSame e x ∧
      CellFrame e x k (if f.imm = 0 then { e.cell k with markDusk := true } else { e.cell k with markDawn := true }) []) ∧
  (∀ c p (f : FmtK) s,
    let i := Instr.chkVlast c p f
    f = { fmtK0 with rd := f.rd } → Ready s c p .chk i [f.rd.val] [] →
    Taken (exec i s) s c .chk i fun e x fl =>
      x = e ∧ fl = { Flight.plain (s.newJob c .chk i) with rd := some (f.rd.val, e.rd (R.PART_VRD_LAST (e.part c))) }) ∧
  (∀ k p (f : FmtK) s,
    let i := Instr.chkVerdict (.cell k) p f
    let e := entered s (.cell k) .chk i
    let q := s.part (.cell k)
    f = { fmtK0 with bar := f.bar, bare := f.bare } → Ready s (.cell k) p .chk i [] [] → (s.cell k).vdone = false →
    e.bareFail (.cell k) i = none →
    ((∃ d ∈ s.present q, d ≠ k ∧ (s.cell d).vdone = false) →
      Taken (exec i s) s (.cell k) .chk i fun e x fl =>
        fl = { Flight.plain (s.newJob (.cell k) .chk i) with hold := true } ∧ MemSame e x ∧
        CellFrame e x k { e.cell k with vdone := true } []) ∧
    (k ∈ s.present q → (∀ d ∈ s.present q, d ≠ k → (s.cell d).vdone = true) → s.vphase q = 0 →
      ∃ t, exec i s = .next t ∧ t.vphase q = 1 ∧
        t.rdF (R.PART_VRD_STAT q) F.PART_VRD_STAT_STEP = s.rdF (R.PART_ZEN_STEP q) F.PART_ZEN_STEP_STEP ∧
        (t.almOf q).contrib = (s.almOf q).contrib + 1 ∧ (∀ d ∈ s.present q, (t.cell d).vdone = false) ∧
        t.bytes = s.bytes ∧ t.dir = s.dir ∧ t.frames = s.frames))

/-- R97, R306, R307, R377, R402, R404, R405: a served slot of a send queues the frames of its transfer on its sub-port, each at its
time, and one of a receive begins it; an action whose slot is not served, or ends before its last frame has left or its transfer is
whole, moves to the next reserve with nothing left queued or staged, or at the end of its chain completes LATE; a completed action
leaves the unit with its status in RD.
Model's choices: log entries 9, 21, 22, 64 and 80. -/
def Obligations.TransferSlots : Prop :=
  (∀ h i s p ent k a, SlotOf s h i p ent k a →
    let e := s.eph h.val i.val
    let e' := s.entryT p a.tt a.now
    let at' := s.entStart p ent
    (Served s p e a at' → e.action = actSend → Calm s p [] →
      ∃ t, exec (.ephSlotStart h i) s = .next t ∧ (t.cell k).armed = rearmed (s.cell k).armed { a with began := true } ∧
        t.net = { s.net with
          wait := s.net.wait ++ (s.paced a.now at' e' (sendFrames s a p)).map fun q =>
            ⟨e'.subPort, q.1, some (p, a.ent), .tensor (s.peerIp a.now e') p q.2⟩ } ∧
        t.bytes = s.bytes ∧ t.dir = s.dir ∧ t.frames = s.frames ∧ StepSame s t ∧ ServiceSame s t) ∧
    (Served s p e a at' → e.action = actRecv ∨ e.action = actRadd →
      ∃ t, exec (.ephSlotStart h i) s = .next t ∧ (t.cell k).armed = rearmed (s.cell k).armed { a with began := true } ∧
        t.net = s.net ∧ MemSame s t ∧ StepSame s t ∧ ServiceSame s t) ∧
    (¬ Served s p e a at' → e.action = actSend ∨ e.action = actRecv ∨ e.action = actRadd →
      ∃ t, exec (.ephSlotStart h i) s = .next t ∧
        t.rd (R.PART_EPH_BUMP_CNT p) = satAdd64 (s.rd (R.PART_EPH_BUMP_CNT p)) (bnat (s.bumped p e at')) ∧
        (if e'.next = 0x3FFF then
          (t.cell k).armed = rearmed (s.cell k).armed { a with status := some 2 } ∧
          t.rd (R.PART_EPH_LATE_CNT p) = satAdd64 (s.rd (R.PART_EPH_LATE_CNT p)) 1 ∧
          t.rd (R.PART_VRD_OWN p) = s.rd (R.PART_VRD_OWN p) ||| 64
        else
          (t.cell k).armed = rearmed (s.cell k).armed
            { a with now := entDie a.now * 16384 + e'.next, reserve := true, began := false } ∧
          t.rd (R.PART_EPH_RSV_CNT p) = satAdd64 (s.rd (R.PART_EPH_RSV_CNT p)) 1) ∧
        (∀ q ∈ t.net.wait, q.own ≠ some (p, a.ent)) ∧ MemSame s t ∧ StepSame s t ∧ ServiceSame s t)) ∧
  (∀ (h : Fin 4) (i : Fin 16384) s p n k a, s.ephOwner h.val i.val = some (p, s.ttActive p, n) → s.part (.cell k) = p →
    let e := s.eph h.val i.val
    let ent := h.val * 16384 + n
    let e' := s.entryT p a.tt a.now
    e.action ≠ actVxch → e'.next ≠ 0x3FFF →
    (s.allArmed p).filter (fun x => x.2.tt = s.ttActive p && x.2.now = ent && x.2.status.isNone && !x.2.doneTx &&
      decide (e.slotEnd (s.armedStart p x.2) + (if x.2.recv then 40 else 0) ≤ s.hnow h.val)) = [(k, a)] →
    (if a.recv then wholeTransfer (s.staged p a.ent) = false else a.began = false ∨ s.sending p a.ent = true) →
    ∃ t, exec (.ephSlotEnd h i) s = .next t ∧ (t.cell k).armed = rearmed (s.cell k).armed
        { a with now := entDie a.now * 16384 + e'.next, reserve := true, began := false } ∧
      t.rd (R.PART_EPH_RSV_CNT p) = satAdd64 (s.rd (R.PART_EPH_RSV_CNT p)) 1 ∧
      (a.recv = true → SMap.get t.net.stage [] (stageKey p a.ent) = []) ∧ (∀ q ∈ t.net.wait, q.own ≠ some (p, a.ent)) ∧
      MemSame s t ∧ StepSame s t ∧ ServiceSame s t) ∧
  (∀ k ent s a q fl, (s.cell k).armed.find? (·.ent = ent.val) = some a →
    s.doneStatus (s.part (.cell k)) a = some q →
    (s.cell k).flight.find? (·.job.seq = a.job.seq) = some fl → fl.pd = [] →
    ∃ t, exec (.collActionComplete k ent) s = .next t ∧ (t.cell k).armed = (s.cell k).armed.filter (·.ent != ent.val) ∧
      (t.cell k).flight = (s.cell k).flight.filter (·.job.seq != fl.job.seq) ∧
      (q ≠ abandoned → WroteS (s.cell k).regs (t.cell k).regs (collK a.job).rd.val (BitVec.ofNat 64 q)) ∧
      (q = abandoned → (t.cell k).regs = (s.cell k).regs) ∧
      t.bytes = s.bytes ∧ t.dir = s.dir ∧ t.frames = s.frames)

/-- R378, R387, R459: before READY a sub-port discards a frame of a peer; in READY a tensor frame whose transfer has completed is discarded, its last frame counting as a duplicate; one that
matches no begun receive counts as a stray; one that matches is staged, and the last one of a transfer ends the staging and
marks the transfer done. R386: a FAREWELL makes every live peer with its sender's module LOST.
Model's choices: log entries 23, 24 and 25. -/
def Obligations.PeerFrames : Prop :=
  (∀ h f s, s.linkIs h.sub = true → s.ready = false →
    ∃ t, exec (.astpTensor h f) s = .next t ∧ t.rd (dropReg h.sub) = satAdd64 (s.rd (dropReg h.sub)) 1 ∧
      OnlyCsrs s t [dropReg h.sub]) ∧
  (∀ h f s, Heard s h.sub → f.kind.toNat < 2 → s.net.done.contains (stageKey h.part.val f.ent.val, f.step.toNat) = true →
    ∃ t, exec (.astpTensor h f) s = .next t ∧
      t.rd (dupReg h.sub) = satAdd64 (s.rd (dupReg h.sub)) (if f.fidx + 1 = f.frames then 1 else 0) ∧
      OnlyCsrs s t [dupReg h.sub]) ∧
  (∀ h f s, Heard s h.sub → f.kind.toNat < 2 → s.net.done.contains (stageKey h.part.val f.ent.val, f.step.toNat) = false →
    (∀ x ∈ s.allArmed h.part.val, s.matchesRecv h.part.val h f x = false) →
    ∃ t, exec (.astpTensor h f) s = .next t ∧ t.rd (strayReg h.sub) = satAdd64 (s.rd (strayReg h.sub)) 1 ∧
      OnlyCsrs s t [strayReg h.sub]) ∧
  (∀ h f s x, Heard s h.sub → f.kind.toNat < 2 → s.net.done.contains (stageKey h.part.val f.ent.val, f.step.toNat) = false →
    (s.allArmed h.part.val).find? (s.matchesRecv h.part.val h f) = some x →
    let key := stageKey h.part.val f.ent.val
    let l := SMap.get s.net.stage [] key
    l.all (sameShape f) = true → (∀ u ∈ l, u.fidx ≠ f.fidx) → (∀ pg, (s.ent pg).st ≠ .switch) →
    ∃ t, exec (.astpTensor h f) s = .next t ∧
      t.rd (R.HZN_ETH_RX_CNTqk h.sub.h.val h.sub.q.val h.sub.k.val) =
        satAdd64 (s.rd (R.HZN_ETH_RX_CNTqk h.sub.h.val h.sub.q.val h.sub.k.val)) 1 ∧
      (if l.length + 1 = f.frames then
        SMap.get t.net.stage [] key = [] ∧ t.net.done = s.net.done ++ [(key, f.step.toNat)]
      else
        SMap.get t.net.stage [] key = l ++ [f] ∧ t.net.done = s.net.done ∧ MemSame s t ∧ StepSame s t ∧ CtxSame s t) ∧
      ∀ n, n ≠ key → SMap.get t.net.stage [] n = SMap.get s.net.stage [] n) ∧
  (∀ h r time s, Heard s h.sub → h.srcMod ≠ 0 →
    ∃ t, exec (.astpFarewell h r time) s = .next t ∧ MemSame s t ∧ StepSame s t ∧
      ∀ g n, g < 4 → n < 4096 → t.rdF (R.HZN_PEERi_A g n) F.HZN_PEERi_A_STATE =
        if s.rdF (R.HZN_PEERi_A g n) F.HZN_PEERi_A_STATE = peerLive ∧
            s.rdF (R.HZN_PEERi_A g n) F.HZN_PEERi_A_MODID = h.srcMod.toNat then peerLostSt
        else s.rdF (R.HZN_PEERi_A g n) F.HZN_PEERi_A_STATE)

/-- R243-R245, R250, R255-R257: the seal forms the member's record and starts an empty one; a record of the step and group in
work is taken with those held, and one of another step counts as a stray. -/
def Sys2Proof.Claim.VerdictRecords : Prop :=
  (∀ (p : Fin 64) s, s.sealable p.val = true → s.vphase p.val = 1 → (s.vrdOf p.val).late = false →
    s.localMembers p.val = [] →
    ∃ t, exec (.verdictSeal p) s = .next t ∧ t.vphase p.val = 2 ∧
      t.vrdOf p.val = { s.vrdOf p.val with sealed := true, own := some (s.ownRec p.val) } ∧
      t.rd (R.PART_VRD_OWN p.val) = (if flag (s.rd (R.PART_VRD_UNC p.val)) 63 then 16 else 0) ∧
      (∀ i, i < 16 → t.rd (R.PART_VRD_CNTs p.val i) = 0) ∧ MemSame s t ∧ CtxSame s t ∧ FabricSame s t ∧ ServiceSame s t) ∧
  (∀ (p : Fin 64) r s, s.vphase p.val ≠ 3 → r.step = s.vstep p.val → r.group = s.vgroup p.val → s.localMembers p.val = [] →
    ∃ t, exec (.verdictRecordReceive p r) s = .next t ∧
      t.vrdOf p.val = { s.vrdOf p.val with recs := (s.vrdOf p.val).recs ++ [(s.time.ns.toNat, r)] } ∧
      (∀ q, q ≠ p.val → t.vrdOf q = s.vrdOf q) ∧ CsrsBut s t [] ∧ CtxSame s t ∧ MemSame s t ∧ FabricSame s t ∧
      ServiceSame s t) ∧
  (∀ (p : Fin 64) r s, s.vphase p.val = 3 ∨ r.step ≠ s.vstep p.val ∨ r.group ≠ s.vgroup p.val →
    ∃ t, exec (.verdictRecordReceive p r) s = .next t ∧
      t.rd (R.PART_VRD_STRAY_CNT p.val) = satAdd64 (s.rd (R.PART_VRD_STRAY_CNT p.val)) 1 ∧
      OnlyCsrs s t [R.PART_VRD_STRAY_CNT p.val])

/-- R249, R255: two records combine field by field: the verdict word and the NSQF bits by OR, NSQ exactly up to its top value, MCOUNT and
the stream counts by sums, APP_MIN and APP_MAX by minimum and maximum, so that any order gives the same record. A record
that comes in on an open chain of its live peer is taken with those held, and the start of a VXCH slot queues the member's own
combined with those of the rounds before. -/
def Obligations.RecordCombination : Prop :=
  (∀ a b : VerdictRec, let m := combineRec a b
    m.verdict = a.verdict ||| b.verdict ∧ m.step = a.step ∧ m.group = a.group ∧
    (a.nsq + b.nsq < 2 ^ 640 → m.nsq = a.nsq + b.nsq ∧ m.inf = (a.inf || b.inf)) ∧
    (2 ^ 640 ≤ a.nsq + b.nsq → m.nsq = 2 ^ 640 - 1 ∧ m.inf = true) ∧ m.nan = (a.nan || b.nan) ∧
    m.mcount = a.mcount + b.mcount ∧ m.appMin = min a.appMin b.appMin ∧ m.appMax = max a.appMax b.appMax ∧
    m.sent.length = 16 ∧ m.recv.length = 16 ∧
    ∀ i, i < 16 → m.sent.getD i 0 = min (a.sent.getD i 0 + b.sent.getD i 0) (2 ^ 32 - 1) ∧
      m.recv.getD i 0 = min (a.recv.getD i 0 + b.recv.getD i 0) (2 ^ 32 - 1)) ∧
  (∀ a b c : VerdictRec, combineRec (combineRec a b) c = combineRec a (combineRec b c)) ∧
  (∀ a b : VerdictRec, a.step = b.step → a.group = b.group → combineRec a b = combineRec b a) ∧
  (∀ h ent r s c,
    let p := h.part.val
    let e := s.entryT p c.tt c.ent
    let a := peerAddr c.ent e
    Heard s h.sub → (s.ttOf p).chains.find? (fun c => c.ent = ent.val && !c.got && !c.past) = some c → s.chainOpen p c = true →
    s.clockOk = true → s.modId ≠ 0 → s.rdF a F.HZN_PEERi_A_MODID = h.srcMod.toNat → s.rdF a F.HZN_PEERi_A_STATE = peerLive →
    h.sub = e.subPort → s.vphase p ≠ 3 → r.step = s.vstep p → r.group = s.vgroup p → s.localMembers p = [] →
    ∃ t, exec (.astpVerdict h ent r) s = .next t ∧ t.rdF a F.HZN_PEERi_A_MISS = 0 ∧
      t.rd (rxReg h.sub) = satAdd64 (s.rd (rxReg h.sub)) 1 ∧
      t.vrdOf p = { s.vrdOf p with
        recs := (s.vrdOf p).recs ++ [(c.at_, r)], rounds := (s.vrdOf p).rounds ++ [c.ent] } ∧
      { c with got := true } ∈ (t.ttOf p).chains ∧ MemSame s t ∧ CtxSame s t ∧ t.net = s.net) ∧
  (∀ (h : Fin 4) (i : Fin 16384) s p ent o,
    let e := s.eph h.val i.val
    let at' := s.entStart p ent
    SlotNow s h i p ent → e.action = actVxch → e.kind = 0 → s.rdF (peerAddr ent e) F.HZN_PEERi_A_STATE ≠ peerLostSt →
    (s.ttOf p).chains = [] → s.lone p = false → s.clockOk = true → s.modId ≠ 0 → s.linkIs e.subPort = true →
    s.bumped p e at' = false → (s.vrdOf p).own = some o →
    ∃ t, exec (.ephSlotStart h i) s = .next t ∧
      t.net = { s.net with wait := s.net.wait ++ [⟨e.subPort, at', some (p, ent), .verdict (s.peerIp ent e) p
        (s.entryT p (s.ttActive p) ent).rent
        ((((s.vrdOf p).recs.filter fun q => q.1 < at').map (·.2)).foldl combineRec o)⟩] } ∧
      (t.ttOf p).chains = [⟨ent, s.ttActive p, at', ent, true, false, false⟩] ∧ MemSame s t ∧ CtxSame s t)

/-- R251, R252, R406, R408: once every round is combined, or at a VDEADLINE entry of an open step, the final verdict forms from
the combined record: the last word, the norm, the counters, the phase, and the count of clean verdicts. -/
def Sys2Proof.Claim.FinalVerdictForms : Prop :=
  (∀ (p : Fin 64) s r, s.vphase p.val = 2 → s.roundsDone p.val = true → (s.vrdOf p.val).comb = some r →
    ∃ t, exec (.finalVerdict p) s = .next t ∧ FinalFormed s t p.val r) ∧
  (∀ (h : Fin 4) (i : Fin 16384) s p ent r, EventAlone s h i p ent → (s.eph h.val i.val).action = actVdeadline →
    s.vphase p ≠ 3 → s.lone p = false → (s.vrdOf p).comb = some r →
    ∃ t, exec (.vdeadline h i) s = .next t ∧ FinalFormed s t p r) ∧
  (∀ (s : State) p r, s.vrdEn p = false → s.finalWord p r = 0) ∧
  (∀ (s : State) p (r : VerdictRec), s.vrdEn p = true → r.mcount ≠ s.vmembers p → flag (s.finalWord p r) 7 = true)

/-- R279, R284, R408, R463: a LAUNCH entry starts the present cells that its ELAUNCH registers name when all are IDLE, and
counts a miss otherwise; a BARRIER entry advances its counter; a prewake runs the clocks of the cells of a launch that is at most LEAD
away.
Model's choices: log entries 8, 9 and 23. -/
def Obligations.EphemerisEvents : Prop :=
  (∀ (h : Fin 4) (i : Fin 16384) s p ent,
    let l := s.elaunch p ((s.eph h.val i.val).low % 8)
    EventAlone s h i p ent → (s.eph h.val i.val).action = actLaunch → s.rejoined = [] → s.clockOk = true →
    l.first + l.count ≤ (s.owned p).length → (∀ x ∈ s.launchCells p l, s.runState x.1 = stIdle) →
    ((s.launchCells p l).map (·.1)).Nodup →
    ∃ t, exec (.ephLaunch h i) s = .next t ∧ (∀ x ∈ s.launchCells p l, Launched t l x.1 x.2) ∧
      (∀ k, (∀ x ∈ s.launchCells p l, x.1 ≠ k) → t.cell k = s.cell k) ∧ MemSame s t ∧ FabricSame s t ∧ ServiceSame s t) ∧
  (∀ (h : Fin 4) (i : Fin 16384) s p ent,
    let l := s.elaunch p ((s.eph h.val i.val).low % 8)
    EventAlone s h i p ent → (s.eph h.val i.val).action = actLaunch → s.rejoined = [] →
    (s.clockOk = false ∨ (s.owned p).length < l.first + l.count ∨ ∃ x ∈ s.launchCells p l, s.runState x.1 ≠ stIdle) →
    ∃ t, exec (.ephLaunch h i) s = .next t ∧
      t.rd (R.PART_LAUNCH_MISS_CNT p) = satAdd64 (s.rd (R.PART_LAUNCH_MISS_CNT p)) 1 ∧
      CsrsBut s t [R.PART_LAUNCH_MISS_CNT p] ∧ CtxSame s t ∧ MemSame s t ∧ FabricSame s t ∧ ServiceSame s t) ∧
  (∀ (h : Fin 4) (i : Fin 16384) s p ent,
    let b := (s.eph h.val i.val).low % 64
    EventAlone s h i p ent → (s.eph h.val i.val).action = actBarrier → s.clockOk = true → b < s.nbar p →
    ∃ t, exec (.ephBarrier h i) s = .next t ∧ t.barVal p b = min (s.barVal p b + 1) (2 ^ 48 - 1) ∧
      t.bytes = s.bytes ∧ t.dir = s.dir ∧ t.frames = s.frames ∧ FabricSame s t ∧ ServiceSame s t) ∧
  (∀ (h : Fin 4) (i : Fin 16384) s p n,
    let e := s.eph h.val i.val
    s.ephOwner h.val i.val = some (p, s.ttActive p, n) → s.ttValid p (s.ttActive p) = true → e.action = actLaunch →
    s.nextStart p (s.ttActive p) h.val e ≤ s.hnow h.val + s.rdF (R.PART_EPH_WAKE p) F.PART_EPH_WAKE_LEAD →
    ∃ t, exec (.ephPrewake h i) s = .next t ∧
      (∀ x ∈ s.launchCells p (s.elaunch p (e.low % 8)), t.rdF (R.CELL_CLK_STAT x.1) F.CELL_CLK_STAT_RUN = 1) ∧
      (∀ k, (t.cell k).regs = (s.cell k).regs ∧ t.runState k = s.runState k) ∧ OnlyRegs s t)

/-- R396, R398, R400, R406: the host writes of a partition's timetables: a peer entry becomes LIVE for its writer, or FREE with
MODID 0; a range is replaced where the rules permit it; a commit check is asked for and its answer recorded; a switch is asked
for, and performed at its period boundary.
Model's choices: log entries 25 and 26. -/
def Obligations.TimetableControl : Prop :=
  (∀ pl (h : Fin 4) (i : Fin 4096) v s,
    let a := R.HZN_PEERi_A h.val i.val
    s.mayAccess pl a true = true → Writable a v →
    ∃ t, exec (.peerWrite pl h i 0 v) s = .next t ∧ OnlyCsrs s t [a] ∧
      if fld (putVal a (s.rd a) v) 31 0 = 0 then t.rdF a F.HZN_PEERi_A_STATE = peerFree
      else t.rdF a F.HZN_PEERi_A_STATE = peerLive ∧ t.rdF a F.HZN_PEERi_A_PART = (s.peerOwner h.val i.val).getD (planePart pl) ∧
        t.rdF a F.HZN_PEERi_A_MISS = 0 ∧ t.rdF a F.HZN_PEERi_A_MODID = fld (putVal a (s.rd a) v) 31 0) ∧
  (∀ pl (h : Fin 4) (i : Fin 4096) (w : Fin 4) v s,
    let a := R.HZN_PEERi_A h.val i.val + 8 * w.val
    w ≠ 0 → s.mayAccess pl a true = true → Writable a v →
    ∃ t, exec (.peerWrite pl h i w v) s = .next t ∧ t.rd a = putVal a (s.rd a) v ∧ OnlyCsrs s t [a]) ∧
  (∀ pl (p : Fin 64) (h : Fin 4) v s,
    let a := R.PART_EPH_RANGEh p.val h.val
    let b := fld v 13 0
    let n := fld v 29 16
    s.mayAccess pl a true = true → Writable a v → b + 2 * n ≤ 16384 →
    (∀ q, q < 64 → q ≠ p.val → rangesMeet b (2 * n) (s.ephBase q h.val 0) (2 * s.ephN q h.val) = false) →
    (∀ i, (s.ephBase p.val h.val 0 ≤ i ∧ i < s.ephBase p.val h.val 0 + 2 * s.ephN p.val h.val) ∨ (b ≤ i ∧ i < b + 2 * n) →
      (s.eph h.val i).action = actNone) →
    n ≤ s.rdF (R.PART_CAP1 p.val) F.PART_CAP1_EPH →
    ∃ t, exec (.ephRangeWrite pl p h v) s = .next t ∧ t.rd a = putVal a (s.rd a) v ∧ OnlyCsrs s t [a]) ∧
  (∀ pl (p : Fin 64) s, let a := R.PART_TT_CTL p.val
    s.mayAccess pl a true = true → s.rdF a F.PART_TT_CTL_STATUS ≠ ttChecking →
    ∃ t, exec (.ttCommit pl p) s = .next t ∧ t.rdF a F.PART_TT_CTL_STATUS = ttChecking ∧ OnlyCsrs s t [a]) ∧
  (∀ (p : Fin 64) s, let a := R.PART_TT_CTL p.val
    s.rdF a F.PART_TT_CTL_STATUS = ttChecking →
    ∃ t, exec (.ttCommitDone p) s = .next t ∧
      t.rdF a F.PART_TT_CTL_STATUS = (if s.commitFail p.val (s.standby p.val) = 0 then ttOk else ttFailed) ∧
      t.rdF a F.PART_TT_CTL_FAIL = s.commitFail p.val (s.standby p.val) ∧
      t.ttValid p.val (s.standby p.val) = decide (s.commitFail p.val (s.standby p.val) = 0) ∧ OnlyCsrs s t [a]) ∧
  (∀ pl (p : Fin 64) s, let a := R.PART_TT_CTL p.val
    s.mayAccess pl a true = true → s.ttValid p.val (s.standby p.val) = true →
    ∃ t, exec (.ttSwitch pl p) s = .next t ∧
      (t.ttOf p.val).sw = (s.ttOf p.val).sw ++ [((s.rd (R.PART_TT_SWAT p.val)).toNat, s.ttActive p.val)] ∧ CsrsBut s t [] ∧ CtxSame s t ∧
      MemSame s t ∧ FabricSame s t ∧ ServiceSame s t) ∧
  (∀ (p : Fin 64) s w, let a := R.PART_TT_CTL p.val
    w ∈ (s.ttOf p.val).sw → w.2 = s.ttActive p.val → s.boundary p.val (s.standby p.val) w.1 ≤ s.time.ns.toNat →
    ∃ t, exec (.timetableSwitch p) s = .next t ∧ t.ttActive p.val = s.standby p.val ∧
      t.rdF a F.PART_TT_CTL_CLEAN = 0 ∧
      t.rd (R.PART_EPH_SWITCH_CNT p.val) = satAdd64 (s.rd (R.PART_EPH_SWITCH_CNT p.val)) 1 ∧
      w ∉ (t.ttOf p.val).sw ∧ CsrsBut s t [a, R.PART_EPH_SWITCH_CNT p.val] ∧ MemSame s t ∧ FabricSame s t ∧ ServiceSame s t)

namespace Sys2Proof.Claim

/-! Accesses and partitions. -/

/-- The counters and latches of a refused access (R426, R498). -/
def refusedRegs : Plane → List Nat
  | .session p => [R.PART_CSR_VIOL_CNT p.val, R.PART_CSR_VIOL_LAST p.val]
  | .mgmt => [R.MGMT_CSR_VIOL_CNT]
  | .cell c => [R.CELL_VIOL_CNT c, R.CELL_VIOL_LAST c]

/-- An access to `a` has been refused with a cause: it is counted and, but for management, latched. Through a management port that
is down nothing happens (R451). -/
def AccessRefused (o : Host.Outcome State Fault Refusal) (s : State) (pl : Plane) (a cause : Nat) : Prop :=
  if pl = .mgmt ∧ s.mgmtUp = false then o = .next s
  else
    ∃ t, o = .next t ∧ t.rd (violReg pl) = satAdd64 (s.rd (violReg pl)) 1 ∧
      (match pl with
        | .session p => t.rd (R.PART_CSR_VIOL_LAST p.val) = BitVec.ofNat 64 (cause * 2 ^ 60 + a % 2 ^ 32)
        | .mgmt => True
        | .cell c => t.rd (R.CELL_VIOL_LAST c) = BitVec.ofNat 64 (cause * 2 ^ 60 + s.pc (.cell c) % 2 ^ 48)) ∧
      OnlyCsrs s t (refusedRegs pl)

/-- The commands of a host that need the right to write one register, with the register (R417). -/
def guardedCmds : List ((Plane → Instr) × Nat) :=
  (List.finRange 64).flatMap fun p =>
    [(fun pl => .runCtlStop pl p, R.PART_RUN_CTL p.val), (fun pl => .runCtlResume pl p, R.PART_RUN_CTL p.val),
      (fun pl => .runCtlAbort pl p, R.PART_RUN_CTL p.val), (fun pl => .nanTrapClear pl p, R.PART_NAN_TRAP0 p.val),
      (fun pl => .almCkptSave pl p, R.PART_ALM_CKPT p.val), (fun pl => .almCkptRestore pl p, R.PART_ALM_CKPT p.val),
      (fun pl => .ttCommit pl p, R.PART_TT_CTL p.val), (fun pl => .ttSwitch pl p, R.PART_TT_CTL p.val)]

/-- The commands that write a value under the same condition. -/
def guardedWrites : List ((Plane → W64 → Instr) × Nat) :=
  (List.finRange 64).flatMap fun p =>
    [(fun pl v => .almRangeWrite pl p v, R.PART_ALM_RANGE p.val), (fun pl v => .zenRangeWrite pl p v, R.PART_ZEN_RANGE p.val),
      (fun pl v => .numModeWrite pl p v, R.PART_NUM_MODE p.val), (fun pl v => .barCfgWrite pl p v, R.PART_BAR_CFG p.val)]

/-- Whether an SMap-held fence mark is on: fence `k` of partition `p` has passed (R328). -/
def FencePassed (s : State) (p k : Nat) : Prop := 16 * p + k ∈ s.tiers.passed

/-- A fence that passes as soon as it is looked at: armed, its counter present and at TARGET (R328). -/
def FenceMet (s : State) (p k : Nat) : Prop :=
  let v := s.rd (R.PART_RFENCEk_A p k)
  flag v 63 = true ∧ fld v 53 48 < s.nbar p ∧ fld v 47 0 ≤ s.barVal p (fld v 53 48)

/-- A cell that runs or waits. -/
def Going (s : State) (k : CellId) : Prop := s.runState k = stRun ∨ s.runState k = stWaitBar ∨ s.runState k = stWaitTime

/-- The value that a cap register takes from a write (R411). -/
def capVal (a : Nat) (v : W64) : W64 :=
  match regAt a with
  | some r => BitVec.ofNat 64 (v.toNat &&& r.ro)
  | none => 0

end Sys2Proof.Claim

/-- R6, R417, R426, R498: a write that is not 64 bits at a multiple of 8 is refused with cause 0x4, and so is one without the
right to it, on the register's own command or by CSR_WRITE to an address at which there is no register; a refusal counts and
latches and changes nothing else. A plain management register takes the value that the access codes leave, and a present
barrier counter takes the value and the fences on it pass.
Model's choices: log entries 15 and 57. -/
def Obligations.RegisterAccess : Prop :=
  (∀ pl (a : BitVec 32) w v s, w ≠ 64 ∨ a.toNat % 8 ≠ 0 → AccessRefused (exec (.csrWrite pl a w v) s) s pl a.toNat 4) ∧
  (∀ pl (a : BitVec 32) v s, a.toNat % 8 = 0 → regAt a.toNat = none →
    AccessRefused (exec (.csrWrite pl a 64 v) s) s pl a.toNat 4) ∧
  (∀ x ∈ guardedCmds, ∀ pl s, s.mayAccess pl x.2 true = false → AccessRefused (exec (x.1 pl) s) s pl x.2 4) ∧
  (∀ x ∈ guardedWrites, ∀ pl v s, s.mayAccess pl x.2 true = false → AccessRefused (exec (x.1 pl v) s) s pl x.2 4) ∧
  (∀ pl (a : BitVec 32) v s d o, csrBlock a.toNat = some (.mgmt, d, o) → a.toNat % 8 = 0 →
    a.toNat ∉ [R.MGMT_RST_CMD, R.MGMT_SVC_CMD, R.MGMT_FW_CTL, R.MGMT_PWR_CFG] → s.mayAccess pl a.toNat true = true →
    Writable a.toNat v →
    ∃ t, exec (.csrWrite pl a 64 v) s = .next t ∧ t.rd a.toNat = putVal a.toNat (s.rd a.toNat) v ∧ OnlyCsrs s t [a.toNat]) ∧
  (∀ pl p k v s,
    let a := R.PART_BARk p k
    p < 64 → k < 64 → k < s.nbar p → s.mayAccess pl a true = true → Writable a v →
    (∀ c ∈ s.present p, (s.cell c).waitsOn k = false) →
    ∃ t, exec (.csrWrite pl (BitVec.ofNat 32 a) 64 v) s = .next t ∧ t.rd a = putVal a (s.rd a) v ∧ CsrsBut s t [a] ∧
      CtxSame s t ∧ ∀ j, j < 16 → (FencePassed t p j ↔
        FencePassed s p j ∨ (FenceMet t p j ∧ 16 * p + j ∉ s.tiers.dead)))

/-- R282: STOP asks every cell that runs or waits and was not asked before to stop, RESUME returns the cells that a host or a
NaN stopped to RUN with a line read afresh unless the trap holds an event, ABORT halts every cell that runs, waits or is
stopped.
Model's choices: log entry 9. -/
def Obligations.RunControl : Prop :=
  (∀ pl (p : Fin 64) s, s.mayAccess pl (R.PART_RUN_CTL p.val) true = true →
    ∃ t, exec (.runCtlStop pl p) s = .next t ∧
      (∀ k ∈ s.present p.val, Going s k → (s.cell k).stopReq = 0 → (t.cell k).stopReq = causeHost ∧
        t.rdF (R.CELL_CLK_STAT k) F.CELL_CLK_STAT_RUN = 1) ∧
      (∀ k, (k ∉ s.present p.val ∨ ¬ Going s k ∨ (s.cell k).stopReq ≠ 0) → t.cell k = s.cell k) ∧
      (∀ k, t.runState k = s.runState k ∧ (t.cell k).regs = (s.cell k).regs ∧ t.pc (.cell k) = s.pc (.cell k)) ∧
      OnlyRegs s t) ∧
  (∀ pl (p : Fin 64) s, s.mayAccess pl (R.PART_RUN_CTL p.val) true = true →
    flag (s.rd (R.PART_NAN_TRAP0 p.val)) 63 = false →
    ∃ t, exec (.runCtlResume pl p) s = .next t ∧
      (∀ k ∈ s.present p.val, s.resumable k = true → t.runState k = stRun ∧ (t.cell k).line = none ∧ (t.cell k).held = none ∧
        (t.cell k).stopReq = 0 ∧ (t.cell k).regs = (s.cell k).regs ∧ t.pc (.cell k) = s.pc (.cell k) ∧
        t.rdF (R.CELL_CLK_STAT k) F.CELL_CLK_STAT_RUN = 1) ∧
      (∀ k, (k ∉ s.present p.val ∨ s.resumable k = false) → t.cell k = s.cell k ∧ t.runState k = s.runState k) ∧
      OnlyRegs s t) ∧
  (∀ pl (p : Fin 64) s, s.mayAccess pl (R.PART_RUN_CTL p.val) true = true →
    flag (s.rd (R.PART_NAN_TRAP0 p.val)) 63 = true →
    AccessRefused (exec (.runCtlResume pl p) s) s pl (R.PART_RUN_CTL p.val) 6) ∧
  (∀ pl (p : Fin 64) s, s.mayAccess pl (R.PART_RUN_CTL p.val) true = true →
    ∃ t, exec (.runCtlAbort pl p) s = .next t ∧
      (∀ k ∈ s.present p.val, Going s k ∨ s.runState k = stStopped → t.runState k = stHalting ∧
        t.cell k = { s.cell k with haltBar := none, wait := none, stopReq := 0, line := none, held := none }) ∧
      (∀ k, (k ∉ s.present p.val ∨ ¬ (Going s k ∨ s.runState k = stStopped)) → t.cell k = s.cell k ∧
        t.runState k = s.runState k) ∧ OnlyRegs s t)

/-- R69, R56, R283, R328: the trap is emptied; the overflow mode, the number of counters and the fences take the value
written where the rules permit it; an armed fence whose counter goes never passes, one whose counter is at TARGET passes at
once, and RFENCE_PASS passes it later. -/
def Sys2Proof.Claim.PartitionRegisters : Prop :=
  (∀ pl (p : Fin 64) s, let a := R.PART_NAN_TRAP0 p.val
    s.mayAccess pl a true = true →
    ∃ t, exec (.nanTrapClear pl p) s = .next t ∧ t.rd a = s.rd a &&& BitVec.ofNat 64 (2 ^ 63 - 1) ∧
      t.traps = SMap.set s.traps none p.val none ∧ CsrsBut s t [a] ∧ CtxSame s t ∧ MemSame s t ∧ StepSame s t ∧ FabricSame s t ∧
      ServiceSame s t) ∧
  (∀ pl (p : Fin 64) v s, let a := R.PART_NUM_MODE p.val
    s.mayAccess pl a true = true → Writable a v → (flag v 0 = true → flag (s.rd (R.PART_CAP2 p.val)) 8 = true) →
    ∃ t, exec (.numModeWrite pl p v) s = .next t ∧ t.rd a = putVal a (s.rd a) v ∧ OnlyCsrs s t [a]) ∧
  (∀ pl (p : Fin 64) v s, let a := R.PART_BAR_CFG p.val
    let n := fld v 6 0
    s.mayAccess pl a true = true → Writable a v → n ≤ 64 → n ≤ s.rdF (R.PART_CAP1 p.val) F.PART_CAP1_NBAR →
    (∀ k ∈ s.present p.val, s.runState k = stIdle) →
    ∃ t, exec (.barCfgWrite pl p v) s = .next t ∧ t.rd a = putVal a (s.rd a) v ∧ CsrsBut s t [a] ∧ CtxSame s t ∧
      t.tiers.passed = s.tiers.passed ∧
      ∀ k, k < 16 → (16 * p.val + k ∈ t.tiers.dead ↔ 16 * p.val + k ∈ s.tiers.dead ∨
        (flag (s.rd (R.PART_RFENCEk_A p.val k)) 63 = true ∧ t.nbar p.val ≤ fld (s.rd (R.PART_RFENCEk_A p.val k)) 53 48 ∧
          ¬ FencePassed s p.val k))) ∧
  (∀ pl (p : Fin 64) (k : Fin 16) b v s,
    let a := if b then R.PART_RFENCEk_B p.val k.val else R.PART_RFENCEk_A p.val k.val
    s.mayAccess pl a true = true → Writable a v → (b = false → fld v 53 48 < s.nbar p.val) →
    ∃ t, exec (.rfenceWrite pl p k b v) s = .next t ∧ t.rd a = putVal a (s.rd a) v ∧ CsrsBut s t [a] ∧ CtxSame s t ∧
      (FencePassed t p.val k.val ↔ FenceMet t p.val k.val) ∧
      ∀ x, x ≠ 16 * p.val + k.val → (x ∈ t.tiers.passed ↔ x ∈ s.tiers.passed)) ∧
  (∀ (p : Fin 64) (k : Fin 16) s, FenceMet s p.val k.val → 16 * p.val + k.val ∉ s.tiers.dead →
    ∃ t, exec (.rfencePass p k) s = .next t ∧ FencePassed t p.val k.val ∧ CsrsBut s t [] ∧ CtxSame s t ∧
      t.bytes = s.bytes ∧ t.dir = s.dir ∧ ∀ x, x ≠ 16 * p.val + k.val → (x ∈ t.tiers.passed ↔ x ∈ s.tiers.passed))

/-- R412, R415, R480: a cap write that holds with the other partitions' caps is performed, lowers the limits above it at once and,
between steps, the forbidden modes, and extends measurement 5. R416: a write of the cell map gives logical cells to a partition,
and the slots that back them show it. R418: a debug access of partition 0 reads or writes the selected value of an idle or
stopped cell. -/
def Sys2Proof.Claim.CapsAndCells : Prop :=
  (∀ pl (p : Fin 64) (k : Fin 4) v s,
    let a := capAddr p.val k.val
    let w := capVal a v
    s.mayAccess pl a true = true → (s.wr a w).capsOk p.val = true →
    ∃ t, exec (.capWrite pl p k v) s = .next t ∧ t.rd a = w ∧
      t.rdF (R.PART_TIER_QUOTA p.val) F.PART_TIER_QUOTA_ONCHIP =
        min (s.rdF (R.PART_TIER_QUOTA p.val) F.PART_TIER_QUOTA_ONCHIP) (t.rdF (R.PART_CAP0 p.val) F.PART_CAP0_ONCHIP) ∧
      t.rdF (R.PART_TIER_QUOTA p.val) F.PART_TIER_QUOTA_STACK =
        min (s.rdF (R.PART_TIER_QUOTA p.val) F.PART_TIER_QUOTA_STACK) (t.rdF (R.PART_CAP0 p.val) F.PART_CAP0_STACK) ∧
      t.rdF (R.PART_ZEN_SHARE p.val) F.PART_ZEN_SHARE_SHARE =
        min (s.rdF (R.PART_ZEN_SHARE p.val) F.PART_ZEN_SHARE_SHARE) (t.rdF (R.PART_CAP1 p.val) F.PART_CAP1_ZEN) ∧
      (s.almIdle p.val = true → flag (s.rd (R.PART_CAP2 p.val)) 8 = true → flag (t.rd (R.PART_NUM_MODE p.val)) 0 = true →
        flag (t.rd (R.PART_CAP2 p.val)) 8 = true) ∧
      SMap.get t.lode.meas [] 5 = SMap.get s.lode.meas [] 5 ++ [.cap a w] ∧ CtxSame s t ∧
      t.bytes = s.bytes ∧ t.dir = s.dir ∧ FabricSame s t) ∧
  (∀ pl (p : Fin 64) (j : Fin 16) v s,
    let a := R.PART_CELLMAPj p.val j.val
    s.mayAccess pl a true = true → (∀ q, q < 64 → q ≠ p.val → s.rd (R.PART_CELLMAPj q j.val) &&& v = 0) →
    ((s.wr a v).owned p.val).length ≤ s.rdF (R.PART_CAP0 p.val) F.PART_CAP0_CELLS →
    (∀ k ∈ s.present p.val ++ (s.wr a v).present p.val, s.runState k = stIdle) →
    ∃ t, exec (.cellmapWrite pl p j v) s = .next t ∧ t.rd a = v ∧
      (∀ i c, i < 64 → v.toNat.testBit i = true → s.backing (64 * j.val + i) = some c →
        (∀ n, n ≠ 64 * j.val + i → s.backing n ≠ some c) → t.cellPart c = some p.val) ∧
      (∀ x, x ≠ a → (∀ c, x ≠ R.CELL_ID c) → t.rd x = s.rd x) ∧ CtxSame s t ∧ OnlyRegs s t) ∧
  (∀ k v s, let a := R.CELL_DBG_DATA k
    let file := s.rdF (R.CELL_DBG_SEL k) F.CELL_DBG_SEL_FILE
    let ix := s.rdF (R.CELL_DBG_SEL k) F.CELL_DBG_SEL_INDEX
    s.runState k = stIdle ∨ s.runState k = stStopped → dbgSelOk file ix = true →
    (∃ t, exec (.dbgDataAccess (.session 0) k none) s = .next t ∧ t.rd a = dbgRead (s.cell k) file ix ∧ OnlyCsrs s t [a]) ∧
    (∃ t, exec (.dbgDataAccess (.session 0) k (some v)) s = .next t ∧ t.cell k = dbgWrite (s.cell k) file ix v ∧
      t.rd a = dbgRead (t.cell k) file ix ∧ CsrsBut s t [a] ∧ CtxsBut s t (.cell k) ∧ OnlyRegs s t))

namespace Sys2Proof.Claim

/-! The Almanac. -/

/-- No range of the Almanac reaches beyond the module's slots. -/
def AlmRangeOk (s : State) (p : Nat) : Prop := s.almBase p + s.almCount p ≤ 16384

/-- Every word of every slot outside a list of slots is as before. -/
def SlotsBut (s t : State) (l : List Nat) : Prop := ∀ n w, n < 16384 → w < 16 → n ∉ l → t.slotW n w = s.slotW n w

/-- QUIET, XH and the position of a slot after the update of a step end, from word 9, the policy, TOP of its ladder,
whether the verdict names an overflow, and whether the slot may move (R181). -/
def endQuiet (w : W64) : Nat :=
  if getF w fUSED = 1 then (if getF w fQUIETF = 1 then min (getF w fQUIET + 1) 65535 else 0) else getF w fQUIET
def endXh (w : W64) (ovfl : Bool) : Nat :=
  if ovfl then (if getF w fSATF = 1 then min 7 (getF w fXH + 1) else getF w fXH)
  else if 0 < getF w fXH ∧ 8 ≤ endQuiet w then getF w fXH - 1 else getF w fXH
def endPos (w : W64) (pol : Policy) (top : Nat) (ovfl free : Bool) : Nat :=
  let pos := getF w fPOS
  let quiet := if ovfl = false ∧ 0 < getF w fXH ∧ 8 ≤ endQuiet w then 0 else endQuiet w
  if free = false then pos
  else if getF w fREQ = 1 ∧ pos < top then pos + 1
  else if ovfl = false ∧ pol.downQuiet ≠ 0 ∧ pol.downQuiet ≤ quiet ∧ endXh w ovfl = 0 ∧ 0 < pos then pos - 1
  else pos

/-- The larger of a magnitude in FP32 and the one that a report brings (R170). -/
def amaxOf (a : Nat) (r : AlmRep) : Nat :=
  if (f32Mag (BitVec.ofNat 32 a)).lt (f32Mag (BitVec.ofNat 32 r.amax)) then r.amax % 2 ^ 32 else a

/-- The header of an image at the checkpoint address (R186). -/
def imageHead (s : State) (p : Nat) : List Byte := s.bytesAt (s.ckptAddr p) 128
def imageSlots (s : State) (p : Nat) : Nat := leNat (((imageHead s p).drop 6).take 2)
def imageBody (s : State) (p : Nat) : List Byte := s.bytesAt (s.ckptAddr p + 128) (128 * imageSlots s p)

/-- The image is one: its magic number, its version, its size and its check value (R186, R187). -/
def ImageGood (s : State) (p : Nat) : Prop :=
  leNat ((imageHead s p).take 4) = 0x4E4D4C41 ∧ leNat (((imageHead s p).drop 4).take 2) = 1 ∧
    imageSlots s p ≤ s.almCount p ∧ crc32c (imageBody s p) = leNat (((imageHead s p).drop 8).take 4) ∧
    s.runsOk p [(s.ckptAddr p, 128)] = true ∧ s.runsOk p [(s.ckptAddr p, 128 * (imageSlots s p + 1))] = true

end Sys2Proof.Claim

/-- R165, R167, R184: a write of word 8 initialises a slot that was invalid, waits for the step end while a step is open or
pending, and clears a slot that becomes invalid between steps; a range is replaced where it meets no other and no valid slot is
in it; an uncorrectable word of a slot clears it or puts it in cold scaling, counts as lost and raises a fault record.
Model's choices: log entry 78. -/
def Obligations.AlmanacSlotWrites : Prop :=
  (∀ pl (n : Fin 16384) v s p,
    let new := BitVec.ofNat 64 (v.toNat &&& confMask)
    s.mayAccess pl (almAddr n 8) true = true → slotFmtOk (fld v 61 56) = true → fld v 43 36 ≠ 0x80 →
    s.slotOwner n = some p →
    (flag (s.confOf p n) 63 = false → flag new 63 = true →
      ∃ t, exec (.almSlotConfWrite pl n v) s = .next t ∧ t.slotW n 8 = new ∧
        getF (t.slotW n 9) fPOS = (if flag new 62 then fld new 53 52
          else min (fld new 53 52) (ladTop ((s.almOf p).lads.getD (fld new 55 54) 0))) ∧
        getF (t.slotW n 9) fSTNS = fld new 43 36 ∧ getF (t.slotW n 9) fCOLD = (if flag new 44 then 16 else 0) ∧
        getF (t.slotW n 9) fHCNT = 0 ∧ getF (t.slotW n 9) fHPTR = 15 ∧ getF (t.slotW n 9) fXH = 0 ∧
        getF (t.slotW n 9) fHOLD = 0 ∧ getF (t.slotW n 9) fQUIET = 0 ∧
        (∀ w, w < 16 → w ≠ 8 → w ≠ 9 → t.slotW n w = csrReset (almAddr n w)) ∧ SlotsBut s t [n] ∧ CtxSame s t ∧ MemSame s t) ∧
    (flag (s.confOf p n) 63 = true → s.almIdle p = false →
      ∃ t, exec (.almSlotConfWrite pl n v) s = .next t ∧ t.slotW n 8 = new ∧ t.confOf p n = s.confOf p n ∧
        CsrsBut s t [almAddr n 8] ∧ CtxSame s t ∧ MemSame s t) ∧
    (flag (s.confOf p n) 63 = true → s.almIdle p = true → flag new 63 = false →
      ∃ t, exec (.almSlotConfWrite pl n v) s = .next t ∧ (∀ w, w < 16 → t.slotW n w = csrReset (almAddr n w)) ∧
        SlotsBut s t [n] ∧ CtxSame s t ∧ MemSame s t)) ∧
  (∀ pl (p : Fin 64) v s,
    let a := R.PART_ALM_RANGE p.val
    let b := fld v 13 0
    let n := fld v 30 16
    s.mayAccess pl a true = true → Writable a v → b + n ≤ 16384 →
    (∀ q, q < 64 → q ≠ p.val → s.almCount q ≠ 0 → n ≠ 0 → b + n ≤ s.almBase q ∨ s.almBase q + s.almCount q ≤ b) →
    (∀ i, i < s.almCount p.val → flag (s.confOf p.val (s.almBase p.val + i)) 63 = false) →
    (∀ i, i < n → flag (s.confOf p.val (b + i)) 63 = false) →
    ∃ t, exec (.almRangeWrite pl p v) s = .next t ∧ t.rd a = putVal a (s.rd a) v ∧ OnlyCsrs s t [a]) ∧
  (∀ (n : Fin 16384) (w : Fin 16) s p, s.slotOwner n = some p →
    ∃ t r, exec (.almSlotUe n w) s = .next t ∧ t.fsrPend = s.fsrPend ++ [r] ∧ r.kind = 0x0B ∧ r.part = p ∧
      t.rd (R.PART_ALM_LOST_CNT p) = satAdd64 (s.rd (R.PART_ALM_LOST_CNT p)) 1 ∧ SlotsBut s t [n] ∧ CtxSame s t ∧ MemSame s t ∧
      (w = 8 → ∀ i, i < 16 → t.slotW n i = csrReset (almAddr n i)) ∧
      (w ≠ 8 → t.slotW n 8 = s.slotW n 8 ∧ getF (t.slotW n 9) fCOLD = 16 ∧
        getF (t.slotW n 9) fHCNT = 0 ∧ getF (t.slotW n 9) fSTNS = fld (s.slotW n 8) 43 36))

/-- R171, R172, R182: the close, once every pass of the step has retired, sets the flags of each valid slot from what its
converters reported, takes the largest magnitude, gives the counts the reports held for the next step, or 0 where there is none,
and makes the step pending; more requests than the policy permits are a storm, which raises OVF. -/
def Obligations.AlmanacClose : Prop :=
  ∀ (p : Fin 64) s, (s.almOf p).closed < (s.almOf p).contrib → (s.almOf p).closed = (s.almOf p).ended →
    s.passesIn p = true → (∀ r ∈ (s.almOf p).held, r.slot < 16384) → AlmRangeOk s p →
    let next := (s.almOf p).held.filter (·.step = (s.almOf p).closed + 1)
    let pv := s.rd (R.PART_ALM_POLICY p)
    let pol := policyOf pv (s.rd (R.PART_ALM_POLICY_C p))
    ∃ t, exec (.almanacClose p) s = .next t ∧ (t.almOf p).closed = (s.almOf p).closed + 1 ∧
      (t.almOf p).held = (s.almOf p).held.filter (·.step ≠ (s.almOf p).closed + 1) ∧
      t.rdF (R.PART_ALM_STEP p) F.PART_ALM_STEP_OPEN = (if next = [] then 0 else 1) ∧ t.rdF (R.PART_ALM_STEP p) F.PART_ALM_STEP_PEND = 1 ∧
      (∀ n ∈ s.validSlots p,
        let conv := fld (s.slotW n 12) 63 24
        let outl := fld (s.slotW n 12) 23 0
        let sat := fld (s.slotW n 11) 63 32
        let shed := fld (s.slotW n 11) 31 0
        let pin := flag (s.confOf p n) 62
        let w := t.slotW n 9
        let rs := next.filter (·.slot = n)
        (getF w fUSED = 1 ↔ 0 < conv) ∧ (getF w fSATF = 1 ↔ 0 < sat) ∧
        (getF w fQUIETF = 1 ↔ 0 < conv ∧ sat = 0 ∧ shed = 0 ∧ outl * 2 ^ 20 ≤ pol.downOutl * conv) ∧
        (getF w fREQ = 1 ↔ 0 < conv ∧ pin = false ∧
          (pol.upSat * conv < sat * 2 ^ 20 ∨ pol.upOutl * conv < outl * 2 ^ 20 ∨ pol.upShed * conv < shed * 2 ^ 20)) ∧
        (∀ f ∈ [fPOS, fFMT, fSTNS, fXH, fCOLD, fHOLD, fQUIET, fHPTR, fHCNT], getF w f = getF (s.slotW n 9) f) ∧
        fld (t.slotW n 10) 31 0 = fld (s.slotW n 10) 63 32 ∧ fld (t.slotW n 10) 63 32 = rs.foldl amaxOf 0 ∧
        fld (t.slotW n 11) 63 32 = min (rs.map (·.sat)).sum (2 ^ 32 - 1) ∧
        fld (t.slotW n 11) 31 0 = min (rs.map (·.shed)).sum (2 ^ 32 - 1) ∧
        fld (t.slotW n 12) 63 24 = min (rs.map (·.conv)).sum (2 ^ 40 - 1) ∧
        fld (t.slotW n 12) 23 0 = min (rs.map (·.outl)).sum (2 ^ 24 - 1) ∧
        ∀ i, i < 9 ∨ (12 < i ∧ i < 16) → t.slotW n i = s.slotW n i) ∧
      SlotsBut s t (s.validSlots p ++ next.map (·.slot)) ∧ CtxSame s t ∧ MemSame s t ∧
      let live := (s.validSlots p).filter fun n => !flag (s.confOf p n) 62 && getF (t.slotW n 9) fUSED = 1
      let q := (live.filter fun n => getF (t.slotW n 9) fREQ = 1).length
      if 0 < live.length ∧ fld pv 15 8 * live.length < q * 256 then
        t.rdF (R.PART_ALM_STEP p) F.PART_ALM_STEP_STORM = 1 ∧ flag (t.rd (R.PART_VRD_OWN p)) vOVF = true ∧
          t.rd (R.PART_ALM_STORM_CNT p) = satAdd64 (s.rd (R.PART_ALM_STORM_CNT p)) 1
      else t.rdF (R.PART_ALM_STEP p) F.PART_ALM_STEP_STORM = 0 ∧
        t.rd (R.PART_VRD_OWN p) = s.rd (R.PART_VRD_OWN p)

/-- R176, R180, R181: a step end whose verdict has a discard bit leaves every slot as it is and counts; any other, of a step that
is no storm and where no write of word 8 waits, takes each used slot's magnitude into its history, moves extra headroom and the
position on the ladder by the rules, derives the format, and counts the step.
Model's choices: log entries 9, 27 and 61. -/
def Obligations.AlmanacStepEnd : Prop :=
  (∀ (p : Fin 64) s w, (s.almOf p).verdict = some w → (s.almOf p).ended < (s.almOf p).closed → (s.almOf p).op = 0 →
    wordDiscard w = true →
    ∃ t, exec (.almanacStepEnd p) s = .next t ∧ (t.almOf p).ended = (s.almOf p).ended + 1 ∧ (t.almOf p).verdict = none ∧
      t.rd (R.PART_ALM_DISC_CNT p) = satAdd64 (s.rd (R.PART_ALM_DISC_CNT p)) 1 ∧
      t.rdF (R.PART_ALM_STEP p) F.PART_ALM_STEP_PEND = 0 ∧ t.rdF (R.PART_ALM_STEP p) F.PART_ALM_STEP_STORM = 0 ∧
      SlotsBut s t [] ∧ CtxSame s t ∧ MemSame { s with tiers := { s.tiers with cfg := t.tiers.cfg } } t) ∧
  (∀ (p : Fin 64) s w, (s.almOf p).verdict = some w → (s.almOf p).ended < (s.almOf p).closed → (s.almOf p).op = 0 →
    (s.almOf p).conf = [] → wordDiscard w = false → s.rdF (R.PART_ALM_STEP p) F.PART_ALM_STEP_STORM = 0 → AlmRangeOk s p →
    let ovfl := flag w vOVF
    let fhold := s.rdF (R.PART_ALM_STEP p) F.PART_ALM_STEP_FHOLD - 1
    let pol := policyOf (s.rd (R.PART_ALM_POLICY p)) (s.rd (R.PART_ALM_POLICY_C p))
    ∃ t, exec (.almanacStepEnd p) s = .next t ∧ (t.almOf p).ended = (s.almOf p).ended + 1 ∧ (t.almOf p).verdict = none ∧
      t.rdF (R.PART_ALM_STEP p) F.PART_ALM_STEP_PEND = 0 ∧ t.rdF (R.PART_ALM_STEP p) F.PART_ALM_STEP_FHOLD = fhold ∧
      t.rdF (R.PART_ALM_STEP p) F.PART_ALM_STEP_COUNT = (s.rdF (R.PART_ALM_STEP p) F.PART_ALM_STEP_COUNT + 1) % 2 ^ 48 ∧
      (∀ n ∈ s.validSlots p,
        let o := s.slotW n 9
        let c := s.confOf p n
        let x := t.slotW n 9
        let lad := s.rd (ladderAddr p (fld c 55 54))
        let free := !(flag c 62 || decide (fhold ≠ 0) || decide (getF o fHOLD - 1 ≠ 0))
        let pos := endPos o pol (ladTop ((s.almOf p).lads.getD (fld c 55 54) 0)) ovfl free
        (getF o fUSED = 1 → getF x fHPTR = (getF o fHPTR + 1) % 16 ∧ getF x fHCNT = min (getF o fHCNT + 1) 16 ∧
          getF x fCOLD = getF o fCOLD - 1 ∧ t.histAt n (getF x fHPTR) = BitVec.ofNat 32 (fld (s.slotW n 10) 31 0)) ∧
        (getF o fUSED = 0 → getF x fHPTR = getF o fHPTR ∧ getF x fHCNT = getF o fHCNT ∧ getF x fCOLD = getF o fCOLD) ∧
        getF x fXH = endXh o ovfl ∧ getF x fPOS = (if flag c 62 then pos else min pos (ladTop lad)) ∧
        getF x fFMT = (if flag c 62 then fld c 61 56 else ladRung lad (getF x fPOS)) ∧
        (pos = getF o fPOS → getF x fHOLD = if flag c 62 then getF o fHOLD else getF o fHOLD - 1) ∧
        (pos ≠ getF o fPOS → getF x fQUIET = 0 ∧ getF x fHOLD = pol.moveHold % 256)) ∧
      SlotsBut s t (s.validSlots p) ∧ CtxSame s t)

/-- R185-R187: a checkpoint operation is asked for once at a time; between steps a save writes the image at its address, and a
restore of a good image takes back its slots; an image of another kind leaves every valid slot in cold scaling.
Model's choices: log entries 27 and 79. -/
def Obligations.AlmanacCheckpoints : Prop :=
  (∀ x ∈ [((.almCkptSave : Plane → Fin 64 → Instr), 1), (.almCkptRestore, 2)], ∀ pl (p : Fin 64) s,
    let a := R.PART_ALM_CKPT p.val
    s.mayAccess pl a true = true →
    (s.rdF a F.PART_ALM_CKPT_STATUS ≠ 1 →
      ∃ t, exec (x.1 pl p) s = .next t ∧ (t.almOf p).op = x.2 ∧ t.rdF a F.PART_ALM_CKPT_STATUS = 1 ∧
        t.rdF a F.PART_ALM_CKPT_FAIL = 0 ∧ CsrsBut s t [a] ∧ CtxSame s t ∧ MemSame s t) ∧
    (s.rdF a F.PART_ALM_CKPT_STATUS = 1 → AccessRefused (exec (x.1 pl p) s) s pl a 6)) ∧
  (∀ (p : Fin 64) s s1,
    let a := R.PART_ALM_CKPT p.val
    let img := s.almImage p
    let r : Run := (s.ckptAddr p, img.length)
    s.almIdle p = true → (s.almOf p).op = 1 → s.runsOk p [r] = true → Calm s p [r] →
    (s.setAlm p { s.almOf p with op := 0 }).allocateAll .host p (runPages r) = some s1 →
    ∃ t, exec (.almCkptPerform p) s = .next t ∧ t.bytes = stores s1 ((runAddrs [r]).zip img) ∧ t.dir = s1.dir ∧
      t.frames = s1.frames ∧ t.rdF a F.PART_ALM_CKPT_STATUS = 2 ∧ t.rdF a F.PART_ALM_CKPT_FAIL = 0 ∧ (t.almOf p).op = 0 ∧
      SlotsBut s t [] ∧ CtxSame s t) ∧
  (∀ (p : Fin 64) s, let a := R.PART_ALM_CKPT p.val
    s.almIdle p = true → (s.almOf p).op = 2 → AlmRangeOk s p → Calm s p [] → ImageGood s p →
    ∃ t, exec (.almCkptPerform p) s = .next t ∧ t.rdF a F.PART_ALM_CKPT_STATUS = 2 ∧ (t.almOf p).op = 0 ∧
      (∀ i w, i < imageSlots s p → w < 16 → t.slotW (s.almBase p + i) w =
        if 10 ≤ w ∧ w ≤ 12 then 0 else wordAt (imageBody s p) (128 * i + 8 * w) &&& slotMask w) ∧
      SlotsBut s t ((List.range (imageSlots s p)).map (s.almBase p + ·)) ∧ t.bytes = s.bytes ∧ t.dir = s.dir ∧ CtxSame s t) ∧
  (∀ (p : Fin 64) s, let a := R.PART_ALM_CKPT p.val
    s.almIdle p = true → (s.almOf p).op = 2 → AlmRangeOk s p → Calm s p [] → s.runsOk p [(s.ckptAddr p, 128)] = true →
    leNat ((imageHead s p).take 4) ≠ 0x4E4D4C41 →
    ∃ t, exec (.almCkptPerform p) s = .next t ∧ t.rdF a F.PART_ALM_CKPT_STATUS = 3 ∧ t.rdF a F.PART_ALM_CKPT_FAIL = 2 ∧
      (∀ n ∈ s.validSlots p, getF (t.slotW n 9) fCOLD = 16 ∧ getF (t.slotW n 9) fHCNT = 0) ∧
      t.rd (R.PART_ALM_LOST_CNT p) = satAdd64 (s.rd (R.PART_ALM_LOST_CNT p)) (s.validSlots p).length ∧
      SlotsBut s t (s.validSlots p) ∧ CtxSame s t)

namespace Sys2Proof.Claim

/-! The Zenith units. -/

/-- Elements of a block that a load or store of a tile at offset `off` covers, and their bytes (R228). -/
def zn (s : State) (b : ZBlk) (off : Nat) : Nat := min 1024 (s.zcount b.entry - off)
def zruns (s : State) (t : Tabs) (b : ZBlk) (st off : Nat) : Run :=
  zrunOf (s.zaddr b.entry st) (fmtWidth t (s.zfmt b.entry st)) off (zn s b off)

/-- The element that zen.ld gives from stored bits: FX64 of a G stream, or the scaled value of its format (R228). -/
def zval (t : Tabs) (fmt scale st bits : Nat) : Val :=
  if st = 3 ∧ fmt = fmtFP64 then .fin ⟨signed 64 bits, -40⟩ else scaledVal t fmt bits scale

/-- The scale bytes of Q that a store writes: none but for whole blocks of stream 4. -/
def zscales (s : State) (b : ZBlk) (st off n : Nat) : List Run :=
  if st = 4 ∧ s.zblk b.entry ≠ 0 ∧ n ≠ 0 then [(s.zaddr b.entry 5 + off / s.zblk b.entry, cdiv n (s.zblk b.entry))] else []

/-- A store names whole blocks of Q. -/
def zwhole (s : State) (b : ZBlk) (st off n : Nat) : Prop :=
  st ≠ 4 ∨ s.zblk b.entry = 0 ∨
    (off % s.zblk b.entry = 0 ∧ ((off + n) % s.zblk b.entry = 0 ∨ off + n = s.zcount b.entry))

/-- What element `k` of a store becomes: rounded stochastically in a parameter stream of a format other than FP32, to nearest
otherwise (R234-R236). -/
def zstored (s : State) (z : ZRun) (j : Job) (b : ZBlk) (st off : Nat) (tile : List F32) (k : Nat) : Nat × Int :=
  let n := zn s b off
  let fmt := s.zfmt b.entry st
  let sc := if st = 4 then (if s.zblk b.entry = 0 then 0 else zqScale j.tabs fmt (s.zblk b.entry) n k tile)
    else b.storeScale s st
  let a := tile.getD k 0
  ((if st ≠ 4 ∧ fmt ≠ fmtFP32 then
      (srEl j fmt a sc (srWord z.seed z.step (fld (s.rd (zdirAddr b.entry 7)) 63 24 + off + k) st) k).bits
    else (storeEl j zenSrc fmt a sc k).bits), sc)

/-- The bytes of a packed store: the neighbouring elements' bits stay, and nothing follows the block's last element. -/
def zpacked (old : List Byte) (w off : Nat) (last : Bool) (els : List Nat) : List Byte :=
  let o := leNat old
  let b := off * w % 8
  let top := b + els.length * w
  leBytes old.length (o % 2 ^ b + els.foldr (fun e acc => e % 2 ^ w + 2 ^ w * acc) 0 * 2 ^ b +
    (if last then 0 else o / 2 ^ top * 2 ^ top))

/-- The Almanac, the verdicts, the timetables and the slices are as they were, and of the passes only that of partition `p` on
die `d` differs, which is `z`. -/
def ZenFrame (s t : State) (d : Fin 16) (p : Fin 64) (z : ZRun) : Prop :=
  t.zr d p = z ∧ (∀ e q, e < 16 → q < 64 → (e ≠ d ∨ q ≠ p) → t.zr e q = s.zr e q) ∧ t.zslice = s.zslice ∧ t.alm = s.alm ∧
    t.vrd = s.vrd ∧ t.tts = s.tts ∧ FabricSame s t ∧ ServiceSame s t

/-- The pass holds what its start snapshots (R227). -/
def Snapshot (s : State) (p : Nat) (z : ZRun) : Prop :=
  z.hp = (List.range 8).map (fun i => s.rd (R.PART_ZEN_HPj p i)) ∧ z.tabs = s.refTabs p ∧
    z.ovf = flag (s.rd (R.PART_NUM_MODE p)) 0 ∧ z.seed = s.rd (R.PART_ZEN_SEED p) ∧
    z.step = s.rdF (R.PART_ZEN_STEP p) F.PART_ZEN_STEP_STEP

/-- A pass of partition `p` has started on every die: a die with a block to run has entered its first at the pass's address, the
others have finished. -/
def PassStarted (s t : State) (p : Fin 64) (pass pc : Nat) : Prop :=
  ∀ d : Fin 16, (t.zr d p).pass = pass ∧ Snapshot s p (t.zr d p) ∧
    match s.zentries d p pass with
    | [] => (t.zr d p).done = true ∧ (t.zr d p).blk = none
    | n :: rest => (t.zr d p).blk = some ⟨n, 0, none, none⟩ ∧ (t.zr d p).todo = rest ∧ (t.zr d p).done = false ∧
        t.pc (.zen d p) = pc ∧ (t.ctx (.zen d p)).regs.getS 1 = BitVec.ofNat 64 (s.zcount n) ∧
        (t.ctx (.zen d p)).regs.getS 2 = BitVec.ofNat 64 n ∧
        ∀ i, i < 4 → (t.ctx (.zen d p)).regs.getS (8 + i) = s.rd (zdirAddr n (8 + i))

end Sys2Proof.Claim

/-- R228, R234-R236: zen.ld fills a tile from a stream of the block in work, +0 beyond its elements; zen.st stores the elements
that the block has at the offset, packed, with the scale bytes of whole blocks of Q.
Model's choices: log entries 3, 28 and 75. -/
def Obligations.ZenithLoadStore : Prop :=
  (∀ d q p (f : FmtV) s b,
    let c := Ctx.zen d q
    let i := Instr.zenLd c p f
    let e := entered s c .zen i
    let t := s.tabs c
    let st := f.strm.val
    let off := ((s.ctx c).regs.getS f.rs.val).toNat
    let fmt := s.zfmt b.entry st
    let w := fmtWidth t fmt
    let r := zruns s t b st off
    f = { fmtV0 with td := f.td, strm := f.strm, rs := f.rs } → Ready s c p .zen i [f.rs.val] [] → Calm e q [] →
    s.zcur c = some b → st < 4 → s.zhas b.entry st = true → st = 3 ∨ s.zfrozen b.entry = false → s.runsOk q [r] = true →
    Taken (exec i s) s c .zen i fun e x fl =>
      fl.rd = none ∧ fl.pd = [] ∧ x.bytes = e.bytes ∧ x.dir = e.dir ∧ x.frames = e.frames ∧
      x.ctx c = { e.ctx c with tiles := (x.ctx c).tiles } ∧ CtxsBut e x c ∧
      CsrsBut e x (R.PART_TIER_EMPTY_CNT q :: homeRegs c ++ convRegs c) ∧
      ZenFrame e x d q { s.zr d q with blk := some { b with off := off } } ∧
      (∀ k, k < 1024 → ((x.ctx c).tile f.td.val).getD k 0 =
        if k < zn s b off then BitVec.ofNat 32 (toF32 (s.ovf c) (zval t fmt (s.zscale b.entry st) st
          (leNat (e.bytesAt r.1 r.2) / 2 ^ (off * w % 8) / 2 ^ (w * k) % 2 ^ w)).toXR).bits
        else 0) ∧
      ∀ n, n ≠ f.td.val → (x.ctx c).tile n = (s.ctx c).tile n) ∧
  (∀ d q p (f : FmtV) s b s1,
    let c := Ctx.zen d q
    let i := Instr.zenSt c p f
    let e := entered s c .zen i
    let j := s.newJob c .zen i
    let t := s.tabs c
    let st := f.strm.val
    let off := ((s.ctx c).regs.getS f.rs.val).toNat
    let w := fmtWidth t (s.zfmt b.entry st)
    let n := zn s b off
    let r := zruns s t b st off
    let qs := zscales s b st off n
    let el := zstored s (s.zr d q) j b st off ((s.ctx c).tile f.ta.val)
    f = { fmtV0 with ta := f.ta, strm := f.strm, rs := f.rs } → Ready s c p .zen i [f.rs.val] [] → Calm e q (r :: qs) →
    s.zcur c = some b → st ∈ [0, 1, 2, 4] → s.zhas b.entry st = true → s.zfrozen b.entry = false → zwhole s b st off n →
    s.runsOk q (r :: qs) = true → e.allocateAll (writerOf c) q (pagesOf (r :: qs)) = some s1 →
    Taken (exec i s) s c .zen i fun e x fl =>
      fl.rd = none ∧ fl.pd = [] ∧ x.dir = s1.dir ∧ x.frames = s1.frames ∧ CtxSame e x ∧
      CsrsBut s1 x (R.PART_ZEN_SR_CNT q :: homeRegs c ++ convRegs c) ∧
      x.rd (R.PART_ZEN_SR_CNT q) = satAdd64 (s1.rd (R.PART_ZEN_SR_CNT q))
        (if st ≠ 4 ∧ s.zfmt b.entry st ≠ fmtFP32 then n else 0) ∧
      ZenFrame e x d q { s.zr d q with blk := some { b with off := off } } ∧
      x.bytes = stores s1 ((runAddrs [r]).zip (zpacked (s1.bytesAt r.1 r.2) w off (off + n = s.zcount b.entry)
          ((List.range n).map fun k => (el k).1)) ++
        qs.flatMap fun v => (List.range v.2).map fun m => (v.1 + m, BitVec.ofInt 8 ((el (m * s.zblk b.entry)).2 + 127))))

/-- R228, R230, R239, R304: zen.setsc sets a store scale of the block in work; in pass one zen.nsq adds the exact squares of a
tile to the norm; zen.amax reads the largest magnitude, an infinity as the largest finite value; zen.sgn writes the signs; zen.next
writes the block's scratch words back, unless the block is frozen, and ends the block. -/
def Sys2Proof.Claim.ZenithBlockInstructions : Prop :=
  (∀ d q p (f : FmtV) s b,
    let c := Ctx.zen d q
    let i := Instr.zenSetsc c p f
    let e := max (-127) (min 127 ((s.ctx c).regs.getS f.rs.val).toInt)
    f = { fmtV0 with strm := f.strm, rs := f.rs } → Ready s c p .zen i [f.rs.val] [] → s.zcur c = some b →
    s.zhas b.entry f.strm.val = true → s.zfrozen b.entry = false → f.strm = 1 ∨ f.strm = 2 →
    Taken (exec i s) s c .zen i fun e' x fl => fl.rd = none ∧ fl.pd = [] ∧ CsrsBut e' x [] ∧ CtxSame e' x ∧ MemSame e' x ∧
      ZenFrame e' x d q { s.zr d q with
        blk := some (if f.strm = 1 then { b with msc := some e } else { b with vsc := some e }) }) ∧
  (∀ d q p (f : FmtV) s,
    let c := Ctx.zen d q
    let i := Instr.zenNsq c p f
    let t := (s.ctx c).tile f.ta.val
    f = { fmtV0 with ta := f.ta } → Ready s c p .zen i [] [] → (s.zr d q).pass ≠ 2 →
    Taken (exec i s) s c .zen i fun e x fl => fl.rd = none ∧ fl.pd = [] ∧ CsrsBut e x [] ∧ CtxSame e x ∧ MemSame e x ∧
      ZenFrame e x d q { s.zr d q with
        acc := (s.zr d q).acc + (t.map fun a => match f32Val a with
          | .fin v => ((v.mul v).at (-298)).toNat
          | _ => 0).sum
        ainf := (s.zr d q).ainf || t.any (fun a => match f32Val a with
          | .inf _ => true
          | _ => false)
        anan := (s.zr d q).anan || t.any (fun a => (f32Val a).isNan) }) ∧
  (∀ d q p (f : FmtV) s,
    let c := Ctx.zen d q
    let i := Instr.zenAmax c p f
    let t := (s.ctx c).tile f.ta.val
    f = { fmtV0 with ta := f.ta, rs := f.rs } → Ready s c p .zen i [f.rs.val] [] →
    Taken (exec i s) s c .zen i fun e x fl => x = e ∧ fl.pd = [] ∧ fl.nans = (t.filter fun a => (f32Val a).isNan).length ∧
      ∃ v, fl.rd = some (f.rs.val, v) ∧
        ((∃ a ∈ t, (f32Val a).isNan = true) → v = 0x7FC00000) ∧
        ((∀ a ∈ t, (f32Val a).isNan = false) → v.toNat ≤ 0x7F7FFFFF ∧
          (∀ a ∈ t, min (a.toNat % 2 ^ 31) 0x7F7FFFFF ≤ v.toNat) ∧
          (v = 0 ∨ ∃ a ∈ t, v.toNat = min (a.toNat % 2 ^ 31) 0x7F7FFFFF))) ∧
  (∀ d q p (f : FmtV) s,
    let c := Ctx.zen d q
    f = { fmtV0 with td := f.td, ta := f.ta } → UnitFree s c .zen → Issues s c p (.zenSgn c p f) [] [] →
    TileDone (exec (.zenSgn c p f) s) s c (.zenSgn c p f) f.td.val fun k =>
      let v := valA (s.ctx c) f k
      if v.isNan then 0x7FC00000 else if v.isZero then 0 else if v.isNeg then 0xBF800000 else 0x3F800000) ∧
  (∀ d q p s b,
    let c := Ctx.zen d q
    let i := Instr.zenNext c p fmtV0
    let z := s.zr d q
    let r := (s.ctx c).regs
    Ready s c p .zen i [] [] → s.zcur c = some b → b.entry < 32768 → (s.ctx c).flight = [] →
    Taken (exec i s) s c .zen i fun e x fl => fl.rd = none ∧ fl.pd = [] ∧ CtxSame e x ∧ MemSame e x ∧
      ZenFrame e x d q { z with blk := none } ∧
      (s.zfrozen b.entry = true → CsrsBut e x []) ∧
      (s.zfrozen b.entry = false →
        (∀ n, n < 4 → x.rd (zdirAddr b.entry (8 + n)) = r.getS (8 + n)) ∧
        (∀ v, b.msc = some v → -127 ≤ v → v ≤ 127 → (fld (x.rd (zdirAddr b.entry 7)) 23 16 : Int) = v + 127) ∧
        (∀ v, b.vsc = some v → -127 ≤ v → v ≤ 127 → (fld (x.rd (zdirAddr b.entry 7)) 15 8 : Int) = v + 127) ∧
        (z.pass = 2 → flag (x.rd (zdirAddr b.entry 7)) 0 = r.getP 6 ∧
          x.rd (R.PART_ZEN_FB_CNT q) = satAdd64 (s.rd (R.PART_ZEN_FB_CNT q)) (bnat (r.getP 6))) ∧
        CsrsBut e x (R.PART_ZEN_FB_CNT q :: (List.range 5).map fun n => zdirAddr b.entry (7 + n))))

/-- R237, R238: zen.ldlt factors each lane: where an attempt succeeds the lane becomes L below the diagonal and D on it, its tile
element the number of the attempt; a lane that fails becomes zero, its element -1, and raises the predicate and p6. -/
def Sys2Proof.Claim.ZenithFactorisation : Prop :=
  ∀ d q p (f : FmtV) s s1,
    let c := Ctx.zen d q
    let i := Instr.zenLdlt c p f
    let e := entered s c .zen i
    let j := s.newJob c .zen i
    let t := s.tabs c
    let ds := dsc s c f.ds
    let dt := dsc s c f.dt
    let n := ds.e0
    let eps := f32Val (BitVec.ofNat 32 ((s.ctx c).regs.getS f.rs.val).toNat)
    let u := e.unitRead c (ds.runs t)
    let rows := ds.rows.map (u.1.rowElems t ds)
    let lane := fun b => ldlLane j ⟨n, fun a k => BitVec.ofNat 32 ((rows.getD (b * n + a) []).getD k 0), b * n * n⟩ eps
    let lanes := (List.range (ds.e1 / n)).map lane
    f = { fmtV0 with ds := f.ds, dt := f.dt, rs := f.rs, tx := f.tx, pd := f.pd } →
    Ready s c p .zen i [f.rs.val] [f.pd.val, 6] → Calm e q (dt.runs t) → e.ldltFail c j f = none →
    u.1.allocateAll (writerOf c) q (pagesOf (dt.runs t)) = some s1 →
    Taken (exec i s) s c .zen i fun e x fl =>
      fl.rd = none ∧ fl.pd = (if lanes.all (·.won.isSome) then [] else [(f.pd.val, true), (6, true)]) ∧
      x.dir = s1.dir ∧ x.frames = s1.frames ∧ CtxsBut e x c ∧ x.ctx c = { e.ctx c with tiles := (x.ctx c).tiles } ∧
      CsrsBut s1 x (R.PART_ZEN_LFAIL_CNT q :: R.PART_ZEN_LIFT_CNT q :: homeRegs c ++ convRegs c) ∧
      ZenFrame e x d q (s.zr d q) ∧
      x.rd (R.PART_ZEN_LFAIL_CNT q) = satAdd64 (s1.rd (R.PART_ZEN_LFAIL_CNT q)) (lanes.filter (·.won.isNone)).length ∧
      x.bytes = stores s1 ((List.range ds.e1).flatMap fun a => (runAddrs (dt.rowRuns t ⟨a, 0, 0⟩)).zip
        (packElems 32 ((List.range n).map fun k => ((lane (a / n)).out (a % n) k).toNat))) ∧
      (∀ k, k < 1024 → ((x.ctx c).tile f.tx.val).getD k 0 =
        if k < lanes.length then (match (lane k).won with
          | some m => BitVec.ofNat 32 (toF32 false (natVal m).toXR).bits
          | none => 0xBF800000)
        else if k < 512 then ((s.ctx c).tile f.tx.val).getD k 0 else 0) ∧
      ∀ m, m ≠ f.tx.val → (x.ctx c).tile m = (s.ctx c).tile m

/-- R218-R220, R226, R227, R231, R232: a slice runs a partition with work, one below its share before any other; pass one starts
with the verdict, pass two on a clean final verdict and is skipped on another; a pass has ended when every die has; the clearing
writes zero over every G stream, counts the step and advances the counter of its end.
Model's choices: log entries 2 and 28. -/
def Obligations.ZenithPhases : Prop :=
  (∀ (d : Fin 16) s, let z := s.slice d
    ∃ t, exec (.zenSliceStart d) s = .next t ∧ (t.slice d).idx = (z.idx + 1) % 256 ∧
      (∀ p, (t.slice d).cur = some p → s.zpending d p = true) ∧
      ((t.slice d).cur = none → ∀ p, p < 64 → s.zpending d p = false) ∧
      (∀ p q, (t.slice d).cur = some p → q < 64 → s.zpending d q = true →
        (if z.idx = 0 then 0 else SMap.get z.used 0 q) < SMap.get (t.slice d).share 0 q →
        (if z.idx = 0 then 0 else SMap.get z.used 0 p) < SMap.get (t.slice d).share 0 p) ∧
      (z.idx = 0 → ∀ p, p < 64 → SMap.get (t.slice d).share 0 p = s.rdF (R.PART_ZEN_SHARE p) F.PART_ZEN_SHARE_SHARE) ∧
      CsrsBut s t [R.DIE_ZEN_SW_CNT d] ∧ CtxSame s t ∧ MemSame s t ∧ FabricSame s t ∧ t.zrun = s.zrun) ∧
  (∀ (p : Fin 64) s, s.zenEn p = true → s.zphase p = 0 → (s.vrdOf p).issued = true → (s.vrdOf p).oneDone = false →
    (s.vrdOf p).sealed = false →
    ∃ t, exec (.zenPassOneStart p) s = .next t ∧ t.zphase p = 1 ∧
      PassStarted s t p 1 (s.rdF (R.PART_ZEN_PC1 p) F.PART_ZEN_PC1_PC) ∧ MemSame s t) ∧
  (∀ (p : Fin 64) s, s.zphase p = 1 → s.zallDone p = true →
    ∃ t, exec (.zenPassOneDone p) s = .next t ∧ t.zphase p = 2 ∧ (t.vrdOf p).oneDone = true ∧ (∀ d, d < 16 → (t.zr d p).pass = 0) ∧
      CsrsBut s t [R.PART_ZEN_STAT p] ∧ CtxSame s t ∧ MemSame s t) ∧
  (∀ (p : Fin 64) s, s.zphase p = 2 → s.vphase p = 3 → (s.vrdOf p).clean = true →
    ∃ t, exec (.zenPassTwoStart p) s = .next t ∧ t.zphase p = 3 ∧
      PassStarted s t p 2 (s.rdF (R.PART_ZEN_PC2 p) F.PART_ZEN_PC2_PC) ∧
      (∀ d : Fin 16, (t.zr d p).blk.isSome = true → (t.ctx (.zen d p)).regs.getS 4 = s.rd (R.PART_VRD_NSQ p)) ∧
      t.rd (R.PART_ZEN_FROZEN_CNT p) = satAdd64 (s.rd (R.PART_ZEN_FROZEN_CNT p))
        ((s.zValid p).filter fun n => flag (s.zconf n) 62).length ∧ MemSame s t) ∧
  (∀ (p : Fin 64) s, s.zphase p = 2 → s.vphase p = 3 → (s.vrdOf p).clean = false →
    ∃ t, exec (.zenPassTwoStart p) s = .next t ∧ t.zphase p = 4 ∧
      t.rd (R.PART_ZEN_SKIP_CNT p) = satAdd64 (s.rd (R.PART_ZEN_SKIP_CNT p)) 1 ∧
      OnlyCsrs s t [R.PART_ZEN_STAT p, R.PART_ZEN_SKIP_CNT p]) ∧
  (∀ (p : Fin 64) s, s.zphase p = 3 → s.zallDone p = true →
    ∃ t, exec (.zenPassTwoDone p) s = .next t ∧ t.zphase p = 4 ∧ (∀ d, d < 16 → (t.zr d p).pass = 0) ∧
      CsrsBut s t [R.PART_ZEN_STAT p] ∧ CtxSame s t ∧ MemSame s t) ∧
  (∀ (p : Fin 64) s, let b := s.rdF (R.PART_ZEN_CTL p) F.PART_ZEN_CTL_DONE_BAR
    s.zphase p = 4 → Calm s p [] → (∀ n ∈ s.zValid p, ∀ pg ∈ runPages (s.gStream n), s.isFree pg = false) → b < s.nbar p →
    ∃ t, exec (.zenClearDone p) s = .next t ∧ t.zphase p = 0 ∧
      t.rdF (R.PART_ZEN_STEP p) F.PART_ZEN_STEP_STEP = (s.rdF (R.PART_ZEN_STEP p) F.PART_ZEN_STEP_STEP + 1) % 2 ^ 48 ∧
      t.barVal p b = min (s.barVal p b + 1) (2 ^ 48 - 1) ∧ t.dir = s.dir ∧ t.frames = s.frames ∧
      (∀ n ∈ s.zValid p, ∀ x, (s.gStream n).1 ≤ x → x < (s.gStream n).1 + (s.gStream n).2 → t.byteAt x = 0) ∧
      ∀ x, (∀ n ∈ s.zValid p, ∀ y, (s.gStream n).1 ≤ y → y < (s.gStream n).1 + (s.gStream n).2 →
          (s.ent (y / pageSize)).home * pageSize + y % pageSize ≠ (s.ent (x / pageSize)).home * pageSize + x % pageSize) →
        t.byteAt x = s.byteAt x)

/-- R222-R225: a range of the directory is replaced where it meets no other and no valid entry is in it; a word of an entry that
is not valid and does not become so takes its value; a write that makes an entry valid asks for a bind, which makes it valid
where every check passes and reports its status either way. R247, R253: a host raises RETR, and clears UNC.
Model's choices: log entries 28 and 78. -/
def Obligations.ZenithDirectory : Prop :=
  (∀ pl (p : Fin 64) v s,
    let a := R.PART_ZEN_RANGE p.val
    let b := fld v 14 0
    let n := fld v 31 16
    s.mayAccess pl a true = true → Writable a v → b + n ≤ 32768 → s.zphase p.val = 0 →
    (∀ q, q < 64 → q ≠ p.val →
      numsMeet b n (fld (s.rd (R.PART_ZEN_RANGE q)) 14 0) (fld (s.rd (R.PART_ZEN_RANGE q)) 31 16) = false) →
    (∀ i, i < fld (s.rd a) 31 16 → flag (s.zconf (fld (s.rd a) 14 0 + i)) 63 = false) →
    (∀ i, i < n → flag (s.zconf (b + i)) 63 = false) →
    ∃ t, exec (.zenRangeWrite pl p v) s = .next t ∧ t.rd a = putVal a (s.rd a) v ∧ OnlyCsrs s t [a]) ∧
  (∀ pl (n : Fin 32768) (w : Fin 16) v s p,
    let a := zdirAddr n w
    s.mayAccess pl a true = true → s.entryOwner n = some p → w.val < 12 → w ≠ 7 ∨ flag v 0 = false →
    s.bindState p ≠ 1 → flag (s.zconf n) 63 = false → w ≠ 0 ∨ flag v 63 = false →
    ∃ t, exec (.zenDirWrite pl n w v) s = .next t ∧
      t.rd a = BitVec.ofNat 64 (maskPut (s.rd a).toNat v.toNat (dirMask w.val)) ∧ OnlyCsrs s t [a]) ∧
  (∀ pl (n : Fin 32768) v s p,
    let a := zdirAddr n 0
    s.mayAccess pl a true = true → s.entryOwner n = some p → s.bindState p ≠ 1 → s.zphase p = 0 →
    flag (s.zconf n) 63 = false → flag v 63 = true →
    ∃ t, exec (.zenDirWrite pl n 0 v) s = .next t ∧ flag (t.zconf n) 63 = false ∧
      t.bindState p = 1 ∧ t.rdF (R.PART_ZEN_BIND p) F.PART_ZEN_BIND_ENTRY = n.val ∧
      OnlyCsrs s t [a, R.PART_ZEN_BIND p]) ∧
  (∀ (p : Fin 64) s, let n := s.rdF (R.PART_ZEN_BIND p) F.PART_ZEN_BIND_ENTRY
    s.bindState p = 1 → (∀ x ∈ s.net.sess, x.2.all (·.bind.isNone) = true) →
    ∃ t, exec (.zenBind p) s = .next t ∧ t.bindState p = 2 ∧
      t.rdF (R.PART_ZEN_BIND p) F.PART_ZEN_BIND_STATUS = s.bindCheck p n ∧
      t.rdF (R.PART_ZEN_BIND p) F.PART_ZEN_BIND_ENTRY = n ∧
      (s.bindCheck p n = 0 → flag (t.zconf n) 63 = true) ∧ (s.bindCheck p n ≠ 0 → t.zconf n = s.zconf n) ∧
      OnlyCsrs s t [zdirAddr n 0, R.PART_ZEN_BIND p]) ∧
  (∀ pl (p : Fin 64) s, let a := R.PART_VRD_OWN p.val
    s.mayAccess pl a true = true →
    ∃ t, exec (.vrdRetr pl p) s = .next t ∧ t.rd a = s.rd a ||| 32 ∧ OnlyCsrs s t [a]) ∧
  (∀ pl (p : Fin 64) s, let a := R.PART_VRD_UNC p.val
    s.mayAccess pl a true = true →
    ∃ t, exec (.vrdUncClear pl p) s = .next t ∧ t.rd a = s.rd a &&& BitVec.ofNat 64 (2 ^ 63 - 1) ∧ OnlyCsrs s t [a])

namespace Sys2Proof.Claim

/-! Pages, SRAM and stacks. -/

/-- No error is marked, and no Span link is down for want of lanes (R364). -/
def Sound (s : State) : Prop := s.ue = [] ∧ s.ce = [] ∧ ∀ sp, s.portLost sp = false

/-- The lines of frame `b` that `ln` names hold what frame `a` held, and no other byte differs (R319). -/
def CopiedLines (s t : State) (a b : Nat) (ln : Nat → Bool) : Prop :=
  (∀ o, o < pageSize → SMap.get t.bytes 0 (b * pageSize + o) =
    if ln (o / 64) then SMap.get s.bytes 0 (a * pageSize + o) else SMap.get s.bytes 0 (b * pageSize + o)) ∧
  ∀ x, x / pageSize ≠ b → SMap.get t.bytes 0 x = SMap.get s.bytes 0 x

/-- The page is owned by the partition and homed on the die. -/
def PageHere (s : State) (d p pg : Nat) : Bool :=
  decide ((s.ent pg).owner = p) && decide ((s.ent pg).st ≠ .free) && decide (locDie (s.ent pg).home = d)

/-- Memory but for the tiers is as it was. -/
def MemKept (s t : State) : Prop := t.dir = s.dir ∧ t.bytes = s.bytes ∧ t.frames = s.frames ∧ t.ue = s.ue ∧ t.ce = s.ce

/-- Nothing but memory, its tiers, and the listed CSRs differs. -/
def OnlyMem (s t : State) (l : List Nat) : Prop :=
  CsrsBut s t l ∧ CtxSame s t ∧ StepSame s t ∧ FabricSame s t ∧ ServiceSame s t

/-- Nothing differs but the listed CSRs, the contexts, the corrected marks and the fault records raised. -/
def SameButFaults (s t : State) (l : List Nat) : Prop :=
  CsrsBut s t l ∧ StepSame s t ∧ FabricSame s t ∧ t.dir = s.dir ∧ t.bytes = s.bytes ∧ t.frames = s.frames ∧ t.ue = s.ue ∧
    t.tiers = s.tiers

/-- One fault record has been raised, of a kind with an action. -/
def Raised (s t : State) (kind action : Nat) : Prop :=
  ∃ r, t.fsrPend = s.fsrPend ++ [r] ∧ r.kind = kind ∧ r.action = action ∧ r.time = s.time.ns

/-- A channel map that gives every logical channel a channel of its own (R356). -/
def MapGood (s : State) (n : Nat) : Prop := (s.servingChans n).Nodup ∧ ∀ c ∈ s.servingChans n, c < 136

end Sys2Proof.Claim

/-- R314, R319, R324, R325, R330: at a window end the die asks to move each page of its home cache that the placement rule names,
takes up what waited, and the written mode takes effect; a started move reserves a frame and copies every line to it, or waits for
the next window; the lines written since are copied again before the switch and before the commit, which is one directory write
after which the frame that the page had left is kept until every forward has ended; a frame that a take claimed is released.
Model's choices: log entries 9, 17, 37 and 38. -/
def Obligations.PageMoves : Prop :=
  (∀ (d : Fin 16) (p : Fin 64) s,
    ∃ t, exec (.placementWindowEnd d p) s = .next t ∧
      t.tiers.wbytes = s.tiers.wbytes.filter (fun x => !s.windowOf d p x.1) ∧
      t.tiers.watom = s.tiers.watom.filter (fun pg => !PageHere s d p pg) ∧
      t.tierCfg p = s.rd (R.PART_TIER_CFG p) ∧ (∀ q, q ≠ p.val → t.tierCfg q = s.tierCfg q) ∧
      (∀ q ∈ SMap.get s.tiers.reqs [] (16 + d.val), (s.ent q.page).owner = p →
        q ∈ SMap.get t.tiers.reqs [] d.val ∧ q ∉ SMap.get t.tiers.reqs [] (16 + d.val)) ∧
      (∀ x ∈ s.tiers.wbytes, let pg := x.1 % 2 ^ 26
        fld (s.tierCfg p) 1 0 = 0 → s.windowOf d p x.1 = true → s.inHomeCache d pg = true → (s.ent pg).st = .homed →
        s.placeMove (s.tierCfg p) pg x.2 = true → s.inMove pg = false →
        ⟨pg, (topWriter x.2).1, false⟩ ∈ SMap.get t.tiers.reqs [] (locDie (s.ent pg).home)) ∧
      MemKept s t ∧ OnlyMem s t [R.PART_TIER_HINT_IGN_CNT p]) ∧
  (∀ (d : Fin 16) s q rest, let e := s.ent q.page
    SMap.get s.tiers.reqs [] d.val = q :: rest → s.movesOf d < 16 → q.service = false → e.st = .homed → e.pin = false →
    s.homedAt q.page q.top = false → s.inMove q.page = false → locDie e.home = d.val →
    (∀ f, s.moveDest q.page q.top = some f → locDie f = d.val ∨ q.page ∉ s.tiers.watom → Memory.wf s.bytes = true → Sound s →
      ∃ t, exec (.moveStart d) s = .next t ∧ t.ent q.page = { e with st := .copy, dest := f } ∧
        (∀ g, g ≠ q.page → t.ent g = s.ent g) ∧ CopiedLines s t e.home f (fun _ => true) ∧ t.dirtyLines q.page = [] ∧
        f ∈ t.frames ∧ SMap.get t.tiers.reqs [] d.val = rest ∧ OnlyMem s t (R.PART_TIER_USE e.owner :: spanRegs)) ∧
    (s.moveDest q.page q.top = none →
      ∃ t, exec (.moveStart d) s = .next t ∧ SMap.get t.tiers.reqs [] d.val = rest ∧
        SMap.get t.tiers.reqs [] (16 + d.val) = SMap.get s.tiers.reqs [] (16 + d.val) ++ [q] ∧
        t.rd (R.PART_TIER_DEFER_CNT e.owner) = satAdd64 (s.rd (R.PART_TIER_DEFER_CNT e.owner)) 1 ∧
        MemKept s t ∧ OnlyMem s t [R.PART_TIER_DEFER_CNT e.owner])) ∧
  (∀ pg s, let e := s.ent pg
    e.st = .copy → Memory.wf s.bytes = true → Sound s →
    ∃ t, exec (.moveSwitch pg) s = .next t ∧ t.ent pg = { e with st := .switch } ∧
      (∀ g, g ≠ pg → t.ent g = s.ent g) ∧ CopiedLines s t e.home e.dest (fun i => (s.dirtyLines pg).contains i) ∧
      t.dirtyLines pg = [] ∧ t.frames = s.frames ∧ OnlyMem s t spanRegs) ∧
  (∀ pg s, let e := s.ent pg
    e.st = .switch → e.home ≠ e.dest → Memory.wf s.bytes = true → Sound s →
    ∃ t, exec (.moveCommit pg) s = .next t ∧
      t.ent pg = { e with st := .homed, home := e.dest, dest := 0, gen := (e.gen + 1) % 65536 } ∧
      (∀ g, g ≠ pg → t.ent g = s.ent g) ∧
      CopiedLines s t e.home e.dest (fun i => (s.dirtyLines pg).contains i) ∧
      ((∀ o, o < pageSize → o / 64 ∉ s.dirtyLines pg →
          SMap.get s.bytes 0 (e.dest * pageSize + o) = SMap.get s.bytes 0 (e.home * pageSize + o)) →
        ∀ a, a / pageSize = pg → t.byteAt a = s.byteAt a) ∧ t.frames = s.frames ∧
      (∀ d, d < 16 → pg ∉ SMap.get t.tiers.hcache [] (d * 1024 + pg % 1024)) ∧
      t.tiers.fwds = s.tiers.fwds ++ [⟨pg, e.home, e.owner, (SMap.get s.tiers.moves ⟨0, []⟩ pg).die⟩] ∧
      t.rd (R.PART_TIER_MOVE_CNT e.owner) = satAdd64 (s.rd (R.PART_TIER_MOVE_CNT e.owner)) 1 ∧
      OnlyMem s t (R.PART_TIER_MOVE_CNT e.owner :: spanRegs)) ∧
  (∀ pg s f, s.tiers.fwds.find? (fun f => f.page = pg) = some f →
    ∃ t, exec (.moveDone pg) s = .next t ∧ t.frames = s.frames.filter (· != f.frame) ∧ t.dir = s.dir ∧ t.bytes = s.bytes ∧
      t.tiers = { s.tiers with fwds := s.tiers.fwds.erase f } ∧ OnlyMem s t [R.PART_TIER_USE f.part]) ∧
  (∀ fr s f, s.tiers.claims.find? (fun f => f.frame = fr) = some f →
    ∃ t, exec (.takeFrameRelease fr) s = .next t ∧ fr ∉ t.frames ∧ t.dir = s.dir ∧ t.bytes = s.bytes ∧
      t.tiers = { s.tiers with claims := s.tiers.claims.erase f } ∧ OnlyMem s t [R.PART_TIER_USE f.part])

/-- R337, R340, R346, R348-R352: the tester takes a row, or starts a requested full pass from the first, and saves it, counting its
words with errors and recording those that cannot be corrected; a row that
passes goes on to the next; a failing row goes to the lowest free spare of its bank, raising a wear record, or raises a record of a
row without a spare, and a spare that served it is bad; a failing spare is bad; escalations and port B collisions count.
Model's choices: log entries 33 and 73. -/
def Obligations.SramTester : Prop :=
  (∀ k s, let ctl := R.CELL_BIST_CTL k
    let w := (s.cell k).tester
    w.busy = false → s.rdF ctl F.CELL_BIST_CTL_EN = 1 → s.pwr.ok = true →
    let w' : Tester := if s.rdF ctl F.CELL_BIST_CTL_FULL = 1 ∧ w.full = false then ⟨true, 0, 0, true, true, 0xFF⟩
      else { w with busy := true, valid := if w.row < 256 then 0xFF else 0 }
    (∀ x ∈ s.ce, keyInRow k w'.bank w'.row x.1 = false) → (∀ x ∈ s.ue, keyInRow k w'.bank w'.row x = false) →
    ∃ t, exec (.bistRowStart k) s = .next t ∧ t.cell k = { s.cell k with tester := w' } ∧
      CsrsBut s t [R.CELL_BIST_STAT k] ∧ CtxsBut s t (.cell k) ∧ OnlyRegs s t) ∧
  (∀ k s, let ctl := R.CELL_BIST_CTL k
    let w := (s.cell k).tester
    w.busy = false → s.rdF ctl F.CELL_BIST_CTL_EN = 1 → s.pwr.ok = true → w.row < 256 →
    s.rdF ctl F.CELL_BIST_CTL_FULL = 0 ∨ w.full = true →
    ∃ t, exec (.bistRowStart k) s = .next t ∧ (t.cell k).tester = { w with busy := true, valid := 0xFF } ∧
      t.rd (R.CELL_ECC_CE_CNT k) = satAdd64 (s.rd (R.CELL_ECC_CE_CNT k)) (s.ce.filter fun x => keyInRow k w.bank w.row x.1).length ∧
      t.rd (R.CELL_ECC_UE_CNT k) = satAdd64 (s.rd (R.CELL_ECC_UE_CNT k)) (s.ue.filter (keyInRow k w.bank w.row)).length ∧
      t.fsrPend.length = s.fsrPend.length + (s.ue.filter (keyInRow k w.bank w.row)).length ∧
      t.ce = (s.ce.filter fun x => !keyInRow k w.bank w.row x.1) ∧ t.ue = s.ue ∧ t.bytes = s.bytes ∧ t.dir = s.dir ∧
      t.frames = s.frames ∧ t.tiers = s.tiers) ∧
  (∀ k s, let w := (s.cell k).tester
    w.busy = true →
    ((∃ t, exec (.bistRowDone k false) s = .next t ∧ (t.cell k).tester.busy = false ∧
        (∀ b r, s.testNext k w.bank w.row = some (b, r) → (t.cell k).tester = ⟨false, b, r, w.full, w.ok, 0⟩) ∧
        (s.testNext k w.bank w.row = none → (t.cell k).tester = Tester.reset ∧
          (w.full = true → t.rdF (R.CELL_BIST_STAT k) F.CELL_BIST_STAT_FULL_OK = bnat w.ok ∧
            t.rdF (R.CELL_BIST_CTL k) F.CELL_BIST_CTL_FULL = 0)) ∧
        t.fsrPend = s.fsrPend ∧ SameButFaults s t [R.CELL_BIST_STAT k, R.CELL_BIST_CTL k]) ∧
      (w.row < 256 → w.bank < 48 →
        (∀ r, r < 8 → s.spareSt k w.bank r = 1 ∨ s.spareSt k w.bank r = 2 → s.spareRow k w.bank r = w.row →
          s.replacing k w.bank w.row = some r) →
        ∃ t, exec (.bistRowDone k true) s = .next t ∧ (t.cell k).tester.busy = false ∧
          (∀ r, s.replacing k w.bank w.row = some r → t.spareSt k w.bank r = 3) ∧
          t.rd (R.CELL_BIST_FAIL_CNT k) = satAdd64 (s.rd (R.CELL_BIST_FAIL_CNT k)) 1 ∧
          SameButFaults s t [R.CELL_BIST_STAT k, R.CELL_BIST_CTL k, R.CELL_BIST_FAIL_CNT k, R.CELL_SRAM_RPR_CNT k,
            R.CELL_SRAM_RPRb_A k w.bank, R.CELL_SRAM_RPRb_B k w.bank] ∧
          match s.freeSpare k w.bank with
          | some r => t.replacing k w.bank w.row = some r ∧ t.spareSt k w.bank r = 2 ∧ Raised s t 2 5 ∧
              t.rd (R.CELL_SRAM_RPR_CNT k) = satAdd64 (s.rd (R.CELL_SRAM_RPR_CNT k)) 1
          | none => Raised s t 3 4 ∧ t.rd (R.CELL_SRAM_RPR_CNT k) = s.rd (R.CELL_SRAM_RPR_CNT k)))) ∧
  (∀ k s, let w := (s.cell k).tester
    w.busy = true → 256 ≤ w.row → w.row < 264 → w.bank < 48 →
    ∃ t, exec (.bistRowDone k true) s = .next t ∧ t.spareSt k w.bank (w.row - 256) = 3 ∧ t.fsrPend = s.fsrPend ∧
      t.rd (R.CELL_BIST_FAIL_CNT k) = satAdd64 (s.rd (R.CELL_BIST_FAIL_CNT k)) 1) ∧
  (∀ k s, (s.cell k).tester.busy = true → ∃ t, exec (.bistEscalate k) s = .next t ∧
    t.rd (R.CELL_SRAM_ESC_CNT k) = satAdd64 (s.rd (R.CELL_SRAM_ESC_CNT k)) 1 ∧ OnlyCsrs s t [R.CELL_SRAM_ESC_CNT k]) ∧
  (∀ k (m : Fin 8) s, m.val < 7 → ∃ t, exec (.arbEscalate k m) s = .next t ∧
    t.rd (R.CELL_SRAM_ESC_CNT k) = satAdd64 (s.rd (R.CELL_SRAM_ESC_CNT k)) 1 ∧ OnlyCsrs s t [R.CELL_SRAM_ESC_CNT k]) ∧
  (∀ k w a b s, dualPort w = true → ∃ t, exec (.portBCollide k w a b) s = .next t ∧
    (∀ i, i < 8 → SMap.get t.bytes 0 (8 * cellWordKey k w + i) = BitVec.ofNat 8 (b.toNat / 2 ^ (8 * i))) ∧
    (∀ x, x / 8 ≠ cellWordKey k w → SMap.get t.bytes 0 x = SMap.get s.bytes 0 x) ∧
    cellWordKey k w ∉ t.ue ∧ t.dir = s.dir ∧ t.frames = s.frames ∧
    t.rd (R.CELL_SRAM_COLLIDE_CNT k) = satAdd64 (s.rd (R.CELL_SRAM_COLLIDE_CNT k)) 1 ∧
    OnlyMem s t [R.CELL_SRAM_COLLIDE_CNT k]) ∧
  (∀ k s, s.mgmtUp = true → ∃ t, exec (.bistFull .mgmt k) s = .next t ∧ t.rdF (R.CELL_BIST_CTL k) F.CELL_BIST_CTL_FULL = 1 ∧
    OnlyCsrs s t [R.CELL_BIST_CTL k]) ∧
  (∀ k w s, ∃ t, exec (.eccWriteback k w) s = .next t ∧ t.ce = s.ce.filter (fun x => x.1 != cellWordKey k w) ∧
    t.bytes = s.bytes ∧ t.ue = s.ue ∧ t.dir = s.dir ∧ t.frames = s.frames ∧ OnlyMem s t [])

/-- R354-R357: the scrub counts a corrected line in its channel and makes it good, and marks and reports one that cannot be
corrected, whether it finds the error or the line was known to hold it; a remap copies onto the lowest free spare, and its switch gives the logical channel that spare, retires the channel it
leaves, counts, extends measurement 4 and raises a record; without a spare, or on an abort, it ends aborted with why.
Model's choices: log entries 19 and 34. -/
def Obligations.StackRepair : Prop :=
  (∀ (n : Fin 32) line s, let key := stackLineKey n line
    (∀ k ∈ s.ue, markKey k ≠ key) → (∀ x ∈ s.ce, markKey x.1 ≠ key) → exec (.stkScrub n line .clean) s = .next s) ∧
  (∀ (n : Fin 32) line f s, let key := stackLineKey n line
    let ch := s.physChan n (chanOf (locStack n (line / 1024)) (line % 1024 * 64))
    ((∀ k ∈ s.ue, markKey k ≠ key) → f = .onePin ∨ (f = .clean ∧ ∃ x ∈ s.ce, markKey x.1 = key) →
      ∃ t, exec (.stkScrub n line f) s = .next t ∧
      t.rd (R.STK_ECC_CE_CNT n) = satAdd64 (s.rd (R.STK_ECC_CE_CNT n)) 1 ∧
      t.rd (R.STK_CH_CE_CNTc n ch) = satAdd64 (s.rd (R.STK_CH_CE_CNTc n ch)) 1 ∧
      t.ce = s.ce.filter (fun x => markKey x.1 != key) ∧ t.ue = s.ue ∧ t.bytes = s.bytes ∧ t.dir = s.dir ∧
      CsrsBut s t [R.STK_ECC_CE_CNT n, R.STK_CH_CE_CNTc n ch] ∧ CtxSame s t) ∧
    (f = .uncorrectable ∨ (∃ k ∈ s.ue, markKey k = key) →
      ∃ t, exec (.stkScrub n line f) s = .next t ∧
      t.rd (R.STK_ECC_UE_CNT n) = satAdd64 (s.rd (R.STK_ECC_UE_CNT n)) 1 ∧ key ∈ t.ue ∧
      (∀ k, k ≠ key → (k ∈ t.ue ↔ k ∈ s.ue)) ∧ Raised s t 5 1 ∧ t.bytes = s.bytes ∧ t.dir = s.dir ∧
      CsrsBut s t [R.STK_ECC_UE_CNT n] ∧ CtxSame s t)) ∧
  (∀ (n : Fin 32) (log : Fin 128) s, s.mgmtUp = true → s.remapSt n ≠ remapCopying →
    ∃ t, exec (.stkRemapGo .mgmt n log) s = .next t ∧ t.rdF (R.STK_REMAP_CTL n) F.STK_REMAP_CTL_LOG = log.val ∧
      OnlyCsrs s t [R.STK_REMAP_CTL n, R.STK_SPARE n] ∧
      match s.spareIn n 0 with
      | some r => t.remapSt n = remapCopying ∧ t.chanSt n r = 2 ∧ ∀ x, x < 8 → x ≠ r → t.chanSt n x = s.chanSt n x
      | none => t.remapSt n = remapAborted ∧ t.rdF (R.STK_REMAP_CTL n) F.STK_REMAP_CTL_WHY = 1) ∧
  (∀ (n : Fin 32) s r, let log := s.rdF (R.STK_REMAP_CTL n) F.STK_REMAP_CTL_LOG
    s.remapSt n = remapCopying → s.spareIn n 2 = some r → MapGood s n →
    ∃ t, exec (.stkRemapSwitch n) s = .next t ∧ some (t.physChan n log) = (s.spareChans n)[r]? ∧
      (∀ l, l < 128 → l ≠ log → t.physChan n l = s.physChan n l) ∧
      (∃ x, (t.spareChans n)[x]? = some (s.physChan n log) ∧ t.chanSt n x = 1) ∧ t.remapSt n = remapDone ∧
      t.rd (R.STK_REMAP_CNT n) = satAdd64 (s.rd (R.STK_REMAP_CNT n)) 1 ∧
      SMap.get t.lode.meas [] 4 = SMap.get s.lode.meas [] 4 ++ [.remap n log] ∧ Raised s t 6 6 ∧ MemSame s t ∧ CtxSame s t) ∧
  (∀ (n : Fin 32) b s r, s.remapSt n = remapCopying → s.spareIn n 2 = some r →
    ∃ t, exec (.stkRemapAbort n b) s = .next t ∧ t.remapSt n = remapAborted ∧
      t.rdF (R.STK_REMAP_CTL n) F.STK_REMAP_CTL_WHY = (if b then 3 else 2) ∧ t.chanSt n r = (if b then 0 else 3) ∧
      OnlyCsrs s t [R.STK_REMAP_CTL n, R.STK_SPARE n])

namespace Sys2Proof.Claim

/-! Span links and Ethernet ports. -/

/-- Nothing differs but port `sp` of the Span links and the listed CSRs. -/
def OnlySpan (s t : State) (sp : SpanPort) (l : List Nat) : Prop :=
  CsrsBut s t l ∧ CtxSame s t ∧ MemSame s t ∧ StepSame s t ∧ ServiceSame s t ∧ t.net = s.net ∧ t.ptp = s.ptp ∧ t.time = s.time ∧
    ∀ q, q ≠ sp → t.spn q = s.spn q

/-- A flit that a port takes: its link is up, its CRC holds, and it has the type. -/
def Takes (s : State) (sp : SpanPort) (f : Flit) (ty : Nat) : Prop :=
  s.linkSt sp = linkUp ∧ flitGood f = true ∧ flitType f = ty

/-- The commands that a flit may be received by. -/
def flitCmds : List (SpanPort → Flit → Instr) := [.spanFlitReceive, .spanCreditReturn, .spanNakReceive, .spanSyncReceive]

/-- Nothing differs but the network and the listed CSRs. -/
def OnlyNet (s t : State) (l : List Nat) : Prop :=
  CsrsBut s t l ∧ CtxSame s t ∧ MemSame s t ∧ StepSame s t ∧ ServiceSame s t ∧ t.ptp = s.ptp ∧ t.time = s.time ∧ t.span = s.span

/-- The counter of the frames that a sub-port has sent (R387). -/
def txReg (u : SubPort) : Nat := R.HZN_ETH_TX_CNTqk u.h.val u.q.val u.k.val

/-- A list of frames has joined the queue of sub-port `u`, in order. -/
def Sends (s t : State) (u : SubPort) (l : List Frame) : Prop :=
  t.net.wait = s.net.wait ++ l.map fun f => ⟨u, 0, none, f⟩

/-- A frame has been taken by sub-port `u` and answered with `f`. -/
def Answered (s t : State) (u : SubPort) (f : Frame) : Prop :=
  Sends s t u [f] ∧ t.net = { s.net with wait := t.net.wait } ∧ t.rd (rxReg u) = satAdd64 (s.rd (rxReg u)) 1 ∧ OnlyNet s t [rxReg u]

/-- The queues have lost the frames of the sub-ports that `p` names, and the addresses asked for on them are asked for again. -/
def Flushed (s t : State) (p : SubPort → Bool) : Prop :=
  t.net = { s.net with wait := s.net.wait.filter fun q => !p q.sub, asked := s.net.asked.filter fun a => !p a.1 }

/-- The cause is one for which the module discards the frame and counts it; a frame with FEC errors adds to FECU too. -/
def Discards (s : State) (u : SubPort) : DropCause → Prop
  | .badIcrc => False
  | .vlanId v => s.vlanOk u v = false
  | .udpPort n => s.listens n = false
  | .fecError _ => False
  | _ => True

end Sys2Proof.Claim

/-- R360-R362, R364: a good data flit in sequence enters the receive buffer, another does not; a bad one is answered with a NAK
that names the SEQ expected; credits return, never beyond the peer's buffer; a NAK and a sync have the replay buffer sent again
from what they name, and the sixteenth NAK within 1 µs has the port train; a port that trains counts and keeps its buffers, and
comes up with at least 32 lanes a direction, when it sends a sync flit and sends no new flit before one has come.
Model's choices: log entries 35, 36 and 37. -/
def Obligations.SpanLinks : Prop :=
  (∀ c ∈ flitCmds, ∀ sp f s, s.linkSt sp = linkUp → flitGood f = false →
    ∃ t, exec (c sp f) s = .next t ∧ t.rd (spanCrcCnt sp) = satAdd64 (s.rd (spanCrcCnt sp)) 1 ∧
      t.spn sp = { s.spn sp with out := (s.spn sp).out ++
        [.nak (s.spn sp).rxSeq (ctlFlit sp 2 (s.spn sp).txSeq (s.spn sp).rxSeq)] } ∧ OnlySpan s t sp [spanCrcCnt sp]) ∧
  (∀ sp f s, let x := s.spn sp
    Takes s sp f 0 →
    ∃ t, exec (.spanFlitReceive sp f) s = .next t ∧ OnlySpan s t sp [] ∧
      t.spn sp = if flitSeq f = x.rxSeq ∧ vcCount x.buf (flitVc f) < vcSize (flitVc f) then
          { x with rxSeq := (x.rxSeq + 1) % 4096, buf := x.buf ++ [f] }
        else x) ∧
  (∀ sp f s, let x := s.spn sp
    Takes s sp f 1 →
    ∃ t, exec (.spanCreditReturn sp f) s = .next t ∧ OnlySpan s t sp [spanStat sp] ∧
      t.spn sp = { x with replay := x.replay.drop (Config.creditAck f) } ∧
      ∀ vc, vc < 4 → t.credit sp vc = min (vcSize vc) (s.credit sp vc + Config.creditCount f vc)) ∧
  (∀ sp f s, let x := s.spn sp
    let l := replayFrom x (flitInfo f % 4096)
    let naks := s.time.ns.toNat :: x.naks.filter fun n => decide (s.time.ns.toNat < n + 1000)
    Takes s sp f 2 →
    (naks.length < 16 →
      ∃ t, exec (.spanNakReceive sp f) s = .next t ∧ OnlySpan s t sp [spanReplayCnt sp] ∧
        t.spn sp = { x with replay := l, naks := naks, out := x.out ++ l.map .data } ∧
        t.rd (spanReplayCnt sp) = satAdd64 (s.rd (spanReplayCnt sp)) l.length) ∧
    (16 ≤ naks.length →
      ∃ t, exec (.spanNakReceive sp f) s = .next t ∧ t.linkSt sp = linkTraining ∧
        t.rd (spanRetrainCnt sp) = satAdd64 (s.rd (spanRetrainCnt sp)) 1 ∧
        t.spn sp = { x with replay := l, naks := [] } ∧ OnlySpan s t sp [spanStat sp, spanRetrainCnt sp])) ∧
  (∀ sp f s, let x := s.spn sp
    let l := replayFrom x ((Config.syncAck f + 1) % 4096)
    Takes s sp f 3 →
    ∃ t, exec (.spanSyncReceive sp f) s = .next t ∧ OnlySpan s t sp [spanStat sp, spanReplayCnt sp] ∧
      t.spn sp = { x with replay := l, wait := false, out := x.out ++ l.map .data } ∧
      ∀ vc, vc < 4 → t.credit sp vc = min (vcSize vc) (Config.syncFree f vc) - vcCount l vc) ∧
  (∀ sp bt br s,
    ∃ t, exec (.spanRetrain sp bt br) s = .next t ∧ t.linkSt sp = linkTraining ∧
      t.rd (spanRetrainCnt sp) = satAdd64 (s.rd (spanRetrainCnt sp)) 1 ∧ (∀ vc, vc < 4 → t.credit sp vc = s.credit sp vc) ∧
      t.spn sp = { s.spn sp with tx := (t.spn sp).tx, rx := (t.spn sp).rx } ∧
      (∀ l ∈ bt, l.val ∈ (t.spn sp).tx.bad) ∧ (∀ l ∈ br, l.val ∈ (t.spn sp).rx.bad) ∧
      CsrsBut s t [spanStat sp, spanRetrainCnt sp, spanLaneCnt sp] ∧ CtxSame s t ∧ MemSame s t) ∧
  (∀ sp s, let x := s.spn sp
    let ack := (x.rxSeq + 4095) % 4096
    let free := (List.range 4).map fun vc => vcSize vc - vcCount x.buf vc
    s.linkSt sp = linkTraining → 32 ≤ s.lanesUp sp true → 32 ≤ s.lanesUp sp false →
    ∃ t, exec (.spanLinkTrained sp) s = .next t ∧ t.linkSt sp = linkUp ∧
      t.rdF (spanStat sp) F.DIE_SPAN_STATp_DEGR = bnat (decide (min (s.lanesUp sp true) (s.lanesUp sp false) < 64)) ∧
      t.spn sp = { x with wait := true, out := x.out ++
        [.sync ack free (ctlFlit sp 3 x.txSeq (Config.syncInfo ack free).toNat)] } ∧
      CsrsBut s t [spanStat sp] ∧ CtxSame s t ∧ MemSame s t) ∧
  (∀ sp s, let x := s.spn sp
    s.linkSt sp = linkTraining → s.lanesUp sp true < 32 ∨ s.lanesUp sp false < 32 →
    ∃ t, exec (.spanLinkTrained sp) s = .next t ∧ t.linkSt sp = linkDown ∧ Raised s t 8 1 ∧
      t.spn sp = { x with replay := [], detour := x.detour ++ x.replay, wait := false } ∧ CsrsBut s t [spanStat sp] ∧ CtxSame s t ∧ MemSame s t)

/-- R366-R369, R371, R385: an enabled sub-port that its mode has comes up; a sub-port that resets goes down and drops what was
staged from it; a write of the port's configuration resets it where the mode or medium changes or it is disabled; a request for
an address of the sub-port is answered, the answer joining the sub-port's queue; a peer address is held, and expires after 60 s;
discarded and bad frames count.
Model's choices: log entries 10, 40, 64, 66 and 77. -/
def Obligations.EthernetPorts : Prop :=
  (∀ u s, s.subEnabled u = true → phCells ≤ s.phase → s.phase ≤ phReady →
    ∃ t, exec (.linkUp u) s = .next t ∧ (t.rdF (ethStat u) F.HZN_ETH_STATq_UP).testBit u.k.val = true ∧
      (∀ j, j < 4 → j ≠ u.k.val →
        (t.rdF (ethStat u) F.HZN_ETH_STATq_UP).testBit j = (s.rdF (ethStat u) F.HZN_ETH_STATq_UP).testBit j) ∧
      OnlyCsrs s t [ethStat u]) ∧
  (∀ u s, s.net.stage = [] → (∀ q ∈ s.net.wait, q.sub = u → q.own = none) →
    ∃ t, exec (.subportReset u) s = .next t ∧ (t.rdF (ethStat u) F.HZN_ETH_STATq_UP).testBit u.k.val = false ∧
      (t.rdF (ethStat u) F.HZN_ETH_STATq_FLUSH).testBit u.k.val = false ∧ Flushed s t (fun v => decide (v = u)) ∧
      OnlyNet s t [ethStat u]) ∧
  (∀ (h : Fin 4) (q : Fin 8) v s, let a := R.HZN_ETH_CFGq h.val q.val
    s.mgmtUp = true → Writable a v → fld v 5 4 ≠ 3 → fld v 3 2 ≠ 3 → s.net.stage = [] → (∀ x ∈ s.net.wait, x.own = none) →
    ∃ t, exec (.ethCfgWrite .mgmt h q v) s = .next t ∧ t.rd a = putVal a (s.rd a) v ∧
      (if fld v 5 4 = fld (s.rd a) 5 4 ∧ fld v 3 2 = fld (s.rd a) 3 2 ∧ flag v 0 = true then OnlyCsrs s t [a]
      else t.rdF (R.HZN_ETH_STATq h.val q.val) F.HZN_ETH_STATq_UP = 0 ∧ Flushed s t (fun v => decide (v.h = h ∧ v.q = q)) ∧
        OnlyNet s t [a, R.HZN_ETH_STATq h.val q.val])) ∧
  (∀ u ip from' mac s, s.linkIs u = true → ip.v6 = false → s.ownIp u ip = true →
    ∃ t, exec (.arpRequest u ip from' mac) s = .next t ∧ Answered s t u (.arp mac from' ip)) ∧
  (∀ u ip from' mac s, s.linkIs u = true → ip.v6 = true → s.ownIp u ip = true →
    ∃ t, exec (.neighbourSolicitation u ip from' mac) s = .next t ∧ Answered s t u (.neighbour mac from' ip)) ∧
  (∀ u dst src data s, s.linkIs u = true → s.ownIp u dst = true →
    ∃ t, exec (.echoRequest u dst src data) s = .next t ∧ Answered s t u (.echo src dst data)) ∧
  (∀ u ip mac s, s.linkIs u = true →
    ∃ t, exec (.peerMacResolved u ip mac) s = .next t ∧ ⟨u, ip, mac, s.time.ns.toNat⟩ ∈ t.net.macs ∧
      (∀ m ∈ t.net.macs, m.sub = u → m.ip = ip → m.mac = mac) ∧
      t.net = { s.net with macs := t.net.macs, asked := s.net.asked.filter (· != (u, ip)) } ∧
      OnlyNet s t [rxReg u]) ∧
  (∀ u ip s,
    ∃ t, exec (.peerMacExpire u ip) s = .next t ∧ t.net = { s.net with macs := t.net.macs } ∧ OnlyNet s t [] ∧
      ∀ m, m ∈ t.net.macs ↔ m ∈ s.net.macs ∧ ¬ (m.sub = u ∧ m.ip = ip ∧ m.time + 60000000000 ≤ s.time.ns.toNat)) ∧
  (∀ u why s, s.linkIs u = true → Discards s u why →
    ∃ t, exec (.ethFrameDrop u why) s = .next t ∧ t.rd (dropReg u) = satAdd64 (s.rd (dropReg u)) 1 ∧
      OnlyCsrs s t [dropReg u]) ∧
  (∀ u n s, s.linkIs u = true →
    ∃ t, exec (.ethFrameDrop u (.fecError n)) s = .next t ∧ t.rd (dropReg u) = satAdd64 (s.rd (dropReg u)) 1 ∧
      t.rdF (ethStat u) F.HZN_ETH_STATq_FECU = min (s.rdF (ethStat u) F.HZN_ETH_STATq_FECU + n) 255 ∧
      OnlyCsrs s t [ethStat u, dropReg u]) ∧
  (∀ u n bs s, let a := R.HZN_ASTP_BAD_CNTqk u.h.val u.q.val u.k.val
    s.linkIs u = true → astpGood n bs = false →
    ∃ t, exec (.astpFrameBad u n bs) s = .next t ∧
      if s.ready then t.rd a = satAdd64 (s.rd a) 1 ∧ OnlyCsrs s t [a]
      else t.rd (dropReg u) = satAdd64 (s.rd (dropReg u)) 1 ∧ OnlyCsrs s t [dropReg u])

namespace Sys2Proof.Claim

/-! ASTP, RoCEv2 and PTP. -/

/-- A frame reaches the sessions of a READY module. -/
def Reaches (s : State) (h : AstpHdr) : Prop := s.linkIs h.sub = true ∧ s.phase = 9

/-- Session `x` is the one that a frame names, from its own endpoint. -/
def NamesSession (s : State) (h : AstpHdr) (x : Session) : Prop :=
  Reaches s h ∧ s.session h.session = some x ∧ x.ip = h.src ∧ x.port = h.srcPort

/-- Session `x` is the one that a request names, from its own endpoint and partition; the request is the next in order, and
nothing of the session is outstanding. -/
def InSession (s : State) (h : AstpHdr) (x : Session) : Prop :=
  NamesSession s h x ∧ h.seq % 2 ^ 32 = (x.ack + 1) % 2 ^ 32 ∧ x.part = h.part ∧
    x.closing = false ∧ x.queue = [] ∧ x.bind = none ∧ x.later = []

/-- The session once it has taken in a request's frames: it acknowledges them, and takes the header's word for the rest (R373);
numbers are modulo 2³² on the wire (R371). -/
def heardSession (s : State) (h : AstpHdr) (x : Session) : Session :=
  let ack := unwrap x.acked h.ackSeq
  { x with
    acked := if x.acked < ack ∧ ack < x.next then ack else x.acked
    credit := max x.credit (unwrap x.credit h.limit)
    sub := h.sub
    heard := s.time.ns.toNat }
def takenSession (s : State) (h : AstpHdr) (x : Session) : Session :=
  { heardSession s h x with
    ack := x.ack + max h.frames 1
    limit := max x.limit (x.ack + max h.frames 1 + s.astpWin) }

/-- The state in which a request is performed. -/
def enter (s : State) (h : AstpHdr) (x : Session) : State :=
  (s.received h.sub (max h.frames 1)).setSession h.session (some (takenSession s h x))

/-- The request leaves `t'` and is answered with `r`. -/
def Responded (o : Host.Outcome State Fault Refusal) (h : AstpHdr) (t' : State) (r : Resp) : Prop :=
  o = .next (t'.reply h.session h.seq h.msgid r)

/-- Requests, with their payload lengths (R375), that wait for no page but page 0. -/
def astpCmds : List ((AstpHdr → Instr) × Nat) :=
  [(fun h => .astpCsrRd h 0 1, 8), (fun h => .astpCsrWr h 0 [0], 16), (fun h => .astpWrite h 0 [0], 17),
    (fun h => .astpPeek h 0 1, 16), (fun h => .astpLaunch h ⟨0, 1, 0, 0, 0⟩, 32), (fun h => .astpBind h 0 [], 8),
    (fun h => .astpClose h, 0)]

/-- The counters of the home caches. -/
def hcRegs : List Nat := (List.range 16).flatMap fun d => [R.DIE_HC_HIT_CNT d, R.DIE_HC_MISS_CNT d]

/-- A RoCEv2 request of queue pair `i` reaches the responder (R379). -/
def RoceReaches (s : State) (u : SubPort) (i : Nat) : Prop :=
  s.linkIs u = true ∧ s.phase = 9 ∧ s.rdF (cfgOf u) F.HZN_ETH_CFGq_ROCE = 1 ∧ s.rdF (qpAddr i 0) F.PANEL_QPi_W0_STATE = 1

/-- A NAK of syndrome `y` for PSN `n` leaves, and memory is as it was. -/
def Nakked (s t : State) (u : SubPort) (i n y : Nat) : Prop :=
  Sends s t u [.roceNak (s.qpIp i) (s.dqpn i) n y] ∧ t.net = { s.net with wait := t.net.wait } ∧
    t.rd R.PANEL_ROCE_NAK_CNT = satAdd64 (s.rd R.PANEL_ROCE_NAK_CNT) 1 ∧ OnlyNet s t [R.PANEL_ROCE_NAK_CNT, rxReg u]

/-- Acknowledgements of `k` packets from PSN `n` leave: of every sixteenth packet and of the last (R384). -/
def Acked (s t : State) (u : SubPort) (i n k : Nat) : Prop :=
  Sends s t u (((List.range (k / 16)).map (fun j => n + 16 * (j + 1) - 1) ++ if k % 16 = 0 then [] else [n + k - 1]).map
      fun m => .roceAck (s.qpIp i) (s.dqpn i) (m % 2 ^ 24)) ∧
    t.net = { s.net with wait := t.net.wait } ∧ t.ptp = s.ptp ∧ t.time = s.time ∧ t.span = s.span

/-- No request of queue pair `i` waits, and no page is in SWITCH (R320). -/
def QpFree (s : State) (i : Nat) : Prop := (∀ x ∈ s.net.later, roceQp x ≠ some i) ∧ ∀ pg, (s.ent pg).st ≠ .switch

/-- The requests of queue pair `q` with the bytes that each reaches. -/
def roceCmds (s : State) (u : SubPort) (q : Fin 1024) (psn : Nat) (key : BitVec 32) (a : W64) (n : Nat) (bs : List Byte)
    (imm : Option (BitVec 32)) : List (Instr × Run) :=
  [(.roceRead u q psn key a n, (a.toNat, n)), (.roceWrite u q psn key a bs imm, (a.toNat, bs.length)),
    (.roceSend u q psn bs imm, s.ringSpan q.val (packets (s.qpMtu q.val) bs.length))]

/-- Every page of a byte range is in the partition's rights and has a home. -/
def HomedRange (s : State) (p a n : Nat) : Prop :=
  ∀ pg ∈ runPages (a, n), s.pageOk p pg = true ∧ s.isFree pg = false

/-- A host request stores the bytes of a range at their homes and nothing else of memory changes but the tiers. -/
def HostStored (s t : State) (l : List (Nat × Byte)) : Prop :=
  t.bytes = stores s l ∧ t.dir = s.dir ∧ t.frames = s.frames ∧ t.ue = s.ue ∧ t.ce = s.ce ∧ CtxSame s t ∧ StepSame s t ∧
    ServiceSame s t

/-- The clock's registers. -/
def merRegs : List Nat := [R.PANEL_MER_STAT, R.PANEL_MER_GM, R.PANEL_MER_UNLOCK_CNT, R.PANEL_MER_STEP_CNT]

/-- Nothing but the clock and the fault records raised differs. -/
def OnlyClock (s t : State) : Prop :=
  CsrsBut s t merRegs ∧ CtxSame s t ∧ MemSame s t ∧ StepSame s t ∧ t.net = s.net ∧ t.span = s.span

/-- The clock has left LOCKED or HOLDOVER for a state without lock (R393). -/
def Unlocked (s t : State) (k : Nat) : Prop :=
  t.merState = k ∧ Raised s t 0x0A 1 ∧ t.rd R.PANEL_MER_UNLOCK_CNT = satAdd64 (s.rd R.PANEL_MER_UNLOCK_CNT) 1

/-- A Sync from the selected source of the module's domain and transport, at an interval that the module takes. -/
def SyncMine (s : State) (u : SubPort) (d : Byte) (tr : Fin 4) (log : Int) : Prop :=
  (∃ a, s.ptp.source = some a ∧ a.sub = u) ∧ s.ptpPort u = true ∧ s.ptpMine d tr = true ∧ -7 ≤ log ∧ log ≤ 0

end Sys2Proof.Claim

/-- R369-R375: OPEN starts a session for a host of its partition; a frame of no session is answered so; an ACK brings the
session's word; CLOSE closes it; a time-out sends a frame again, at most 16 times, and closes a silent session. A RESP is kept,
and goes out in frames as far as the host's LIMIT permits; a request for another partition is answered RIGHTS with no effect. -/
def Sys2Proof.Claim.AstpSessions : Prop :=
  (∀ s n x seq m r, s.session n = some x → x.queue = [] →
    let fs := respFrames x.next m r
    let t := s.reply n seq m r
    let kept := x.kept ++ [⟨seq, fs⟩]
    t.session n = some { x with
        next := x.next + fs.length, kept := kept.drop (kept.length - 64)
        queue := fs.map fun f => if f.seq ≤ x.credit then { f with tries := some 0, at_ := s.time.ns.toNat } else f } ∧
      Sends s t x.sub ((fs.filter fun f => decide (f.seq ≤ x.credit)).map
        (fun f => .resp x.ip x.port n x.part.val f x.ack x.limit)) ∧
      (∀ k, k ≠ n → t.session k = s.session k) ∧ OnlyNet s t []) ∧
  (∀ h s, Reaches s h → s.session h.session = none → 0 < h.session → h.session ≤ 65535 → s.net.sess.length < 256 → h.seq = 1 →
    hdrLenOk h 0 = true → (∃ k, k < 4 ∧ s.hostMatch h.part k h.src = true) →
    let e := s.received h.sub (max h.frames 1)
    Responded (exec (.astpOpen h) s) h (e.setSession h.session (some (e.newSession h))) (.bare 0)) ∧
  (∀ h s, Reaches s h → s.session h.session = none →
    (∀ b, ∃ t, exec (.astpNoSession ⟨h, b⟩) s = .next t ∧
      Sends s t h.sub (if b then [] else
        List.replicate (max h.frames 1) (.noSession h.src h.srcPort h.session h.part.val h.msgid 10)) ∧
      t.net.sess = s.net.sess ∧ OnlyNet s t [rxReg h.sub]) ∧
    (∀ c ∈ astpCmds, ∃ t, exec (c.1 h) s = .next t ∧
      Sends s t h.sub (List.replicate (max h.frames 1) (.noSession h.src h.srcPort h.session h.part.val h.msgid 10)) ∧
      t.net.sess = s.net.sess ∧ OnlyNet s t [rxReg h.sub])) ∧
  (∀ h s x, NamesSession s h x → x.part = h.part → x.closing = false → x.queue = [] →
    ∃ t, exec (.astpAck h) s = .next t ∧ t.session h.session = some (heardSession s h x) ∧
      (∀ k, k ≠ h.session → t.session k = s.session k) ∧ Sends s t h.sub [] ∧ OnlyNet s t [rxReg h.sub]) ∧
  (∀ h s x, NamesSession s h x → x.part ≠ h.part →
    ∃ t, exec (.astpAck h) s = .next t ∧ t.net.sess = s.net.sess ∧
      Sends s t h.sub (List.replicate (max h.frames 1) (.noSession h.src h.srcPort h.session h.part.val h.msgid 4)) ∧
      OnlyNet s t [rxReg h.sub]) ∧
  (∀ h s x, InSession s h x → hdrLenOk h 0 = true →
    Responded (exec (.astpClose h) s) h
      ((enter s h x).setSession h.session (some { takenSession s h x with closing := true })) (.bare 0)) ∧
  (∀ h s x p, InSession s { h with part := p } x → (s.ent 0).st ≠ .switch → ∀ c ∈ astpCmds,
    (h.part ≠ p → Responded (exec (c.1 h) s) h (enter s h x) (.bare 4)) ∧
    (h.part = p → hdrLenOk h c.2 = false → Responded (exec (c.1 h) s) h (enter s h x) (.bare 11))) ∧
  (∀ n q s x f k, s.session n = some x → x.queue.find? (·.seq = q) = some f → f.tries = some k →
    (s.time.ns.toNat < f.at_ + s.rto k → exec (.astpRetxTimeout n q) s = .next s) ∧
    (f.at_ + s.rto k ≤ s.time.ns.toNat → k < 16 → s.linkIs x.sub = true →
      ∃ t, exec (.astpRetxTimeout n q) s = .next t ∧
        Sends s t x.sub [.resp x.ip x.port n x.part.val { f with tries := some (k + 1), at_ := s.time.ns.toNat } x.ack x.limit] ∧
        (t.session n).isSome = true ∧ OnlyNet s t [R.HZN_ASTP_RETX_CNTqk x.sub.h.val x.sub.q.val x.sub.k.val]) ∧
    (f.at_ + s.rto k ≤ s.time.ns.toNat → 16 ≤ k →
      ∃ t, exec (.astpRetxTimeout n q) s = .next t ∧ t.session n = none ∧ t.net.wait = s.net.wait ∧ OnlyNet s t [])) ∧
  (∀ n s x, s.session n = some x →
    x.heard + s.rdF R.PANEL_ASTP_CFG F.PANEL_ASTP_CFG_STMO * 10 ^ 9 ≤ s.time.ns.toNat →
    ∃ t, exec (.astpSessionTimeout n) s = .next t ∧ t.session n = none ∧ (∀ k, k ≠ n → t.session k = s.session k) ∧
      OnlyNet s t [])

/-- R279, R317, R329-R331, R375, R417: CSR_RD answers the registers; CSR_WR writes; WRITE stores its bytes, allocating; PEEK
answers the bytes and TAKE frees their pages as well, NOT_READY where a fence gates a page and EMPTY where one is FREE; LAUNCH
starts its cells when all are IDLE and is refused otherwise; BIND waits for its bind. R422, R423: of two contradicting requests
of one message time the first in session order is performed, and the other answered CONFLICT. -/
def Sys2Proof.Claim.AstpRequests : Prop :=
  (∀ h s x (a : BitVec 32) n, InSession s h x → hdrLenOk h 8 = true → 1 ≤ n → n ≤ 256 →
    let l := (List.range n).map fun i => a.toNat + 8 * i
    a.toNat % 8 = 0 → (∀ y ∈ l, (enter s h x).mayAccess (.session h.part) y false = true) →
    (∀ y ∈ l, ∀ k o, csrBlock y ≠ some (.hzn, k, o) ∧ csrBlock y ≠ some (.cell, k, 0xE08)) →
    Responded (exec (.astpCsrRd h a n) s) h (enter s h x)
      ⟨0, 0, l.flatMap fun y => leBytes 8 ((enter s h x).readReg y).toNat, []⟩) ∧
  (∀ h s x v, let a := R.PART_ZEN_SEED h.part
    InSession s h x → hdrLenOk h 16 = true → Writable a v → s.zphase h.part = 0 →
    ∃ t', Responded (exec (.astpCsrWr h (BitVec.ofNat 32 a) [v]) s) h t' (.bare 0) ∧ t'.rd a = putVal a (s.rd a) v ∧
      OnlyCsrs (enter s h x) t' [a]) ∧
  (∀ h s x (a : W64) bs s1, let e := enter s h x
    InSession s h x → hdrLenOk h (16 + bs.length) = true → 1 ≤ bs.length → bs.length ≤ 2 ^ 20 → a.toNat < 2 ^ 48 → e.hostRights h.part a.toNat bs.length = true →
    e.allocateAll .host h.part (runPages (a.toNat, bs.length)) = some s1 → Calm e h.part [(a.toNat, bs.length)] →
    ∃ t', Responded (exec (.astpWrite h a bs) s) h t' (.bare 0) ∧ HostStored s1 t' ((runAddrs [(a.toNat, bs.length)]).zip bs)) ∧
  (∀ h s x (a : W64) n, let e := enter s h x
    InSession s h x → hdrLenOk h 16 = true → peekOk a n = true → e.hostRights h.part a.toNat n = true →
    ((∃ pg ∈ runPages (a.toNat, n), (s.ent pg).st = .switch) → exec (.astpPeek h a n) s = .next (e.putOff (.peek h a n))) ∧
    ((∀ pg ∈ runPages (a.toNat, n), (s.ent pg).st ≠ .switch) →
    ((∃ pg ∈ runPages (a.toNat, n), e.gated h.part pg = true) →
      ∃ t', Responded (exec (.astpPeek h a n) s) h t' (.bare 1) ∧
        t'.rd (R.PART_TIER_NOTREADY_CNT h.part) = satAdd64 (s.rd (R.PART_TIER_NOTREADY_CNT h.part)) 1 ∧
        OnlyCsrs e t' [R.PART_TIER_NOTREADY_CNT h.part]) ∧
    ((∀ pg ∈ runPages (a.toNat, n), e.gated h.part pg = false) → (∃ pg ∈ runPages (a.toNat, n), s.isFree pg = true) →
      Responded (exec (.astpPeek h a n) s) h e (.bare 2)) ∧
    ((∀ pg ∈ runPages (a.toNat, n), e.gated h.part pg = false ∧ s.isFree pg = false) → s.ue = [] → s.ce = [] →
      (∃ t', Responded (exec (.astpPeek h a n) s) h t' ⟨0, 0, s.bytesAt a.toNat n, []⟩ ∧ MemKept e t' ∧ OnlyMem e t' hcRegs) ∧
      (a.toNat % pageSize = 0 → n % pageSize = 0 → (∀ pg ∈ runPages (a.toNat, n), s.inMove pg = false) →
        ∃ t', Responded (exec (.astpTake h a n) s) h t' ⟨0, 0, s.bytesAt a.toNat n, []⟩ ∧
          (∀ pg, t'.ent pg = if pg ∈ runPages (a.toNat, n) then .free else s.ent pg) ∧ t'.bytes = s.bytes ∧
          t'.frames = s.frames ∧ t'.tiers.claims = s.tiers.claims ++
            (runPages (a.toNat, n)).map (fun pg => ⟨(s.ent pg).home, (s.ent pg).owner⟩) ∧
          CsrsBut e t' hcRegs ∧ CtxSame s t')))) ∧
  (∀ h s x (l : LaunchMsg), let v := launchOf l
    InSession s h x → hdrLenOk h 32 = true → l.pcstride.toNat % 16 = 0 → l.pc.toNat < 2 ^ 48 →
    (v.first + v.count ≤ (s.owned h.part).length → (∀ y ∈ s.launchCells h.part v, s.runState y.1 = stIdle) →
      ((s.launchCells h.part v).map (·.1)).Nodup →
      ∃ t', Responded (exec (.astpLaunch h l) s) h t' (.bare 0) ∧ (∀ y ∈ s.launchCells h.part v, Launched t' v y.1 y.2) ∧
        (∀ k, (∀ y ∈ s.launchCells h.part v, y.1 ≠ k) → t'.cell k = s.cell k) ∧ MemSame s t') ∧
    ((∃ y ∈ s.launchCells h.part v, s.runState y.1 ≠ stIdle) →
      Responded (exec (.astpLaunch h l) s) h (enter s h x) (.bare 9))) ∧
  (∀ h s x (n : BitVec 16) ws, let r := (enter s h x).bindWrites h.part n.toNat ws
    InSession s h x → hdrLenOk h 104 = true → ws.length = 12 → n.toNat < 32768 →
    (namesReserved (zdirAddr n.toNat 0) (ws.getD 11 0) = false → r.2 = 0 → r.1.bindState h.part = 1 →
      ∃ t y, exec (.astpBind h n ws) s = .next t ∧ r.1.session h.session = some y ∧
        t = r.1.setSession h.session (some { y with bind := some (h.seq, h.msgid) })) ∧
    (namesReserved (zdirAddr n.toNat 0) (ws.getD 11 0) = true →
      Responded (exec (.astpBind h n ws) s) h (enter s h x) (.bare 6))) ∧
  (∀ q s, exec (.messageTimeEnd [q] []) s = .next (s.performReq q)) ∧
  (∀ h k s a b c d, h.session < k.session →
    let q := AstpReq.write h a b
    let r := AstpReq.write k c d
    let s1 := s.performReq q
    a.toNat < c.toNat + d.length → c.toNat < a.toNat + b.length → (s.takeIn h).2 = true →
    ∀ x, InSession s1 k x →
    exec (.messageTimeEnd [r, q] []) s = .next (((enter s1 k x).count (R.PART_CONFLICT_CNT k.part) 1).reply
      k.session k.seq k.msgid (.bare 3)))

/-- R379-R384, R420, R421: a request of the expected PSN that its key and rights permit: READ sends the bytes in packets, WRITE
stores them and SEND puts each packet into the next slot of the ring, acknowledged every sixteenth packet and at the end, and the
expected PSN moves on; without them, or without a slot, a NAK; a repeated write is only acknowledged; a request that a move holds
waits. A CNP counts. A write of a table's word is performed, and
word 0 gives the entry to its writer's partition.
Model's choices: log entries 17, 41 and 42. -/
def Obligations.RoceResults : Prop :=
  (∀ u (q : Fin 1024) psn key (a : W64) n bs imm s, ∀ c ∈ roceCmds s u q psn key a n bs imm,
    (∃ x ∈ s.net.later, roceQp x = some q.val) ∨ s.hostHeld c.2.1 c.2.2 = true →
    exec c.1 s = .next { s with net := { s.net with later := s.net.later ++ [c.1] } }) ∧
  (∀ u (q : Fin 1024) psn key (a : W64) n s, let i := q.val
    let mtu := s.qpMtu i
    let k := packets mtu n
    RoceReaches s u i → QpFree s i → s.psnPlace i psn = 0 →
    (s.keyOk i key a.toNat n 0 = true → s.hostCheck (s.qpPart i) a.toNat n = 0 → s.ue = [] → s.ce = [] →
      ∃ t, exec (.roceRead u q psn key a n) s = .next t ∧
        Sends s t u ((List.range k).map fun j =>
          .readResp (s.qpIp i) (s.dqpn i) ((psn + j) % 2 ^ 24) (s.bytesAt (a.toNat + j * mtu) (min mtu (n - j * mtu)))) ∧
        t.epsn i = (s.epsn i + k) % 2 ^ 24 ∧ MemKept s t ∧ CtxSame s t ∧ StepSame s t ∧ ServiceSame s t ∧
        CsrsBut s t (rxReg u :: qpAddr i 0 :: hcRegs)) ∧
    (s.keyOk i key a.toNat n 0 = false →
      ∃ t, exec (.roceRead u q psn key a n) s = .next t ∧ Nakked s t u i psn nakAccess)) ∧
  (∀ u (q : Fin 1024) psn key (a : W64) bs s, let i := q.val
    let p := s.qpPart i
    let k := packets (s.qpMtu i) bs.length
    RoceReaches s u i → QpFree s i → s.psnPlace i psn = 0 → bs ≠ [] →
    (s.keyOk i key a.toNat bs.length 1 = true → HomedRange s p a.toNat bs.length → Calm s p [(a.toNat, bs.length)] →
      ∃ t, exec (.roceWrite u q psn key a bs none) s = .next t ∧ HostStored s t ((runAddrs [(a.toNat, bs.length)]).zip bs) ∧
        Acked s t u i psn k ∧
        t.epsn i = (s.epsn i + k) % 2 ^ 24 ∧ CsrsBut s t (rxReg u :: qpAddr i 0 :: hcRegs)) ∧
    (s.keyOk i key a.toNat bs.length 1 = false →
      ∃ t, exec (.roceWrite u q psn key a bs none) s = .next t ∧ Nakked s t u i psn nakAccess)) ∧
  (∀ u (q : Fin 1024) psn key (a : W64) bs imm s, let i := q.val
    let k := packets (s.qpMtu i) bs.length
    RoceReaches s u i → QpFree s i → s.psnPlace i psn = 1 →
    ∀ c ∈ [Instr.roceWrite u q psn key a bs imm, .roceSend u q psn bs imm],
      ∃ t, exec c s = .next t ∧ Acked s t u i psn k ∧ OnlyNet s t [rxReg u]) ∧
  (∀ u (q : Fin 1024) psn bs imm s, let i := q.val
    let p := s.qpPart i
    let mtu := s.qpMtu i
    let k := packets mtu bs.length
    let slots := s.rdF (qpAddr i 4) F.PANEL_QPi_W4_SLOTS
    let head := (s.rd (qpAddr i 5)).toNat
    let slot := fun j => s.rdF (qpAddr i 3) F.PANEL_QPi_W3_RING + (head + j) % slots * mtu
    RoceReaches s u i → QpFree s i → s.psnPlace i psn = 0 →
    (k ≤ s.ringFree i → head + k < 2 ^ 64 → bs ≠ [] →
      (∀ j, j < k → HomedRange s p (slot j) mtu ∧ Calm s p [(slot j, mtu)]) →
      ∃ t, exec (.roceSend u q psn bs (some imm)) s = .next t ∧
        HostStored s t ((pieces mtu bs).zipIdx.flatMap fun x => (runAddrs [(slot x.2, x.1.length)]).zip x.1) ∧
        t.rd (qpAddr i 5) = BitVec.ofNat 64 (head + k) ∧ t.rd (qpAddr i 7) = BitVec.ofNat 64 imm.toNat ∧
        Acked s t u i psn k ∧ t.epsn i = (s.epsn i + k) % 2 ^ 24 ∧
        CsrsBut s t (rxReg u :: qpAddr i 0 :: qpAddr i 5 :: qpAddr i 7 :: hcRegs)) ∧
    (s.ringFree i < k →
      ∃ t, exec (.roceSend u q psn bs (some imm)) s = .next t ∧
        Nakked s t u i psn (nakRnr + s.rdF (qpAddr i 0) F.PANEL_QPi_W0_RNR))) ∧
  (∀ u (q : Fin 1024) psn (op : Byte) s, RoceReaches s u q → s.psnPlace q psn ≠ 2 → 0x0C < op.toNat →
    ∃ t, exec (.roceInvalidRequest u q psn op) s = .next t ∧ Nakked s t u q psn nakInvalid) ∧
  (∀ u s, s.linkIs u = true → s.phase = 9 → s.rdF (cfgOf u) F.HZN_ETH_CFGq_ROCE = 1 →
    ∃ t, exec (.roceCnp u) s = .next t ∧ t.rd R.PANEL_ROCE_CNP_CNT = satAdd64 (s.rd R.PANEL_ROCE_CNP_CNT) 1 ∧
      OnlyCsrs s t [R.PANEL_ROCE_CNP_CNT, rxReg u]) ∧
  (∀ pl (i : Fin 1024) (w : Fin 8) v s, let a := qpAddr i w
    w ≠ 0 → s.mayAccess pl a true = true → Writable a v →
    ∃ t, exec (.qpWrite pl i w v) s = .next t ∧ t.rd a = putVal a (s.rd a) v ∧ OnlyCsrs s t [a]) ∧
  (∀ pl (i : Fin 1024) v s, let a := qpAddr i 0
    s.mayAccess pl a true = true → Writable a v → fld v 63 62 ≠ 3 → fld v 55 54 ≠ 3 → fld (s.rd a) 63 62 = 0 →
    fld (putVal a (s.rd a) v) 63 62 ≠ 0 →
    s.rocOwned (fun k => qpAddr k 0) 1024 (planePart pl) < s.rdF (R.PART_CAP1 (planePart pl)) F.PART_CAP1_QP →
    ∃ t, exec (.qpWrite pl i 0 v) s = .next t ∧ t.qpPart i = planePart pl ∧ OnlyCsrs s t [a]) ∧
  (∀ pl (i : Fin 1024) (w : Fin 8) v s, w = 5 ∨ w = 7 →
    AccessRefused (exec (.qpWrite pl i w v) s) s pl (qpAddr i w) 4) ∧
  (∀ pl (i : Fin 4096) v s, AccessRefused (exec (.mrWrite pl i 3 v) s) s pl (mrAddr i 3) 4) ∧
  (∀ pl (i : Fin 4096) (w : Fin 4) v s, let a := mrAddr i w
    w = 1 ∨ w = 2 → s.mayAccess pl a true = true → Writable a v → fld (s.rd (mrAddr i 0)) 63 62 ≠ 1 →
    ∃ t, exec (.mrWrite pl i w v) s = .next t ∧ t.rd a = putVal a (s.rd a) v ∧ OnlyCsrs s t [a]) ∧
  (∀ pl (i : Fin 4096) v s, let a := mrAddr i 0
    s.mayAccess pl a true = true → Writable a v → fld v 63 62 = 1 → fld v 55 54 ≠ 0 → fld (s.rd a) 63 62 = 0 →
    fld (putVal a (s.rd a) v) 63 62 = 1 →
    s.regionOk (planePart pl) ((s.rd (mrAddr i 1)).toNat % 2 ^ 48) ((s.rd (mrAddr i 2)).toNat % 2 ^ 48) = true →
    s.rocOwned (fun k => mrAddr k 0) 4096 (planePart pl) < s.rdF (R.PART_CAP1 (planePart pl)) F.PART_CAP1_MR →
    ∃ t, exec (.mrWrite pl i 0 v) s = .next t ∧ t.rdF a F.PANEL_QPi_W0_PART = planePart pl ∧
      t.rdF a F.PANEL_MRr_W0_GEN = (fld (s.rd a) 43 32 + 1) % 4096 ∧ OnlyCsrs s t [a])

/-- R390-R393: of the masters whose Announces a PTP Port takes the best is the source; the offset of a Sync shows in OFFSET, moves
the counter by a step above 1 µs while it has not locked, leaves the rate alone in HOLDOVER and otherwise sets a rate within 200 ppm,
and consecutive offsets move the clock's state; without its source, or without Sync, LOCKED becomes HOLDOVER, which ends when its
time has passed; the best of the other masters follows a source that has gone.
Model's choices: log entries 10, 55 and 56. -/
def Obligations.MeridianClock : Prop :=
  (∀ a b s, let ms := s.ptp.masters.filter (fun x => !sameMaster a x) ++ [a]
    s.ptpPort a.sub = true → s.ptpMine a.domain a.transport = true → a.steps < 255 →
    bestOf (ms.filter fun x => s.ptpPort x.sub) = some b →
    ∃ t, exec (.ptpAnnounce a) s = .next t ∧ t.ptp.masters = ms ∧ t.ptp.source = some b ∧ t.rd R.PANEL_MER_GM = b.gmId ∧
      t.rdF R.PANEL_MER_STAT F.PANEL_MER_STAT_PORT = portNo b.sub ∧ t.rdF R.PANEL_MER_STAT F.PANEL_MER_STAT_SUB = b.sub.k.val ∧
      t.merState = (if s.merState = merFreerun then merLocking else s.merState) ∧ t.time = s.time ∧ OnlyClock s t) ∧
  (∀ a s, s.ptpPort a.sub = false ∨ s.ptpMine a.domain a.transport = false ∨ 255 ≤ a.steps → exec (.ptpAnnounce a) s = .next s) ∧
  (∀ u d tr log x s, SyncMine s u d tr log →
    ∃ t, exec (.ptpSync u d tr log x) s = .next t ∧ OnlyClock s t ∧
      t.rdF R.PANEL_MER_STAT F.PANEL_MER_STAT_OFFSET = unsigned 32 (max (-(2 ^ 31)) (min x (2 ^ 31 - 1))) ∧
      (if s.merState ≤ merLocking ∧ 1000 < x.natAbs then
        t.time.ns = BitVec.ofInt 64 ((s.time.ns.toNat : Int) - x) ∧
          t.rd R.PANEL_MER_STEP_CNT = satAdd64 (s.rd R.PANEL_MER_STEP_CNT) 1
      else if s.merState = merHoldover then t.time = s.time
      else t.time.ns = s.time.ns ∧ -200000 ≤ t.time.rate ∧ t.time.rate ≤ 200000) ∧
      (s.merState = merLocking → t.merState = if x.natAbs ≤ 20 ∧ 16 ≤ s.ptp.good + 1 then merLocked else merLocking) ∧
      (s.merState = merLocked → x.natAbs ≤ 20 ∨ s.ptp.bad + 1 < 4 → t.merState = merLocked) ∧
      (s.merState = merLocked → 20 < x.natAbs → 4 ≤ s.ptp.bad + 1 → Unlocked s t merLocking) ∧
      (s.merState = merHoldover → t.merState = if x.natAbs ≤ 20 ∧ 4 ≤ s.ptp.good + 1 then merLocked else merHoldover)) ∧
  (∀ u d tr n s, s.ptpPort u = true → s.ptpMine d tr = true →
    ∃ t, exec (.ptpDelayResp u d tr n) s = .next t ∧
      SMap.get t.ptp.delay none (4 * portNo u + u.k.val) = some n ∧ t.time = s.time ∧ t.merState = s.merState ∧ OnlyClock s t) ∧
  (∀ u s, s.ptpPort u = true → s.linkIs u = true →
    ∃ t, exec (.ptpDelayReq u) s = .next t ∧ Sends s t u [.delayReq (s.rdF R.PANEL_PTP_CFG F.PANEL_PTP_CFG_DOMAIN)] ∧
      t.net = { s.net with wait := t.net.wait } ∧ OnlyNet s t []) ∧
  (∀ s, s.merState = merLocked →
    ∃ t, exec .syncTimeout s = .next t ∧ t.merState = merHoldover ∧ t.ptp.since = s.time.ns.toNat ∧ t.time = s.time ∧
      OnlyClock s t) ∧
  (∀ s a, let o := bestOf ((s.ptp.masters.filter fun b => !sameMaster a b).filter fun b => s.ptpPort b.sub)
    s.ptp.source = some a →
    ∃ t, exec .sourceDisappears s = .next t ∧ t.ptp.source = o ∧ t.time = s.time ∧ OnlyClock s t ∧
      t.merState = (if s.merState = merLocked then merHoldover
        else if s.merState = merFreerun ∧ o.isSome = true then merLocking else s.merState) ∧
      (s.merState = merLocked → t.ptp.since = s.time.ns.toNat)) ∧
  (∀ s, s.merState = merHoldover →
    s.ptp.since + 1000000 * s.rdF R.PANEL_PTP_CFG F.PANEL_PTP_CFG_HOLD_MAX ≤ s.time.ns.toNat →
    ∃ t, exec .holdoverExpire s = .next t ∧ Unlocked s t (if s.ptp.source.isSome then merLocking else merFreerun) ∧
      t.time = s.time ∧ OnlyClock s t)

namespace Sys2Proof.Claim

/-! Parallax, fences, service and fault records. -/

/-- The sample record of a check that has its turn, and no page of whose operands is in SWITCH. -/
def Sampled1 (s : State) (k : CellId) (r : Fin 2) (ph : Nat) (t : Sample) : Prop :=
  s.sampleOf k r.val = some t ∧ t.phase = ph ∧ t.part < 64 ∧ s.checkHeld t = false

/-- The commands of a check, and the phase in which each acts. -/
def checkCmds (k : CellId) (r : Fin 2) (d : Bool) : List (Instr × Nat) :=
  [(.parallaxCheckCompare k r, 1), (.parallaxReplay k r d, 2), (.parallaxOtherCell k r d, 3)]

/-- The check has ended: the record is free, and no other record of the cell changes. -/
def SampleEnds (s t : State) (k : CellId) (r : Fin 2) : Prop :=
  t.sampleOf k r.val = none ∧ ∀ n, n ≠ r.val → t.sampleOf k n = s.sampleOf k n

/-- A counter has counted one. -/
def Counted (s t : State) (a : Nat) : Prop := t.rd a = satAdd64 (s.rd a) 1

/-- The fault of a sample has been classed: one record of kind 1 with its class, its counter, the sample record free, and the
slot's fence queued for the two classes that ask for one, where the policy permits it (R435-R437, R441). -/
def Classed (s t : State) (k : CellId) (r : Fin 2) (cls : Nat) : Prop :=
  SampleEnds s t k r ∧ Counted s t (plxCounter cls) ∧
    (∃ f, t.fsrPend = s.fsrPend ++ [f] ∧ f.kind = 1 ∧ f.cls = cls ∧ f.unit = k.die.val ∧ f.loc = [k.slot.val]) ∧
    t.fencing = if (cls = plxIntermittent ∨ cls = plxPermanent) ∧ flag (s.rd R.MGMT_FLT_POLICY) 0 = true ∧
        s.fencing.all (fun g => decide (g.cell ≠ k)) = true then s.fencing ++ [⟨k, [], false⟩] else s.fencing

/-- A slot has the state `st`, backs logical cell `l` where it is ACTIVE, and shows its owner (R27-R32). -/
def SlotIs (t : State) (c : CellId) (st l : Nat) : Prop := t.slotState c = st ∧ t.logical c = l

/-- A service command has ended: STATE and WHY of SVC_STAT (R447). -/
def SvcEnded (t : State) (st why : Nat) : Prop :=
  t.rdF R.MGMT_SVC_STAT F.MGMT_SVC_STAT_STATE = st ∧ t.rdF R.MGMT_SVC_STAT F.MGMT_SVC_STAT_WHY = why

/-- A command of the management plane is free to be accepted. -/
def SvcFree (s : State) : Prop := s.mgmtUp = true ∧ s.rdF R.MGMT_SVC_STAT F.MGMT_SVC_STAT_STATE ≠ 1

/-- An action has extended measurement 4. -/
def Measured4 (s t : State) (m : Meas) : Prop := SMap.get t.lode.meas [] 4 = SMap.get s.lode.meas [] 4 ++ [m]

end Sys2Proof.Claim

/-- R430-R437: a check whose operands are not those of its record is stale; one with a tolerance row ends within SOFT with MAXQ,
within HARD as soft, beyond it as soft where a conversion drifted and else raises PLX and is classed; a bitwise check ends only
where nothing differs. A replay that differs is transient, or intermittent at the limit; one that does not goes to another cell,
whose difference is permanent and whose agreement is numeric.
Model's choices: log entries 10, 11, 43, 44 and 79. -/
def Obligations.ParallaxChecks : Prop :=
  (∀ k r d s t, ∀ c ∈ checkCmds k r d, s.sampleOf k r.val = some t → t.phase = c.2 → s.checkHeld t = true →
    exec c.1 s = .next s) ∧
  (∀ k r s t, let e := s.checkWork k t.pass
    Sampled1 s k r 1 t → (e.recheck k t).2 = false →
    ∃ u, exec (.parallaxCheckCompare k r) s = .next u ∧ SampleEnds s u k r ∧ Counted s u (R.PART_PLX_STALE_CNT t.part)) ∧
  (∀ k r s t row, let e := ((s.checkWork k t.pass).recheck k t).1
    let x := e.recompute t.pass
    let q := topScore t.pass fun n => scoreEnt t.result.form (SMap.get t.result.ents AccEnt.zero n)
      (SMap.get x.1.ents AccEnt.zero n)
    let a := R.PART_PLX_MAXQk t.part row
    Sampled1 s k r 1 t → ((s.checkWork k t.pass).recheck k t).2 = true → e.passRow t.pass = some row →
    ∃ u, exec (.parallaxCheckCompare k r) s = .next u ∧ Counted s u (R.PART_PLX_SAMPLE_CNT t.part) ∧
      (q.1 ≤ s.tolSoft row → SampleEnds s u k r ∧ u.rdF a F.PART_PLX_MAXQk_MAXQ = max (s.rdF a F.PART_PLX_MAXQk_MAXQ) q.1) ∧
      (s.tolSoft row < q.1 → q.1 ≤ s.tolHard row → SampleEnds s u k r ∧ Counted s u (R.PART_PLX_SOFT_CNT t.part) ∧
        u.rdF a F.PART_PLX_MAXQk_MAXQ = max (s.rdF a F.PART_PLX_MAXQk_MAXQ) q.1) ∧
      (s.tolSoft row < q.1 → s.tolHard row < q.1 → (t.drift || x.2) = true → SampleEnds s u k r ∧
        Counted s u (R.PART_PLX_SOFT_CNT t.part) ∧ Counted s u (R.PART_PLX_SATSOFT_CNT t.part)) ∧
      (s.tolSoft row < q.1 → s.tolHard row < q.1 → (t.drift || x.2) = false → Counted s u (R.PART_PLX_HARD_CNT t.part) ∧
        flag (u.rd (R.PART_VRD_OWN t.part)) vPLX = true ∧
        ∃ y, u.sampleOf k r.val = some y ∧ y.phase = 2 ∧ y.row = row ∧ y.qmax = q.1)) ∧
  (∀ k r s t, let e := ((s.checkWork k t.pass).recheck k t).1
    Sampled1 s k r 1 t → ((s.checkWork k t.pass).recheck k t).2 = true → e.passRow t.pass = none →
    ((∀ n ∈ workedEnts t.pass, SMap.get t.result.ents AccEnt.zero n =
        SMap.get (e.count (R.PART_PLX_SAMPLE_CNT t.part) 1 |>.passOut t.pass).bank.ents AccEnt.zero n) →
      ∃ u, exec (.parallaxCheckCompare k r) s = .next u ∧ SampleEnds s u k r ∧ Counted s u (R.PART_PLX_SAMPLE_CNT t.part)) ∧
    ((∃ n ∈ workedEnts t.pass, SMap.get t.result.ents AccEnt.zero n ≠
        SMap.get (e.count (R.PART_PLX_SAMPLE_CNT t.part) 1 |>.passOut t.pass).bank.ents AccEnt.zero n) →
      ∃ u y, exec (.parallaxCheckCompare k r) s = .next u ∧ u.sampleOf k r.val = some y ∧ y.phase = 2 ∧ y.row = 0xFF ∧
        flag (u.rd (R.PART_VRD_OWN t.part)) vPLX = true ∧ Counted s u (R.PART_PLX_HARD_CNT t.part))) ∧
  (∀ k r d s t, let x := s.recheck k t
    let recent := ((s.cell k).trans.filter fun u => s.time.ns.toNat ≤ u + dayNs) ++ [s.time.ns.toNat]
    let lim := s.rdF R.MGMT_FLT_POLICY F.MGMT_FLT_POLICY_TRANS_LIMIT
    Sampled1 s k r 2 t → Sound s →
    (x.2 = false → ∃ u, exec (.parallaxReplay k r d) s = .next u ∧ Classed s u k r plxUnresolved) ∧
    (x.2 = true → d = true →
      ∃ u, exec (.parallaxReplay k r d) s = .next u ∧
        if lim ≠ 0 ∧ lim ≤ recent.length then Classed s u k r plxIntermittent
        else Classed s u k r plxTransient ∧ (u.cell k).trans = recent) ∧
    (x.2 = true → d = false → (s.otherCell k).isNone = true →
      ∃ u, exec (.parallaxReplay k r d) s = .next u ∧ Classed s u k r plxUnresolved) ∧
    (x.2 = true → d = false → (s.otherCell k).isSome = true →
      ∃ u, exec (.parallaxReplay k r d) s = .next u ∧ u.sampleOf k r.val = some { t with phase := 3 } ∧
        u.fsrPend = s.fsrPend ∧ u.fencing = s.fencing)) ∧
  (∀ k r d s t o, let x := (s.checkWork o t.pass).recheck k t
    Sampled1 s k r 3 t → Sound s → s.otherCell k = some o → x.2 = true →
    ∃ u, exec (.parallaxOtherCell k r d) s = .next u ∧ Classed s u k r (if d then plxPermanent else plxNumeric))

/-- R439, R440: a queued fence of an owned slot starts with a request that its partition stop; at the service point the lowest
spare of the die takes the slot's context and its logical cell, the slot is FENCED, and a record is raised; without a spare its
logical cell is absent. R447, R448: the service commands fence, rejoin and retire a slot and burn a die's fuses, each ending
with its state, a burn that stops having burned the words before it; a rejoined slot backs an absent cell at its partition's next
launch or when its cells are idle.
Model's choices: log entries 9, 10, 45, 46 and 47. -/
def Obligations.FencesAndService : Prop :=
  (∀ k s f p, s.fencing.find? (·.cell = k) = some f → f.started = false → s.slotState k = slotActive → s.cellPart k = some p →
    (∀ g ∈ s.fencing, g.started = true → s.cellPart g.cell ≠ some p) →
    ∃ t, exec (.slotFence k) s = .next t ∧
      t.fencing = s.fencing.map (startFence k ((s.present p).filter fun x => s.runState x = stStopped)) ∧
      (∀ x ∈ s.present p, Going s x → (t.cell x).stopReq ≠ 0) ∧ (∀ x, t.runState x = s.runState x) ∧ MemSame s t) ∧
  (∀ (p : Fin 64) s f, let c := f.cell
    let l := s.logical c
    s.fencing.find? (fun f => f.started && s.cellPart f.cell = some p.val) = some f → s.servicePoint p = true →
    s.slotState c = slotActive → l / 64 = c.die.val → Sound s →
    (∀ d, s.autospare = true → (s.spares c.die.val).head? = some d →
      ∃ t, exec (.servicePoint p) s = .next t ∧ SlotIs t c slotFenced noLogical ∧ SlotIs t d slotActive l ∧
        t.backing l = some d ∧ (t.cell d).regs = (s.cell c).regs ∧ (t.cell d).tiles = (s.cell c).tiles ∧
        (t.cell d).banks = (s.cell c).banks ∧ (t.cell d).stats = (s.cell c).stats ∧ t.pc (.cell d) = s.pc (.cell c) ∧
        (∀ g ∈ t.fencing, g.cell ≠ c) ∧ Raised s t 0x0C 8) ∧
    (s.autospare = false ∨ s.spares c.die.val = [] →
      ∃ t, exec (.servicePoint p) s = .next t ∧ SlotIs t c slotFenced noLogical ∧ t.backing l = none ∧
        (∀ g ∈ t.fencing, g.cell ≠ c) ∧ (∀ x, t.runState x = s.runState x) ∧ Raised s t 0x0C 8)) ∧
  (∀ c s, SvcFree s →
    (s.slotState c = slotActive → ∃ t, exec (.svcFence .mgmt c) s = .next t ∧ SvcEnded t 1 0 ∧
      (∃ g ∈ t.fencing, g.cell = c) ∧ MemSame s t ∧ CtxSame s t) ∧
    (s.slotState c = slotSpare → ∃ t, exec (.svcFence .mgmt c) s = .next t ∧ SvcEnded t 2 0 ∧
      SlotIs t c slotFenced noLogical ∧ Raised s t 0x0C 8 ∧ Measured4 s t (.service 1 c.die.val c.slot.val)) ∧
    (s.slotState c = slotFenced ∨ s.slotState c = slotSpare → ∃ t, exec (.svcRetire .mgmt c) s = .next t ∧ SvcEnded t 2 0 ∧
      SlotIs t c slotRetired noLogical ∧ Raised s t 0x0C 8 ∧ Measured4 s t (.service 3 c.die.val c.slot.val)) ∧
    (s.slotState c = slotActive ∨ s.slotState c = slotRetired → ∃ t, exec (.svcRetire .mgmt c) s = .next t ∧ SvcEnded t 3 1 ∧
      t.slotState c = s.slotState c ∧ MemSame s t ∧ CtxSame s t) ∧
    (s.slotState c = slotFenced →
      (∃ t, exec (.svcRejoin .mgmt c true true) s = .next t ∧ SvcEnded t 2 0 ∧ SlotIs t c slotSpare noLogical ∧
        (t.cell c).regs = (s.cell c).regs ∧ t.runState c = stIdle ∧ (t.cell c).held = none ∧ Raised s t 0x0C 8 ∧ Measured4 s t (.service 2 c.die.val c.slot.val) ∧
        (s.autospare = true → s.absent c.die.val ≠ [] → c ∈ t.rejoined)) ∧
      (∃ t, exec (.svcRejoin .mgmt c false true) s = .next t ∧ SvcEnded t 3 2 ∧ t.slotState c = slotFenced) ∧
      (∃ t, exec (.svcRejoin .mgmt c true false) s = .next t ∧ SvcEnded t 3 3 ∧ t.slotState c = slotFenced)) ∧
    (∀ d, ∃ t, exec (.svcFuseCommit .mgmt d none) s = .next t ∧ SvcEnded t 2 0 ∧ Measured4 s t (.service 4 d.val 0) ∧
      (∀ j, j < 8 → SMap.get t.lode.fuses 0 (R.DIE_LMAPj d j) = s.rd (R.DIE_LMAPj d j)) ∧ MemSame s t ∧ CtxSame s t) ∧
    (∀ d n, ∃ t, exec (.svcFuseCommit .mgmt d (some n)) s = .next t ∧ SvcEnded t 3 4 ∧
      t.lode = { s.lode with fuses := ((s.fuseWords d.val).take n).foldl (fun m x => SMap.insert m x.1 x.2) s.lode.fuses } ∧
      MemSame s t)) ∧
  (∀ c s p l, c ∈ s.rejoined → (s.absent c.die.val).head? = some l → s.ownerOf l = some p → s.slotState c = slotSpare →
    flag (s.rd (R.PART_TT_CTL p)) (4 + s.ttActive p) = false → (∀ k ∈ s.present p, s.runState k = stIdle) →
    ∃ t, exec (.rejoinBacking c) s = .next t ∧ SlotIs t c slotActive l ∧ t.backing l = some c ∧ t.cellPart c = some p ∧
      c ∉ t.rejoined ∧ CtxSame s t ∧ MemSame s t) ∧
  (∀ c s p l e, c ∈ s.rejoined → (s.absent c.die.val).head? = some l → s.ownerOf l = some p → s.slotState c = slotSpare →
    flag (s.rd (R.PART_TT_CTL p)) (4 + s.ttActive p) = true → e ∈ s.ents p → (s.entry p e).action = actLaunch →
    s.occStart p (s.entry p e) = s.time.ns.toNat →
    ∃ t, exec (.rejoinBacking c) s = .next t ∧ SlotIs t c slotActive l ∧ t.backing l = some c ∧ t.cellPart c = some p ∧
      c ∉ t.rejoined ∧ CtxSame s t ∧ MemSame s t)

/-- R443-R446: Lodestar writes the oldest record that waits, numbering it, dropping an older one from a full log with its count,
keeping the newest 256 in flash and showing it to its partition; an export delivers the next record of a subscriber, a retry that
reaches it too, and an hour of failures gives it up; a record's section body has its fixed 144 bytes and what was captured.
Model's choices: log entries 20, 35 and 48. -/
def Obligations.FaultRecords : Prop :=
  (∀ s r rest, s.fsrPend = r :: rest → s.lode.up = true →
    ∃ t y, exec .fsrWrite s = .next t ∧ t.fsrPend = rest ∧ t.lode.records = s.lode.records + 1 ∧
      y = { r with
        recId := s.lode.records + 1, panelId := s.rd R.PANEL_ID, modId := (s.rd R.PANEL_MOD_ID).toNat % 2 ^ 32
        fw := s.rdF R.MGMT_FW_STAT F.MGMT_FW_STAT_FW_RUN } ∧
      t.lode.log.getLast? = some y ∧
      (s.lode.log.length < 4096 → t.lode.log = s.lode.log ++ [y] ∧ t.rd R.PANEL_FLT_DROP_CNT = s.rd R.PANEL_FLT_DROP_CNT) ∧
      (s.lode.log.length = 4096 → t.lode.log.length = 4096 ∧ Counted s t R.PANEL_FLT_DROP_CNT) ∧
      (s.lode.flash.length ≤ 256 → t.lode.flash.length ≤ 256) ∧ t.lode.flash.getLast? = some y ∧
      (r.part < 64 → t.rd (R.PART_FLT_LAST r.part) =
        BitVec.ofNat 64 (r.kind * 2 ^ 56 + r.cls * 2 ^ 52 + r.action * 2 ^ 40 + (s.lode.records + 1) % 2 ^ 32)) ∧
      CtxSame s t ∧ MemSame s t ∧ StepSame s t ∧ FabricSame s t) ∧
  (∀ s, s.fsrPend = [] ∨ s.lode.up = false → exec .fsrWrite s = .next s) ∧
  (∀ (n : Fin 10) s r, s.nextRecord n = some r → s.lode.up = true →
    ∃ t, exec (.fsrExport n) s = .next t ∧ t.lode.sent = s.lode.sent ++ [(n.val, r.faultEvent)] ∧
      (SMap.get t.lode.subs ⟨0, none⟩ n.val).last = r.recId ∧ t.lode.log = s.lode.log ∧ CsrsBut s t [] ∧ CtxSame s t ∧
      MemSame s t) ∧
  (∀ (n : Fin 8) s r, let x := SMap.get s.lode.subs ⟨0, none⟩ n.val
    s.nextRecord n = some r → s.lode.up = true →
    (∃ t, exec (.fsrPushRetry n true) s = .next t ∧ t.lode.sent = s.lode.sent ++ [(n.val, r.faultEvent)] ∧
      (SMap.get t.lode.subs ⟨0, none⟩ n.val).last = r.recId) ∧
    (∃ t, exec (.fsrPushRetry n false) s = .next t ∧ t.lode.sent = s.lode.sent ∧
      SMap.get t.lode.subs ⟨0, none⟩ n.val = match x.since with
        | none => { x with since := some s.time.ns.toNat }
        | some w => if w + 3600 * 10 ^ 9 ≤ s.time.ns.toNat then ⟨r.recId, none⟩ else x)) ∧
  (∀ r : Fsr, r.body.length = 144 + r.capture.length ∧ leNat (r.body.take 4) = 0x31525346)

namespace Sys2Proof.Claim

/-! Power, start-up, resets and Lodestar. -/

/-- BOOT_STAT shows a phase, a cause of failure and an item. -/
def Phased (t : State) (ph cause item : Nat) : Prop :=
  t.phase = ph ∧ t.rdF R.MGMT_BOOT_STAT F.MGMT_BOOT_STAT_FAIL = cause ∧ t.rdF R.MGMT_BOOT_STAT F.MGMT_BOOT_STAT_ITEM = item

/-- Every unit is as after reset: memory, program contexts, traps, steps, Span, the queues and PTP are empty, and every register
below Lodestar's has its reset value (R465). Of a cell the times of its TRANSIENT records alone stay, as the records do (R436,
R444). -/
def UnitsLost (s t : State) : Prop :=
  MemSame State.reset t ∧ StepSame State.reset t ∧ (∀ k, t.cell k = { CellCtx.reset with trans := (s.cell k).trans }) ∧
    (∀ d p, t.ctx (.zen d p) = CellCtx.reset) ∧ (∀ a, a < mgmtBase → t.rd a = csrReset a) ∧ t.traps = [] ∧
    t.span = [] ∧ t.fencing = [] ∧ t.rejoined = [] ∧ t.wear = [] ∧ t.ptp = PtpSt.reset ∧
    t.net = { NetSt.reset with out := t.net.out }

/-- Lodestar, its log and its registers but those of `l` are as they were; the power mode takes its default (R1). -/
def LodestarKept (s t : State) (l : List Nat) : Prop :=
  t.lode = s.lode ∧ t.fsrPend = s.fsrPend ∧ t.rd R.MGMT_PWR_CFG = csrReset R.MGMT_PWR_CFG ∧
    ∀ a, mgmtBase ≤ a → a ∉ R.MGMT_PWR_CFG :: l → t.rd a = s.rd a

/-- The rails are off and PWR_OK is negated. -/
def RailsOff (s t : State) : Prop := UnitsLost s t ∧ t.pwr.ok = false ∧ t.pwr.alert = false

/-- The module has failed with a cause and an item: FAULT_N is asserted and Lodestar stays (R460). -/
def Failed (s t : State) (cause item : Nat) : Prop :=
  RailsOff s t ∧ Phased t phFailed cause item ∧ t.pwr.fault = true ∧
    LodestarKept s t [R.MGMT_BOOT_STAT, R.MGMT_SVC_STAT, R.MGMT_FW_STAT]

/-- FAREWELL frames with a reason have left for every peer that the armed entries of every partition name, where the module has an
identity (R370, R386). -/
def FarewellsSent (s t : State) (reason : Nat) : Prop :=
  ∃ l, t.net.out = s.net.out ++ l ∧ (∀ x ∈ l, x.srcMod = s.modId ∧ ∃ ip p, x.frame = .farewell ip p reason s.time.ns) ∧
    ∀ p ent, p < 64 → ent ∈ s.armedEnts p → s.modId ≠ 0 → s.linkIs (s.entry p ent).subPort = true →
      ∃ x ∈ l, x.sub = (s.entry p ent).subPort ∧
        x.frame = .farewell (s.peerIp ent (s.entry p ent)) p reason s.time.ns

/-- The fuses name no register of a cell but those of its repair maps. -/
def FusesGood (s : State) : Prop :=
  ∀ x ∈ s.lode.fuses, 0x10000000 ≤ x.1 → x.1 < 0x20000000 → 0xA00 ≤ x.1 % 0x10000

/-- A start-up command after RAILS with the phase before it. -/
def PhaseCmd (i : Instr) (before : Nat) : Prop :=
  (∃ ok item, i = .startupFuses ok item ∧ before = phRails) ∨ (i = .startupConfig ∧ before = phFuses) ∨
    (∃ l, i = .startupStacks l ∧ before = phConfig) ∨ (i = .startupCells ∧ before = phStacks) ∨
    (∃ l, i = .startupLinks l ∧ before = phCells) ∨ (i = .startupTime ∧ before = phLinks) ∨
    (i = .startupReady ∧ before = phTime)

/-- The signing state as Lodestar finds it when it starts (R479). -/
def SigningStarted (s t : State) : Prop :=
  let c := s.lode.burned.length
  (∀ k leaf, s.lode.clean = some (k, leaf) → k + 1 = c → leaf ≤ 1024 → c ≤ 1024 →
    t.rdF R.MGMT_ID_STAT F.MGMT_ID_STAT_CHUNK = k ∧ t.rdF R.MGMT_ID_STAT F.MGMT_ID_STAT_LEAF = leaf) ∧
  (s.lode.clean = none → t.rdF R.MGMT_ID_STAT F.MGMT_ID_STAT_LEAF = 1024) ∧
  (t.idState = idUncertain ↔
    (∃ n, n < c ∧ n ∉ s.lode.burned) ∨ (∃ k leaf, s.lode.clean = some (k, leaf) ∧ c ≤ k) ∨ s.idState = idUncertain) ∧
  t.rdF R.MGMT_ID_STAT F.MGMT_ID_STAT_LEFT =
    if s.lode.loaded = true then 1024 - c else s.rdF R.MGMT_ID_STAT F.MGMT_ID_STAT_LEFT

/-- Lodestar runs an image from a slot: its registers, M0 and M1 alone are extended, and its signing state. The fused SVN shows once
FUSES has loaded it (R458). -/
def Started (s t : State) (b fallback : Bool) (i : FwImage) : Prop :=
  t.lode.up = true ∧ t.runSlot = b ∧ t.rdF R.MGMT_FW_STAT F.MGMT_FW_STAT_FALLBACK = bnat fallback ∧
    t.rdF R.MGMT_FW_STAT F.MGMT_FW_STAT_SVN_FUSE =
      (if s.lode.loaded = true then s.lode.svn else s.rdF R.MGMT_FW_STAT F.MGMT_FW_STAT_SVN_FUSE) ∧
    t.rdF R.MGMT_FW_STAT F.MGMT_FW_STAT_SVN_RUN = imgSvn i ∧
    t.rdF R.MGMT_FW_STAT F.MGMT_FW_STAT_FW_RUN = imgFw i ∧ SMap.get t.lode.meas [] 0 = [.rom s.lode.svn] ∧
    SMap.get t.lode.meas [] 1 = [.image i] ∧ (∀ k, 2 ≤ k → SMap.get t.lode.meas [] k = []) ∧
    t.lode = { s.lode with up := true, meas := t.lode.meas, boot := t.lode.boot, clean := t.lode.clean } ∧
    MemSame s t ∧ StepSame s t ∧ CtxSame s t

/-- A reset command may be performed: the management port is up and no reset is in progress (R451, R465). -/
def RstFree (s : State) : Prop := s.mgmtUp = true ∧ s.rdF R.MGMT_RST_STAT F.MGMT_RST_STAT_STATE ≠ 1

/-- What a reset of the unit that holds the frames of which `unit` is true does to the moves that have not committed (R323), where
at most one is in progress: one to a frame of the unit is abandoned, one from a frame of it starts again at line 0. -/
def UnitMoves (s t : State) (unit : Nat → Bool) : Prop :=
  (s.tiers.moves = [] → MemSame s t) ∧
  ∀ pg m, let e := s.ent pg
    s.tiers.moves = [(pg, m)] → e.st = .copy ∨ e.st = .switch →
    (unit e.dest = true → t.ent pg = { e with st := .homed, dest := 0 } ∧ t.tiers.moves = [] ∧ t.bytes = s.bytes ∧
      t.frames = s.frames.filter (· != e.dest)) ∧
    (unit e.dest = false → unit e.home = true → t.ent pg = { e with st := .copy } ∧
      t.tiers.moves = [(pg, ⟨locDie e.home, []⟩)] ∧ t.frames = s.frames ∧
      (Memory.wf s.bytes = true → Sound s → CopiedLines s t e.home e.dest fun _ => true))

/-- RST_STAT shows a reset done. -/
def RstDone (t : State) : Prop := t.rdF R.MGMT_RST_STAT F.MGMT_RST_STAT_STATE = 2

end Sys2Proof.Claim

/-- R453, R454, R456, R491: a sample's effective cap, the clock step that follows, the counters and the registers that show them,
and ALERT_N. -/
def Sys2Proof.Claim.PowerSamples : Prop :=
  (∀ m s, let a := R.PANEL_PWR_STAT
    let i := if 0 < m.maA ∧ 0 < m.maB then 380 else 190
    let oper := if flag (s.rd R.MGMT_PWR_CFG) 16 then 1000 * s.rdF R.MGMT_PWR_CFG F.MGMT_PWR_CFG_CAP else 17500000
    let eff := min 17500000 (min oper (i * m.mv))
    let step := s.rdF a F.PANEL_PWR_STAT_FSTEP
    let fast := (i + 10) * 1000 < m.maA + m.maB ∨ 200000 < m.maA ∨ 200000 < m.maB ∨ 105 * eff < 100 * m.mw ∨
      (s.pwr.pairs = true ∧ i = 190)
    let slow := eff < m.mw ∨ 950 < m.tj
    let low := if 100 * m.mw < 97 * eff then min (s.pwr.low + 1) 10 else 0
    s.pwr.ok = true →
    ∃ t, exec (.powerSample m) s = .next t ∧
      (fast → t.rdF a F.PANEL_PWR_STAT_FSTEP = min (step + 8) 35 ∧ Counted s t R.PANEL_THR_FAST_CNT) ∧
      (¬ fast → t.rd R.PANEL_THR_FAST_CNT = s.rd R.PANEL_THR_FAST_CNT) ∧
      (¬ fast → slow → t.rdF a F.PANEL_PWR_STAT_FSTEP = min (step + 1) 35) ∧
      (¬ fast → ¬ slow → low = 10 → m.tj ≤ 930 → t.rdF a F.PANEL_PWR_STAT_FSTEP = step - 1) ∧
      (¬ fast → ¬ slow → low < 10 ∨ 930 < m.tj → t.rdF a F.PANEL_PWR_STAT_FSTEP = step) ∧
      t.pwr.low = low ∧ t.rdF a F.PANEL_PWR_STAT_PIN = m.mw / 1000 % 2 ^ 16 ∧
      t.rdF a F.PANEL_PWR_STAT_PEFF = eff / 1000 ∧ t.rdF a F.PANEL_PWR_STAT_VIN = m.mv / 250 % 2 ^ 8 ∧
      (t.rdF a F.PANEL_PWR_STAT_THERM = 1 ↔ 950 < m.tj) ∧
      (t.rdF a F.PANEL_PWR_STAT_ILIM = 1 ↔ i * m.mv < 17500000 ∧ i * m.mv < oper) ∧
      (0 < t.rdF a F.PANEL_PWR_STAT_FSTEP → Counted s t R.PANEL_THR_CNT) ∧
      (t.pwr.alert = true ↔ (0 < t.rdF a F.PANEL_PWR_STAT_FSTEP ∧ (17500000 ≤ oper ∨ i * m.mv < oper)) ∨ 950 < m.tj ∨
        60000 < m.mv) ∧
      CsrsBut s t [a, R.PANEL_THR_CNT, R.PANEL_THR_FAST_CNT] ∧ CtxSame s t ∧ MemSame s t) ∧
  (∀ v s, let cap := fld v 15 0
    s.mgmtUp = true →
    (4000 ≤ cap → cap ≤ 17500 → Writable R.MGMT_PWR_CFG v →
      ∃ t, exec (.pwrCfgWrite .mgmt v) s = .next t ∧ t.rd R.MGMT_PWR_CFG = putVal R.MGMT_PWR_CFG (s.rd R.MGMT_PWR_CFG) v ∧
        t.rdF R.PANEL_PWR_STAT F.PANEL_PWR_STAT_MODE = fld v 16 16 ∧ OnlyCsrs s t [R.MGMT_PWR_CFG, R.PANEL_PWR_STAT]) ∧
    (cap < 4000 ∨ 17500 < cap →
      ∃ t, exec (.pwrCfgWrite .mgmt v) s = .next t ∧ Counted s t R.MGMT_CSR_VIOL_CNT ∧ OnlyCsrs s t [R.MGMT_CSR_VIOL_CNT]))

/-- R452, R456, R460, R466: a thermal trip fails the module without a FAREWELL; a loss of input takes everything but flash and
fuses; PWR_EN starts a failed module again, powers a READY module down after its FAREWELLs, and abandons a start-up. -/
def Sys2Proof.Claim.PowerEvents : Prop :=
  (∀ s, s.pwr.ok = true →
    ∃ t, exec .thermalTrip s = .next t ∧ Failed s t 6 0 ∧ t.net.out = s.net.out) ∧
  (∀ s, s.pwr.input = true →
    ∃ t, exec .inputLoss s = .next t ∧ RailsOff s t ∧ (∀ a, t.rd a = csrReset a) ∧ t.pwr.input = false ∧ t.pwr.en = s.pwr.en ∧
      t.fsrPend = [] ∧ t.net.out = s.net.out ∧ t.lode = { s.lode with up := false, loaded := false, meas := [], log := [] }) ∧
  (∀ s, s.pwr.input = false →
    ∃ t, exec .inputRestore s = .next t ∧ t = { s with pwr := { s.pwr with input := true } }) ∧
  (∀ s, s.pwr.en = false →
    ∃ t, exec .pwrEnRise s = .next t ∧ t.lode = s.lode ∧ CtxSame s t ∧ MemSame s t ∧
      (s.phase = phFailed → Phased t phOff 0 0 ∧ t.pwr.fault = false) ∧
      (s.phase ≠ phFailed → t = { s with pwr := { s.pwr with en := true } })) ∧
  (∀ s, s.pwr.en = true →
    (s.phase = phReady → ∃ t, exec .pwrEnFall s = .next t ∧ RailsOff s t ∧ Phased t phOff 0 0 ∧ t.pwr.en = false ∧
      FarewellsSent s t 1 ∧ LodestarKept s t [R.MGMT_BOOT_STAT, R.MGMT_SVC_STAT]) ∧
    (s.phase ≠ phReady → s.phase ≠ phFailed → ∃ t, exec .pwrEnFall s = .next t ∧ RailsOff s t ∧ Phased t phOff 0 0 ∧
      t.pwr.en = false ∧ t.net.out = s.net.out ∧ LodestarKept s t [R.MGMT_BOOT_STAT, R.MGMT_SVC_STAT]))

/-- R458-R460, R473: each phase of start-up begins only after the one before it, does its work, and shows itself; the causes of
failure fail the module.
Model's choices: log entries 10 and 49. -/
def Obligations.StartUpPhases : Prop :=
  (∀ i ph s, PhaseCmd i ph → s.phase ≠ ph → exec i s = .next s) ∧
  (∀ s, let b := s.bootSlot
    s.pwr.input = true → s.lode.up = false → s.phase = phOff →
    (∀ i, s.lode.img b = some i → s.verifies i = true →
      ∃ t, exec .startupRom s = .next t ∧ Started s t b false i ∧ SigningStarted s t ∧
        Phased t (if s.pwr.en then phRom else phOff) 0 0) ∧
    (∀ i, s.slotOk b = false → s.lode.img (!b) = some i → s.verifies i = true →
      ∃ t, exec .startupRom s = .next t ∧ Started s t (!b) true i ∧ SigningStarted s t ∧
        Phased t (if s.pwr.en then phRom else phOff) 0 0) ∧
    (s.slotOk b = false → s.slotOk (!b) = false → ∃ t, exec .startupRom s = .next t ∧ Failed s t 1 0)) ∧
  (∀ s, s.pwr.input = true → s.lode.up = true → s.pwr.en = true → s.phase = phOff ∨ s.phase = phRom →
    (∃ t, exec (.startupRails true true) s = .next t ∧ Phased t phRails 0 0 ∧ t.pwr = { s.pwr with ok := true, fs := 0 } ∧
      CsrsBut s t [R.MGMT_BOOT_STAT] ∧ CtxSame s t ∧ MemSame s t) ∧
    (∀ a b, a = false ∨ b = false → ∃ t, exec (.startupRails a b) s = .next t ∧ Failed s t 2 0)) ∧
  (∀ s item, s.phase = phRails →
    (FusesGood s →
      ∃ t, exec (.startupFuses true item) s = .next t ∧ Phased t phFuses 0 0 ∧
        (∀ (d : Fin 16) j, j < 8 → t.rd (R.DIE_LMAPj d j) = s.fuseLmap d j) ∧
        (∀ c, t.slotState c = s.fuseState c ∧ fld (t.rd (slotReg c)) (slotFld c).1 (slotFld c).2 = s.fuseState c) ∧
        (∀ c k, s.fuseState c = slotActive → s.fuseRank c = some k → t.logical c = 64 * c.die.val + k) ∧
        (s.lode.svn ≤ 64 → t.rdF R.MGMT_FW_STAT F.MGMT_FW_STAT_SVN_FUSE = s.lode.svn) ∧
        t.rdF R.MGMT_ID_STAT F.MGMT_ID_STAT_LEFT = 1024 - s.lode.burned.length ∧
        t.lode = { s.lode with meas := t.lode.meas, loaded := true } ∧
        SMap.get t.lode.meas [] 3 = SMap.get s.lode.meas [] 3 ++ [.fuses s.lode.fuses] ∧ CtxSame s t ∧ MemSame s t) ∧
    (∃ t, exec (.startupFuses false item) s = .next t ∧ Failed s t 3 item.toNat)) ∧
  (∀ s, s.phase = phFuses →
    (∀ c, s.lode.newest = some c → ∃ t, exec .startupConfig s = .next t ∧ Phased t phConfig 0 0 ∧
      (∀ r ∈ cfgRegs, t.rd r.1 &&& BitVec.ofNat 64 r.2 = SMap.get c.vals 0 r.1 &&& BitVec.ofNat 64 r.2 ∧
        t.rd r.1 &&& ~~~BitVec.ofNat 64 r.2 = s.rd r.1 &&& ~~~BitVec.ofNat 64 r.2) ∧
      SMap.get t.lode.meas [] 2 = SMap.get s.lode.meas [] 2 ++ [.config c] ∧ CtxSame s t ∧ MemSame s t) ∧
    (s.lode.newest = none → ∃ t, exec .startupConfig s = .next t ∧ Failed s t 4 0)) ∧
  (∀ s, s.phase = phConfig →
    (∃ t, exec (.startupStacks []) s = .next t ∧ Phased t phStacks 0 0 ∧ OnlyCsrs s t [R.MGMT_BOOT_STAT]) ∧
    (∀ n (l : Fin 128) ch r, s.physChan n.val l = ch.val → MapGood s n.val → s.spareIn n.val 0 = some r →
      ∃ t, exec (.startupStacks [(n, ch)]) s = .next t ∧ Phased t phStacks 0 0 ∧
        some (t.physChan n.val l) = (s.spareChans n.val)[r]? ∧
        (∀ k, k < 128 → k ≠ l.val → t.physChan n.val k = s.physChan n.val k) ∧
        ∃ x, (t.spareChans n.val)[x]? = some ch.val ∧ t.chanSt n.val x = 3) ∧
    (∀ n ch x, MapGood s n.val → (s.spareChans n.val)[x]? = some ch.val →
      ∃ t, exec (.startupStacks [(n, ch)]) s = .next t ∧ Phased t phStacks 0 0 ∧ t.chanSt n.val x = 3 ∧
        OnlyCsrs s t [R.STK_SPARE n.val, R.MGMT_BOOT_STAT]) ∧
    (∀ n (l : Fin 128) ch, s.physChan n.val l = ch.val → s.spareIn n.val 0 = none →
      ∃ t, exec (.startupStacks [(n, ch)]) s = .next t ∧ Failed s t 5 n.val)) ∧
  (∀ s, s.phase = phStacks → FusesGood s →
    ∃ t, exec .startupCells s = .next t ∧ Phased t phCells 0 0 ∧ t.dir = s.dir ∧ t.frames = s.frames ∧ t.lode = s.lode ∧
      ∀ k, t.slotState k = s.slotState k ∧ t.rd (R.CELL_ID k) = s.rd (R.CELL_ID k) ∧
        if s.released k = true then
          t.cell k = { CellCtx.reset with trans := (s.cell k).trans } ∧ t.runState k = stIdle ∧
            t.rdF (R.CELL_CLK_STAT k) F.CELL_CLK_STAT_RUN = 0 ∧
            (∀ l o, locOwner l = some k → o < pageSize → SMap.get t.bytes 0 (l * pageSize + o) = 0) ∧
            ∀ x ∈ t.ue, locOwner (x / 8192) ≠ some k
        else t.cell k = s.cell k ∧ t.runState k = s.runState k ∧
          ∀ l o, locOwner l = some k → o < pageSize →
            SMap.get t.bytes 0 (l * pageSize + o) = SMap.get s.bytes 0 (l * pageSize + o)) ∧
  (∀ s, s.phase = phLinks →
    ∃ t, exec .startupTime s = .next t ∧ Phased t phTime 0 0 ∧ OnlyCsrs s t [R.MGMT_BOOT_STAT]) ∧
  (∀ up s, s.phase = phCells →
    ∃ t, exec (.startupLinks up) s = .next t ∧ Phased t phLinks 0 0 ∧
      ∀ u, (t.rdF (ethStat u) F.HZN_ETH_STATq_UP).testBit u.k.val = true ↔
        (u ∈ up ∧ s.subEnabled u = true) ∨ (s.rdF (ethStat u) F.HZN_ETH_STATq_UP).testBit u.k.val = true) ∧
  (∀ s, s.phase = phTime →
    ∃ t, exec .startupReady s = .next t ∧ Phased t phReady 0 0 ∧ OnlyCsrs s t [R.MGMT_BOOT_STAT] ∧
      (t.rdF R.MGMT_BOOT_STAT F.MGMT_BOOT_STAT_NOTIME = 1 ↔ s.merState ≠ merLocked))

/-- R463, R464: the clock of an idle cell stops after 4,096 cc and a wake request starts it. R362, R385, R465-R467: each reset,
commanded by the management plane, has the effect of its kind and ends done.
Model's choices: log entries 50, 69 and 70. -/
def Obligations.ResetsAndClocks : Prop :=
  (∀ c s, 4096 ≤ (s.cell c).idle → s.clockIdle c = true →
    ∃ t, exec (.cellClockStop c) s = .next t ∧ t.rdF (R.CELL_CLK_STAT c) F.CELL_CLK_STAT_RUN = 0 ∧
      OnlyCsrs s t [R.CELL_CLK_STAT c]) ∧
  (∀ c s, ∃ t, exec (.cellWake c) s = .next t ∧ Woken s t c ∧ t.cell c = { s.cell c with idle := 0 } ∧
    CsrsBut s t [R.CELL_CLK_STAT c, R.CELL_WAKE_CNT c] ∧ CtxsBut s t (.cell c) ∧ OnlyRegs s t) ∧
  (∀ s, RstFree s → s.pwr.ok = true →
    (∃ t, exec (.resetModule .mgmt) s = .next t ∧ RstDone t ∧ UnitsLost s t ∧ Phased t phRails 0 0 ∧ t.pwr = s.pwr ∧
      FarewellsSent s t 0 ∧ LodestarKept s t [R.MGMT_BOOT_STAT, R.MGMT_SVC_STAT, R.MGMT_RST_STAT]) ∧
    (∃ t, exec (.resetModuleAbrupt .mgmt) s = .next t ∧ RstDone t ∧ UnitsLost s t ∧ Phased t phRails 0 0 ∧ t.pwr = s.pwr ∧
      t.net.out = s.net.out ∧ LodestarKept s t [R.MGMT_BOOT_STAT, R.MGMT_SVC_STAT, R.MGMT_RST_STAT])) ∧
  (∀ s, RstFree s → s.pwr.ok = false → s.phase = phFailed →
    ∃ t, exec (.resetModuleAbrupt .mgmt) s = .next t ∧ RstDone t ∧ Phased t phOff 0 0 ∧ t.pwr.fault = false) ∧
  (∀ c s, RstFree s →
    (s.slotState c = slotFenced ∨ s.slotState c = slotSpare →
      ∃ t, exec (.resetCell .mgmt c) s = .next t ∧ RstDone t ∧ t.runState c = stIdle ∧ t.pc (.cell c) = 0 ∧
        t.cell c = { CellCtx.reset with tester := (s.cell c).tester, trans := (s.cell c).trans } ∧
        t.rd (R.CELL_SEQ_ISSUE_CNT c) = 0 ∧ t.rd (R.CELL_VIOL_CNT c) = 0 ∧ t.slotState c = s.slotState c ∧
        CtxsBut s t (.cell c) ∧ UnitMoves s t (fun f => decide (locOwner f = some c)) ∧
        (s.tiers.moves = [] → ServiceSame s t)) ∧
    (s.slotState c = slotActive ∨ s.slotState c = slotRetired →
      ∃ t, exec (.resetCell .mgmt c) s = .next t ∧ Counted s t R.MGMT_CSR_VIOL_CNT ∧ OnlyCsrs s t [R.MGMT_CSR_VIOL_CNT])) ∧
  (∀ (n : Fin 32) s, RstFree s →
    ∃ t, exec (.resetStackCtl .mgmt n) s = .next t ∧ RstDone t ∧
      (s.remapSt n = remapCopying → t.remapSt n = remapAborted ∧ t.rdF (R.STK_REMAP_CTL n) F.STK_REMAP_CTL_WHY = 3) ∧
      UnitMoves s t (fun f => locIsStack f && decide (locStackNo f = n.val)) ∧ CtxSame s t) ∧
  (∀ (d : Fin 16) s, RstFree s →
    ∃ t, exec (.resetComet .mgmt d) s = .next t ∧ RstDone t ∧ t.bytes = s.bytes ∧ t.ue = s.ue ∧ t.ce = s.ce ∧
      ((∀ x ∈ s.tiers.moves, x.2.die ≠ d) → t.dir = s.dir ∧ t.frames = s.frames) ∧
      (∀ pg m, s.tiers.moves = [(pg, m)] → m.die = d → (s.ent pg).st = .copy ∨ (s.ent pg).st = .switch →
        t.ent pg = { s.ent pg with st := .homed, dest := 0 } ∧ t.tiers.moves = []) ∧
      CtxSame s t) ∧
  (∀ sp s, RstFree s →
    ∃ t, exec (.resetSpanPort .mgmt sp) s = .next t ∧ RstDone t ∧ t.linkSt sp = linkTraining ∧
      Counted s t (spanRetrainCnt sp) ∧ t.spn sp = s.spn sp ∧
      CsrsBut s t [spanStat sp, spanRetrainCnt sp, R.MGMT_RST_STAT] ∧ CtxSame s t ∧ MemSame s t) ∧
  (∀ u s, RstFree s → s.net.stage = [] → (∀ q ∈ s.net.wait, q.sub = u → q.own = none) →
    ∃ t, exec (.resetEthSub .mgmt u) s = .next t ∧ RstDone t ∧
      (t.rdF (ethStat u) F.HZN_ETH_STATq_UP).testBit u.k.val = false ∧ Flushed s t (fun v => decide (v = u)) ∧
      OnlyNet s t [ethStat u, R.MGMT_RST_STAT]) ∧
  (∀ (h : Fin 4) s, RstFree s → s.net.stage = [] → (∀ q ∈ s.net.wait, q.sub.h = h → q.own = none) →
    ∃ t, exec (.resetHznMac .mgmt h) s = .next t ∧ RstDone t ∧
      (∀ u : SubPort, u.h = h → (t.rdF (ethStat u) F.HZN_ETH_STATq_UP).testBit u.k.val = false) ∧
      Flushed s t (fun v => decide (v.h = h)) ∧ OnlyNet s t (R.MGMT_RST_STAT :: (List.range 8).map (R.HZN_ETH_STATq h.val)))

/-- R471-R476, R478-R481: what an image must hold to verify, the firmware commands, an update, the boot that falls back, the two
copies of the configuration, and the quote with the leaf that signs it.
Model's choices: log entries 5, 10, 14, 52, 53 and 54. -/
def Obligations.FirmwareAndIdentity : Prop :=
  (∀ (s : State) b, s.slotOk b = true ↔ ∃ i, s.lode.img b = some i ∧ headerOk i = true ∧ s.lode.svn ≤ imgSvn i ∧ imgSvn i ≤ 64 ∧
    i.sigOk = true ∧ i.hashOk = true) ∧
  (∀ s, s.rdF R.MGMT_FW_STAT F.MGMT_FW_STAT_BUSY = 0 → s.mgmtUp = true →
    (∃ t, exec (.fwVerify .mgmt) s = .next t ∧ t.rdF R.MGMT_FW_STAT F.MGMT_FW_STAT_OK_A = bnat (s.slotOk false) ∧
      t.rdF R.MGMT_FW_STAT F.MGMT_FW_STAT_OK_B = bnat (s.slotOk true) ∧ OnlyCsrs s t [R.MGMT_FW_STAT]) ∧
    (∀ i, s.lode.img (!s.runSlot) = some i → s.verifies i = true →
      ∃ t, exec (.fwActivate .mgmt) s = .next t ∧ t.lode.boot = some (!s.runSlot) ∧ t.lode.clean = s.cleanRecord ∧
        Started s t (!s.runSlot) false i) ∧
    (s.slotOk (!s.runSlot) = false →
      ∃ t, exec (.fwActivate .mgmt) s = .next t ∧ OnlyCsrs s t [R.MGMT_FW_STAT] ∧ t.rdF R.MGMT_FW_STAT
        (if s.runSlot then F.MGMT_FW_STAT_OK_A else F.MGMT_FW_STAT_OK_B) = 0) ∧
    (∃ t, exec (.fwCommitSvn .mgmt) s = .next t ∧
      t.lode = { s.lode with svn := max s.lode.svn (s.rdF R.MGMT_FW_STAT F.MGMT_FW_STAT_SVN_RUN) } ∧
      (s.lode.svn < s.rdF R.MGMT_FW_STAT F.MGMT_FW_STAT_SVN_RUN → s.lode.loaded = true →
        t.rdF R.MGMT_FW_STAT F.MGMT_FW_STAT_SVN_FUSE = s.rdF R.MGMT_FW_STAT F.MGMT_FW_STAT_SVN_RUN) ∧
      CsrsBut s t [R.MGMT_FW_STAT, R.MGMT_ID_STAT] ∧ CtxSame s t ∧ MemSame s t) ∧
    (∀ i, ∃ t, exec (.fwUpdate i) s = .next t ∧ t.lode.img (!s.runSlot) = some i ∧
      t.lode.img s.runSlot = s.lode.img s.runSlot ∧ t.runSlot = s.runSlot ∧ t.rdF R.MGMT_FW_STAT
        (if s.runSlot then F.MGMT_FW_STAT_OK_A else F.MGMT_FW_STAT_OK_B) = bnat (s.verifies i) ∧
      CsrsBut s t [R.MGMT_FW_STAT] ∧ CtxSame s t ∧ MemSame s t)) ∧
  (∀ s, s.lode.up = true →
    (∀ i, s.lode.img (!s.runSlot) = some i → s.verifies i = true →
      ∃ t, exec .fwBootTimeout s = .next t ∧ Counted s t R.MGMT_FW_FAIL_CNT ∧ Started s t (!s.runSlot) true i) ∧
    (s.slotOk (!s.runSlot) = false →
      ∃ t, exec .fwBootTimeout s = .next t ∧ Counted s t R.MGMT_FW_FAIL_CNT ∧ RailsOff s t ∧ Phased t phFailed 1 0 ∧
        t.lode = { s.lode with up := false }) ∧
    (∀ c, s.lode.newest = some c → c.vals ≠ s.cfgNow →
      ∃ t, exec .configWrite s = .next t ∧ let n : CfgCopy := ⟨max s.lode.cfg0.gen s.lode.cfg1.gen + 1, true, s.cfgNow⟩
        t.lode.newest = some n ∧
        (t.lode = { s.lode with cfg0 := n } ∨ t.lode = { s.lode with cfg1 := n }) ∧
        (s.lode.cfg0.gen < s.lode.cfg1.gen → t.lode.cfg0 = n) ∧ (s.lode.cfg1.gen < s.lode.cfg0.gen → t.lode.cfg1 = n) ∧
        OnlyCsrs s { t with lode := s.lode } []) ∧
    (∀ l, (∃ t, exec (.configurationUpdate l true) s = .next t ∧ t.lode.cfg0.gen = 1 ∧ t.lode.cfg0.ok = true ∧
        t.lode = { s.lode with cfg0 := t.lode.cfg0 } ∧ OnlyCsrs s { t with lode := s.lode } []) ∧
      exec (.configurationUpdate l false) s = .next s)) ∧
  (∀ nonce ok s, let leaf := s.rdF R.MGMT_ID_STAT F.MGMT_ID_STAT_LEAF
    let chunk := s.rdF R.MGMT_ID_STAT F.MGMT_ID_STAT_CHUNK
    let c := s.lode.burned.length
    let q : Nat → QuoteRec := fun ix => ⟨s.rd R.PANEL_ID, (s.rd R.PANEL_MOD_ID).toNat % 2 ^ 32,
      s.rdF R.MGMT_FW_STAT F.MGMT_FW_STAT_FW_RUN, s.time.ns, nonce, bnat s.runSlot,
      s.rdF R.MGMT_FW_STAT F.MGMT_FW_STAT_SVN_FUSE, s.phase, ix, s.lode.meas⟩
    s.lode.up = true →
    (s.idState ≠ idUncertain → leaf < 1024 →
      ∃ t, exec (.quote nonce ok) s = .next t ∧ t.lode.quotes = s.lode.quotes ++ [q (1024 * chunk + leaf)] ∧
        t.rdF R.MGMT_ID_STAT F.MGMT_ID_STAT_LEAF = leaf + 1 ∧ t.rdF R.MGMT_ID_STAT F.MGMT_ID_STAT_CHUNK = chunk ∧
        t.lode.burned = s.lode.burned ∧ t.lode.clean = none ∧ CsrsBut s t [R.MGMT_ID_STAT, R.MGMT_FW_STAT]) ∧
    (s.idState ≠ idUncertain → 1024 ≤ leaf → c < 1024 → ok = true →
      ∃ t, exec (.quote nonce ok) s = .next t ∧ t.lode.quotes = s.lode.quotes ++ [q (1024 * c)] ∧
        t.lode.burned = s.lode.burned ++ [c] ∧ t.rdF R.MGMT_ID_STAT F.MGMT_ID_STAT_LEAF = 1 ∧
        t.rdF R.MGMT_ID_STAT F.MGMT_ID_STAT_CHUNK = c ∧ (s.lode.loaded = true → t.rdF R.MGMT_ID_STAT F.MGMT_ID_STAT_LEFT = 1024 - (c + 1)) ∧
        t.lode.clean = none ∧ CsrsBut s t [R.MGMT_ID_STAT, R.MGMT_FW_STAT]) ∧
    (s.idState = idUncertain ∨ (1024 ≤ leaf ∧ (1024 ≤ c ∨ ok = false)) →
      ∃ t, exec (.quote nonce ok) s = .next t ∧ t.lode = s.lode ∧ Counted s t R.MGMT_ID_REFUSE_CNT ∧
        (s.idState ≠ idUncertain → t.idState = if 1024 ≤ c then idExhausted else idUncertain) ∧
        CsrsBut s t [R.MGMT_ID_STAT, R.MGMT_FW_STAT, R.MGMT_ID_REFUSE_CNT]))

namespace Sys2Proof.Claim

/-! Whole-machine statements. -/

/-- Memory is in its canonical form: byte addresses strictly rising, and no byte listed that is 0. -/
def MemoryCanonical (s : State) : Prop := Memory.wf s.bytes = true

/-- What Lodestar keeps in order: the burned chunk bits are contiguous from bit 0 and at most 1,024 (R477); the records of the
log and of the flash copy rise by Record ID, none beyond the last one given, and neither holds more than its size (R444). -/
def HistoryKept (s : State) : Prop :=
  s.lode.burned = List.range s.lode.burned.length ∧ s.lode.burned.length ≤ 1024 ∧
    (s.lode.log.Pairwise fun a b => a.recId < b.recId) ∧ (∀ r ∈ s.lode.log, r.recId ≤ s.lode.records) ∧
    s.lode.log.length ≤ 4096 ∧ (s.lode.flash.Pairwise fun a b => a.recId < b.recId) ∧
    (∀ r ∈ s.lode.flash, r.recId ≤ s.lode.records) ∧ s.lode.flash.length ≤ 256

end Sys2Proof.Claim

/-- R9, R270, R278, R458: reset. Registers whose reset value is not zero have it, the others that programs meet first read zero,
every cell is IDLE at PC 0 with p7 true and every other register zero, memory lists nothing, no command waits, the module is in
standby, and the invariants of the statements below hold.
Model's choices: log entries 13, 16, 62 and 63. -/
def Obligations.ResetValues : Prop :=
  let z := State.reset
  (z.rd R.PANEL_ID = 0x5A17102402410100 ∧ z.rd R.PANEL_ASTP_CFG = 0x4032000A1BE4 ∧ z.rd R.PANEL_PTP_CFG = 0x640000000000 ∧
    z.rd R.PANEL_PLX_TOL0 = 0x0100000000100000 ∧ z.rd R.PANEL_PWR_STAT = 0x445C00000000 ∧ z.rd R.MGMT_PWR_CFG = 0x445C ∧
    z.rd R.MGMT_FLT_POLICY = 0x403 ∧ z.rd R.MGMT_BOOT_STAT = 0 ∧ z.rd R.MGMT_RST_STAT = 0) ∧
  (∀ k, z.rd (R.CELL_TBL_CFG k) = 0xFF ∧ z.rd (R.CELL_CONV_CTL k) = 0x11 ∧ z.rd (R.CELL_DUSK_CTL k) = 0x40 ∧
    z.rd (R.CELL_DAWN_CTL k) = 0x40 ∧ z.rd (R.CELL_TBL0_LO k) = 0xFCF4EADED0BEA681 ∧
    z.rd (R.CELL_TBL0_HI k) = 0x7F503726190E0500 ∧ z.rd (R.CELL_BIST_CTL k) = 0x100A7) ∧
  (∀ p, p < 64 → z.rd (R.PART_BAR_CFG p) = 8 ∧ z.rd (R.PART_TIER_CFG p) = 0x4408004 ∧ z.rd (R.PART_VRD_CFG p) = 0x10000 ∧
    z.rd (R.PART_LADDER0 p) = 0x2013403 ∧ z.rd (R.PART_LADDER1 p) = 0x2013491 ∧ z.rd (R.PART_ALM_POLICY p) = 0x8004081 ∧
    z.rd (R.PART_PLX_CFG p) = 0xC ∧ z.rd (R.PART_EPH_WAKE p) = 0x3E8) ∧
  (∀ k, z.runState k = stIdle ∧ z.pc (.cell k) = 0 ∧ (z.cell k).line = none ∧ (z.cell k).unretired = [] ∧
    (∀ n, (z.cell k).regs.getS n = 0 ∧ (z.cell k).regs.getD n = 0) ∧
    (∀ n, n < 8 → ((z.cell k).regs.getP n = true ↔ n = 7))) ∧
  z.pending = [] ∧ z.dir = [] ∧ z.bytes = [] ∧ z.frames = [] ∧ z.phase = phOff ∧ z.lode.up = false ∧
  MemoryCanonical z ∧ HistoryKept z

/-- The commands complete in the order in which they came: every command answers a next state and leaves the queue to the step,
which takes its front and nothing else.
Model's choices: log entries 9, 65 and 72. -/
def Obligations.CommandsCompleteInOrder : Prop :=
  (∀ c s, ∃ t, exec c s = .next t ∧ t.pending = s.pending) ∧
  (∀ s, SafeStep s) ∧
  (∀ c rest s, s.pending = c :: rest → ∃ t, step s = .next t ∧ t.pending = rest) ∧
  (∀ s, s.pending = [] → ∃ t, step s = .next t ∧ t.pending = [])

/-- Every step keeps memory in its canonical form, so that equal memories are equal data.
Model's choices: log entries 16 and 71. -/
def Obligations.MemoryStaysCanonical : Prop := ∀ s t, MemoryCanonical s → step s = .next t → MemoryCanonical t

/-- Every step keeps what Lodestar keeps in order, never lowers the fused SVN or the Record ID counter, and never unburns a chunk
bit: no command, no reset and no loss of power rolls them back.
Model's choices: log entries 48 and 53. -/
def Obligations.HistoryNeverRollsBack : Prop :=
  ∀ s t, HistoryKept s → step s = .next t → HistoryKept t ∧ s.lode.svn ≤ t.lode.svn ∧ s.lode.records ≤ t.lode.records ∧
    s.lode.burned <+: t.lode.burned

/-- R274-R277: an instruction word has 128 bits and keeps every operand bit: two instructions of one context with the same word
are the same instruction with the same operands. -/
def Obligations.InstructionWordsDistinct : Prop :=
  (∀ i a, insnWord i = some a → a.word < 2 ^ 128) ∧
  (∀ i j a b, insnWord i = some a → insnWord j = some b → a.ctx = b.ctx → a.word = b.word → i = j)

/-! Statements of several parts. -/

/-- R293: scal.li, scal.add, sub, mul, and, or, xor, shl, shr, sra, min and max write RD and go on at the next word.
R293: the integer comparisons and the predicate instructions write PD and go on at the next word. R293, R295, R389:
scal.dget, scal.dset, scal.rdtime and scal.rdbar move a field, the time or a counter. The field that IMM selects is
given by its lowest bit and width (Table: Descriptor field selectors). -/
def Obligations.ScalarResults : Prop :=
  ScalarIntegerResults ∧ ScalarPredicateResults ∧ ScalarAccessResults

/-- R294: the scalar floating-point instructions whose result is not a NaN write it into RD, rounded into FMT, count what
the conversion saturates or overflows, and go on; scal.f2i writes the rounded and clamped integer, and the comparisons
write PD. R65, R294: a scalar instruction whose result is a NaN, and a comparison or scal.f2i of a NaN, is a NaN
event; where the partition's trap already holds an event of an earlier cc the instruction completes, NAN is raised and the event
counts. R65-R67: a NaN event of a cell's scalar instruction while the trap is open is captured (VALID and the address
of the instruction), NAN is raised, and every present cell of the partition that runs or waits without an earlier stop
request is to stop with cause NaN. -/
def Obligations.FloatResultsAndEvents : Prop :=
  ScalarFloatResults ∧ ScalarNanEvents ∧ NanTrapCaptures

/-- R195, R196: the element-wise vector instructions in FP32 write each element of TD, rounded once: abs, neg, sqrt,
rsqrt, exp2, log2, add, sub, mul, max, min, div, fma and ldexp. R63, R196: vec.cmp, vec.sel, vec.mov, vec.rnd and the
four reductions write each element of TD.
Model's choices: log entries 3 and 74. -/
def Obligations.VectorResults : Prop :=
  VectorElementResults ∧ VectorSelectReduceResults

/-- R289-R291: ctl.nop goes on, ctl.br sets the PC to its address plus 16 · IMM, ctl.call writes the return address to
RD and branches, ctl.jr goes to s[RA] modulo 2⁴⁸, and ctl.fence goes on once nothing that it names is left to retire. A
taken branch leaves the line held. R283, R287: ctl.arrive, ctl.wbar and ctl.halt with BARE that name a counter which is
not present, and scal.rdbar, are refused with cause 0xC. R284, R292: ctl.arrive of a context in which nothing is left to
retire and no arrival waits advances its counter by one, up to 2⁴⁸ − 1; the registers, the bytes, the directory and the
other CSRs but the issue count and the wakes stay. R281, R284-R286: ctl.arrive with instructions left to retire waits in
the context; ctl.wbar goes on at a count already reached and else waits in WAIT_BAR; ctl.wtime goes on at a time
reached, counting a time already past, and else waits in WAIT_TIME; ctl.halt leaves the cell HALTING.
Model's choices: log entries 67 and 72. -/
def Obligations.ControlResults : Prop :=
  ControlFlowResults ∧ AbsentCounterRefused ∧ ArriveAdvances ∧ WaitAndHaltResults

/-- R65, R281, R282, R285, R286: a HALTING cell with nothing left to retire becomes IDLE; a requested stop takes effect
with its cause, an interrupted wait issuing again; a wait that has come true ends in RUN with the clock running.
R267-R269, R275, R287: a fetch holds the line of the PC in the cell's own SRAM and elsewhere the word; a line that is
held is not read again; a word with an unlisted class or minor opcode is refused with cause 1; a PC that is misaligned
or names a page that the partition does not own or that is FREE is a violation of cause 4, after which a cell is
STOPPED.
Model's choices: log entries 7 and 9. -/
def Obligations.SequencerEvents : Prop :=
  RunStateEvents ∧ InstructionFetches

/-- R296, R298, R328: mov.lds sets PD to 0 and leaves RD at a gated or FREE page, and else loads the word and sets PD to
1; mov.sts stores the word, allocating its page. R18, R344, R345: mov.aadd32, aadd64, aaddfx and swap of a page homed in
the SRAM of the issuer's die put the new word there and bring the old one to RD; the cell that holds the word counts the
atomic. R18, R287: a bank atomic on a page that is not homed in the SRAM of the issuer's die is refused with cause 0xB
after its issue: counted and latched on the issuing cell, and no byte changes.
Model's choices: log entries 3, 17 and 37. -/
def Obligations.MovWordAndAtomicResults : Prop :=
  MovWordResults ∧ MovAtomicResults ∧ AtomicElsewhereRefused

/-- R332, R333: mov.spill stores the header and the coded blocks of DS at the start of DD, marks the pages written,
counts the raw blocks and brings the length to RD. R334, R317: mov.fill stores the bytes of a good spill area in DD,
allocating its pages.
Model's choices: log entries 3 and 68. -/
def Obligations.SpillAndFillResults : Prop :=
  MovSpillResults ∧ MovFillResults

/-- R299, R345: mov.gadd adds each element of DS, as FX64, to the word of DD that has its indices, in order and modulo
2⁶⁴, by one bank atomic each; a NaN adds 0. Here every word of DD is homed in the SRAM of the issuer's die. R326:
mov.hint pins or unpins each page of the region that its partition owns, or requests a move of it to the cell that s[RA]
names, one page after another; a page that it cannot serve counts. No byte and no other entry changes.
Model's choices: log entries 3 and 39. -/
def Obligations.GradientAddAndHintResults : Prop :=
  MovGaddResults ∧ MovHintResults

/-- R198-R201: vec.acc reads a FULL bank: F32 rounds each entry, F32ADD adds an FP32 tile to it exactly and rounds once,
TRIPLE writes hi, mid and lo into three tiles; the bank becomes READING until the instruction retires. R201: TRIPLE of a
finite entry that FP32 holds without saturating: each part is what the earlier parts leave, rounded to FP32. R198-R200:
vec.acc in form F64 stores each entry of a FULL bank, rounded to FP64, at its place in DS.
Model's choices: log entries 3 and 17. -/
def Obligations.BankReadingForms : Prop :=
  VecAccTileForms ∧ TripleParts ∧ VecAccStoreForm

/-- R205-R211, R213: a row instruction forms each row of DU by its formula from the row's inputs and entry, in order,
stores it, writes the row's entry with its tag where it makes one, and counts the rows. R208: a row whose scaled
elements are all −∞ gives +0 everywhere, the entry (−∞, +0) and one mask count; a row with r elements at +∞ gives 1/r at
those and +0 elsewhere, and one count of such rows. R206, R207: row.stst stores the two words of each entry, and
row.stld writes them into the store with TAG.
Model's choices: log entries 3 and 74. -/
def Obligations.RowUnitResults : Prop :=
  RowResults ∧ SoftmaxSpecialRows ∧ StatisticsTransfers

/-- R260: mov.copy of a cell, as an instruction for a unit, waits behind the instructions of a queue that holds some and
fewer than 8, and with 8 it is held and does not issue; the state `entered`, from which a free unit takes an instruction, differs
from the state before only by the issue. R101, R102, R260: dusk.mm, dawn.mm and dawn.mmt whose reserved bits and low
mode bits are 0 wait in the array's queue. R117, R118, R146: columns that are up, with gating on, and idle for the
programmed time are gated; the status field and the idle time become 0, and nothing else changes.
Model's choices: log entries 2, 3 and 72. -/
def Obligations.UnitQueuesAndGating : Prop :=
  QueueEntry ∧ ArrayInstructionsQueue ∧ ColumnGating

/-- R89, R90, R94, R95: on good memory the pre-scan of the earliest unscanned pass of an array fixes the scales and
bounds of both operands; a pass with more outliers than the table holds becomes wide and is counted. R91, R113: a pass
whose data no longer meets its pre-scan is counted; the first time it starts anew, the second time it is refused with
cause 0xA, its bank becomes zero and FREE, and the pass is gone. R114, R137: the earliest pass of a class that can
retire, whose data meets its pre-scan, leaves its result in its bank, which becomes FULL; the pass leaves the array, is
counted, and its instruction retires.
Model's choices: log entries 3, 9, 11 and 79. -/
def Obligations.PassCompletion : Prop :=
  PrescanResults ∧ PassAbandonment ∧ PassRetirement

/-- R306, R307, R404, R405: coll.slot arms its entry and is held until the action completes; where the occurrence had
started and the chain has no reserve, the action completes LATE and LATE is raised. coll.cancel completes an action that
has not begun with status 4 and brings 1 to RD, and else brings 0. R243, R247, R308, R309: chk.retract raises RETR in
the open record, chk.sample marks an array, chk.vlast brings the last verdict to RD, and chk.verdict marks its cell; the
last present cell of the partition to execute one issues the contribution: the verdict starts with the open step, and
every cell may execute the next.
Model's choices: log entries 3, 22 and 72. -/
def Obligations.CollectiveAndCheckInstructions : Prop :=
  CollectiveArming ∧ CheckInstructions

/-- R243-R245, R255-R257: the seal forms the member's record and starts an empty one; a record of the step and group in
work joins the combination, and one of another step counts as a stray. R251, R252, R406, R408: once every
round is combined, or at a VDEADLINE entry of an open step, the final verdict forms from the combined record: the last
word, the norm, the counters, the phase, and the count of clean verdicts.
Model's choices: log entries 9, 23 and 30. -/
def Obligations.VerdictRecordsAndForms : Prop :=
  VerdictRecords ∧ FinalVerdictForms

/-- R69, R56, R283, R328: the trap is emptied; the overflow mode, the number of counters and the fences take the value
written where the rules permit it; an armed fence whose counter goes never passes, one whose counter is at TARGET passes
at once, and RFENCE_PASS passes it later. R412, R415, R480: a cap write that holds with the other partitions' caps is
performed, lowers the limits above it at once and, between steps, the forbidden modes, and extends measurement 5. R416:
a write of the cell map gives logical cells to a partition, and the slots that back them show it. R418: a debug access
of partition 0 reads or writes the selected value of an idle or stopped cell.
Model's choices: log entries 57, 60 and 61. -/
def Obligations.PartitionAndManagementRegisters : Prop :=
  PartitionRegisters ∧ CapsAndCells

/-- R228, R230, R239, R304: zen.setsc sets a store scale of the block in work; in pass one zen.nsq adds the exact
squares of a tile to the norm; zen.amax reads the largest magnitude, an infinity as the largest finite value; zen.sgn
writes the signs; zen.next writes the block's scratch words back, unless the block is frozen, and ends the block. R237, R238: zen.ldlt factors each
lane: where an attempt succeeds the lane becomes L below the diagonal and D on it, its tile element the number of the
attempt; a lane that fails becomes zero, its element -1, and raises the predicate and p6.
Model's choices: log entries 3, 28, 29 and 75. -/
def Obligations.ZenithBlockResults : Prop :=
  ZenithBlockInstructions ∧ ZenithFactorisation

/-- R369-R375: OPEN starts a session for a host of its partition; a frame of no session is answered so; an ACK brings
the session's word; CLOSE closes it; a time-out sends a frame again, at most 16 times, and closes a silent session. A
RESP is kept, and goes out in frames as far as the host's LIMIT permits; a request for another partition is answered
RIGHTS with no effect. R279, R317, R329-R331, R375, R417: CSR_RD answers the registers; CSR_WR writes; WRITE stores its
bytes, allocating; PEEK answers the bytes and TAKE frees their pages as well, NOT_READY where a fence gates a page and
EMPTY where one is FREE; LAUNCH starts its cells when all are IDLE and is refused otherwise; BIND waits for its bind.
R422, R423: of two contradicting requests of one message time the first in session order is performed, and the other
answered CONFLICT.
Model's choices: log entries 8, 12, 58, 59 and 64. -/
def Obligations.AstpSessionsAndRequests : Prop :=
  AstpSessions ∧ AstpRequests

/-- R453, R454, R456, R491: a sample's effective cap, the clock step that follows, the counters and the registers that
show them, and ALERT_N. R452, R456, R460, R466: a thermal trip fails the module without a FAREWELL; a loss of input
takes everything but flash and fuses; PWR_EN starts a failed module again, powers a READY module down after its
FAREWELLs, and abandons a start-up.
Model's choices: log entries 10, 51, 63 and 69. -/
def Obligations.PowerSupply : Prop :=
  PowerSamples ∧ PowerEvents
end

