-- ==== Sys2Proof/Laws/Bits.lean ====
section
/-! SUPPORT. Bit fields: what a field reads after a field has been written. -/

namespace Sys2Proof

theorem testBit_bitsPut (v hi lo x i : Nat) (h : lo ≤ hi) :
    (bitsPut v hi lo x).testBit i = if lo ≤ i ∧ i ≤ hi then x.testBit (i - lo) else v.testBit i := by
  obtain ⟨w, rfl⟩ : ∃ w, hi = lo + w := ⟨hi - lo, by omega⟩
  have hw : lo + w + 1 - lo = w + 1 := by omega
  have e : bitsPut v (lo + w) lo x = 2 ^ lo * (2 ^ (w + 1) * (v / 2 ^ lo / 2 ^ (w + 1)) + x % 2 ^ (w + 1)) + v % 2 ^ lo := by
    unfold bitsPut bitsOf
    rw [hw]
    have a : v = 2 ^ lo * (v / 2 ^ lo) + v % 2 ^ lo := (Nat.div_add_mod v (2 ^ lo)).symm
    have b : v / 2 ^ lo = 2 ^ (w + 1) * (v / 2 ^ lo / 2 ^ (w + 1)) + v / 2 ^ lo % 2 ^ (w + 1) := (Nat.div_add_mod _ _).symm
    generalize v / 2 ^ lo / 2 ^ (w + 1) = q at *
    generalize v / 2 ^ lo % 2 ^ (w + 1) = r at *
    generalize v % 2 ^ lo = l at *
    rw [a, b]
    have : 2 ^ lo * (2 ^ (w + 1) * q + r) + l - r * 2 ^ lo = 2 ^ lo * (2 ^ (w + 1) * q) + l := by
      have : 2 ^ lo * (2 ^ (w + 1) * q + r) = 2 ^ lo * (2 ^ (w + 1) * q) + r * 2 ^ lo := by ring
      omega
    rw [this]
    ring
  rw [e]
  rw [Nat.testBit_two_pow_mul_add _ (Nat.mod_lt _ (by positivity))]
  by_cases h1 : i < lo
  · simp [h1, Nat.testBit_mod_two_pow, show ¬ (lo ≤ i ∧ i ≤ lo + w) by omega]
  · rw [if_neg h1, Nat.testBit_two_pow_mul_add _ (Nat.mod_lt _ (by positivity))]
    by_cases h2 : i - lo < w + 1
    · simp [h2, Nat.testBit_mod_two_pow, show lo ≤ i ∧ i ≤ lo + w by omega]
    · rw [if_neg h2, if_neg (by omega), Nat.testBit_div_two_pow, Nat.testBit_div_two_pow]
      congr 1; omega

theorem testBit_bitsOf (v hi lo i : Nat) :
    (bitsOf v hi lo).testBit i = (decide (i < hi + 1 - lo) && v.testBit (i + lo)) := by
  unfold bitsOf
  rw [Nat.testBit_mod_two_pow, Nat.testBit_div_two_pow]

/-- A field reads back what was written, cut to its width. -/
theorem bitsOf_bitsPut_same (v hi lo x : Nat) (h : lo ≤ hi) : bitsOf (bitsPut v hi lo x) hi lo = x % 2 ^ (hi + 1 - lo) := by
  apply Nat.eq_of_testBit_eq
  intro i
  rw [testBit_bitsOf, Nat.testBit_mod_two_pow, testBit_bitsPut _ _ _ _ _ h]
  by_cases hi' : i < hi + 1 - lo
  · rw [if_pos (by omega), Nat.add_sub_cancel]
  · simp [hi']

/-- A field beside the written one reads as before. -/
theorem bitsOf_bitsPut_ne (v hi lo x hi' lo' : Nat) (h : lo ≤ hi) (d : hi' < lo ∨ hi < lo') :
    bitsOf (bitsPut v hi lo x) hi' lo' = bitsOf v hi' lo' := by
  apply Nat.eq_of_testBit_eq
  intro i
  rw [testBit_bitsOf, testBit_bitsOf, testBit_bitsPut _ _ _ _ _ h]
  by_cases hi' : i < hi' + 1 - lo'
  · rw [if_neg (by omega)]
  · simp [hi']

theorem bitsPut_lt {v hi lo x n : Nat} (h : lo ≤ hi) (hn : hi < n) (hv : v < 2 ^ n) : bitsPut v hi lo x < 2 ^ n := by
  apply Nat.lt_pow_two_of_testBit
  intro i hi'
  rw [testBit_bitsPut _ _ _ _ _ h, if_neg (by omega)]
  exact Nat.testBit_lt_two_pow (lt_of_lt_of_le hv (Nat.pow_le_pow_right (by omega) hi'))

theorem toNat_fldPut (v : W64) (hi lo x : Nat) (h : lo ≤ hi) (hn : hi < 64) :
    (fldPut v hi lo x).toNat = bitsPut v.toNat hi lo x := by
  unfold fldPut
  rw [BitVec.toNat_ofNat]
  exact Nat.mod_eq_of_lt (bitsPut_lt h hn v.isLt)

theorem fld_fldPut_same (v : W64) (hi lo x : Nat) (h : lo ≤ hi) (hn : hi < 64) :
    fld (fldPut v hi lo x) hi lo = x % 2 ^ (hi + 1 - lo) := by
  unfold fld
  rw [toNat_fldPut _ _ _ _ h hn, bitsOf_bitsPut_same _ _ _ _ h]

theorem fld_fldPut_ne (v : W64) (hi lo x hi' lo' : Nat) (h : lo ≤ hi) (hn : hi < 64) (d : hi' < lo ∨ hi < lo') :
    fld (fldPut v hi lo x) hi' lo' = fld v hi' lo' := by
  unfold fld
  rw [toNat_fldPut _ _ _ _ h hn, bitsOf_bitsPut_ne _ _ _ _ _ _ h d]

/-- A field of a 64-bit register is below its width. -/
theorem bitsOf_lt (v hi lo : Nat) : bitsOf v hi lo < 2 ^ (hi + 1 - lo) := Nat.mod_lt _ (by positivity)

theorem fld_lt (v : W64) (hi lo : Nat) : fld v hi lo < 2 ^ (hi + 1 - lo) := bitsOf_lt _ _ _

end Sys2Proof
end

