-- ==== Sys2Proof/Laws/SMap.lean ====
section
/-! SUPPORT. The sparse map: what a read gives after a write, and that every write keeps the canonical form. -/

namespace Sys2Proof.SMap

variable {α : Type}

@[simp] theorem get_nil (d : α) (k : Nat) : get ([] : SMap α) d k = d := rfl

theorem get_erase_same (m : SMap α) (d : α) (k : Nat) : get (erase m k) d k = d := by
  induction m with
  | nil => rfl
  | cons x r ih =>
    obtain ⟨j, v⟩ := x
    by_cases h : k = j <;> simp [erase, get, h]
    · subst h; exact ih
    · exact ih

theorem get_erase_ne (m : SMap α) (d : α) {k j : Nat} (h : j ≠ k) : get (erase m k) d j = get m d j := by
  induction m with
  | nil => rfl
  | cons x r ih =>
    obtain ⟨i, v⟩ := x
    by_cases hk : k = i
    · subst hk; simp [erase, get, h, ih]
    · simp [erase, get, hk, ih]

theorem get_insert_same (m : SMap α) (d : α) (k : Nat) (x : α) : get (insert m k x) d k = x := by
  induction m with
  | nil => simp [insert, get]
  | cons y r ih =>
    obtain ⟨j, v⟩ := y
    simp only [insert]
    split
    · simp [get]
    · split
      · simp [get]
      · next h => simp [get, h, ih]

theorem get_insert_ne (m : SMap α) (d : α) {k j : Nat} (x : α) (h : j ≠ k) : get (insert m k x) d j = get m d j := by
  induction m with
  | nil => simp [insert, get, h]
  | cons y r ih =>
    obtain ⟨i, v⟩ := y
    simp only [insert]
    split
    · simp [get, h]
    · split
      · next e => subst e; simp [get, h]
      · simp [get, ih]

variable [DecidableEq α]

@[simp] theorem get_set_same (m : SMap α) (d : α) (k : Nat) (x : α) : get (set m d k x) d k = x := by
  unfold set
  split
  · next h => rw [get_erase_same, h]
  · exact get_insert_same m d k x

theorem get_set_ne (m : SMap α) (d e : α) {k j : Nat} (x : α) (h : j ≠ k) : get (set m d k x) e j = get m e j := by
  unfold set
  split
  · exact get_erase_ne m e h
  · exact get_insert_ne m e x h

theorem get_set (m : SMap α) (d : α) (k j : Nat) (x : α) :
    get (set m d k x) d j = if j = k then x else get m d j := by
  split
  · next h => subst h; exact get_set_same m d j x
  · next h => exact get_set_ne m d d x h

/-! The canonical form. -/

/-- Every key of a map is above `k`. -/
def above (k : Nat) (m : SMap α) : Prop := ∀ e ∈ m, k < e.1

theorem wf_cons (k : Nat) (v : α) (m : SMap α) (d : Nat → α) :
    wf ((k, v) :: m) d = true ↔ v ≠ d k ∧ above k m ∧ wf m d = true := by
  induction m generalizing k v with
  | nil => simp [wf, above]
  | cons y r ih =>
    obtain ⟨j, w⟩ := y
    constructor
    · intro h
      have h' : v ≠ d k ∧ k < j ∧ wf ((j, w) :: r) d = true := by simpa [wf, and_assoc] using h
      have hj := (ih j w).1 h'.2.2
      refine ⟨h'.1, ?_, h'.2.2⟩
      intro e he
      rcases List.mem_cons.1 he with rfl | he
      · exact h'.2.1
      · exact lt_trans h'.2.1 (hj.2.1 e he)
    · rintro ⟨h1, h2, h3⟩
      simpa [wf, and_assoc] using And.intro h1 ⟨h2 (j, w) (by simp), h3⟩

theorem above_erase {m : SMap α} {j : Nat} (h : above j m) (k : Nat) : above j (erase m k) := by
  induction m with
  | nil => exact h
  | cons y r ih =>
    obtain ⟨i, v⟩ := y
    have hr : above j r := fun e he => h e (List.mem_cons_of_mem _ he)
    simp only [erase]
    split
    · exact ih hr
    · intro e he
      rcases List.mem_cons.1 he with rfl | he
      · exact h _ (by simp)
      · exact ih hr e he

theorem above_insert {m : SMap α} {j k : Nat} (h : above j m) (hk : j < k) (x : α) : above j (insert m k x) := by
  induction m with
  | nil => intro e he; simp [insert] at he; subst he; exact hk
  | cons y r ih =>
    obtain ⟨i, v⟩ := y
    have hr : above j r := fun e he => h e (List.mem_cons_of_mem _ he)
    simp only [insert]
    split
    · intro e he
      rcases List.mem_cons.1 he with rfl | he
      · exact hk
      · exact h e he
    · split
      · intro e he
        rcases List.mem_cons.1 he with rfl | he
        · exact hk
        · exact hr e he
      · intro e he
        rcases List.mem_cons.1 he with rfl | he
        · exact h _ (by simp)
        · exact ih hr e he

theorem wf_erase {m : SMap α} {d : Nat → α} (h : wf m d = true) (k : Nat) : wf (erase m k) d = true := by
  induction m with
  | nil => exact h
  | cons y r ih =>
    obtain ⟨i, v⟩ := y
    have h' := (wf_cons i v r d).1 h
    simp only [erase]
    split
    · exact ih h'.2.2
    · exact (wf_cons _ _ _ _).2 ⟨h'.1, above_erase h'.2.1 k, ih h'.2.2⟩

theorem wf_insert {m : SMap α} {d : Nat → α} (h : wf m d = true) (k : Nat) {x : α} (hx : x ≠ d k) :
    wf (insert m k x) d = true := by
  induction m with
  | nil => simp [insert, wf, hx]
  | cons y r ih =>
    obtain ⟨i, v⟩ := y
    have h' := (wf_cons i v r d).1 h
    simp only [insert]
    split
    · next hlt =>
      refine (wf_cons _ _ _ _).2 ⟨hx, ?_, h⟩
      intro e he
      rcases List.mem_cons.1 he with rfl | he
      · exact hlt
      · exact lt_trans hlt (h'.2.1 e he)
    · split
      · next e => subst e; exact (wf_cons _ _ _ _).2 ⟨hx, h'.2.1, h'.2.2⟩
      · next h1 h2 =>
        exact (wf_cons _ _ _ _).2 ⟨h'.1, above_insert h'.2.1 (by omega) x, ih h'.2.2⟩

/-- Writing keeps the canonical form. -/
theorem wf_set {m : SMap α} {d : Nat → α} (h : wf m d = true) (k : Nat) (x : α) : wf (set m (d k) k x) d = true := by
  unfold set
  split
  · exact wf_erase h k
  · next hx => exact wf_insert h k hx

theorem above_filter {m : SMap α} {j : Nat} (h : above j m) (p : Nat × α → Bool) : above j (m.filter p) :=
  fun e he => h e (List.mem_filter.1 he).1

/-- A part of a canonical map is canonical. -/
theorem wf_filter {m : SMap α} {d : Nat → α} (h : wf m d = true) (p : Nat × α → Bool) : wf (m.filter p) d = true := by
  induction m with
  | nil => exact h
  | cons y r ih =>
    obtain ⟨i, v⟩ := y
    have h' := (wf_cons i v r d).1 h
    by_cases hp : p (i, v) = true
    · rw [List.filter_cons_of_pos hp]
      exact (wf_cons _ _ _ _).2 ⟨h'.1, above_filter h'.2.1 p, ih h'.2.2⟩
    · rw [List.filter_cons_of_neg hp]
      exact ih h'.2.2

end Sys2Proof.SMap
end

