-- ==== Sys2Proof/Laws/State.lean ====
section
/-! SUPPORT. What each update of the state leaves as it is: one lemma per field. -/

namespace Sys2Proof.Machine

@[simp] theorem State.wr_pending (s : State) (a : Nat) (v : W64) : (s.wr a v).pending = s.pending := (rfl)
@[simp] theorem State.wr_cells (s : State) (a : Nat) (v : W64) : (s.wr a v).cells = s.cells := (rfl)
@[simp] theorem State.wr_zctx (s : State) (a : Nat) (v : W64) : (s.wr a v).zctx = s.zctx := (rfl)
@[simp] theorem State.wr_dir (s : State) (a : Nat) (v : W64) : (s.wr a v).dir = s.dir := (rfl)
@[simp] theorem State.wr_bytes (s : State) (a : Nat) (v : W64) : (s.wr a v).bytes = s.bytes := (rfl)
@[simp] theorem State.wr_frames (s : State) (a : Nat) (v : W64) : (s.wr a v).frames = s.frames := (rfl)
@[simp] theorem State.wr_ue (s : State) (a : Nat) (v : W64) : (s.wr a v).ue = s.ue := (rfl)
@[simp] theorem State.wr_ce (s : State) (a : Nat) (v : W64) : (s.wr a v).ce = s.ce := (rfl)
@[simp] theorem State.wr_tiers (s : State) (a : Nat) (v : W64) : (s.wr a v).tiers = s.tiers := (rfl)
@[simp] theorem State.wr_zrun (s : State) (a : Nat) (v : W64) : (s.wr a v).zrun = s.zrun := (rfl)
@[simp] theorem State.wr_zslice (s : State) (a : Nat) (v : W64) : (s.wr a v).zslice = s.zslice := (rfl)
@[simp] theorem State.wr_wear (s : State) (a : Nat) (v : W64) : (s.wr a v).wear = s.wear := (rfl)
@[simp] theorem State.wr_traps (s : State) (a : Nat) (v : W64) : (s.wr a v).traps = s.traps := (rfl)
@[simp] theorem State.wr_fsrPend (s : State) (a : Nat) (v : W64) : (s.wr a v).fsrPend = s.fsrPend := (rfl)
@[simp] theorem State.wr_alm (s : State) (a : Nat) (v : W64) : (s.wr a v).alm = s.alm := (rfl)
@[simp] theorem State.wr_vrd (s : State) (a : Nat) (v : W64) : (s.wr a v).vrd = s.vrd := (rfl)
@[simp] theorem State.wr_tts (s : State) (a : Nat) (v : W64) : (s.wr a v).tts = s.tts := (rfl)
@[simp] theorem State.wr_net (s : State) (a : Nat) (v : W64) : (s.wr a v).net = s.net := (rfl)
@[simp] theorem State.wr_ptp (s : State) (a : Nat) (v : W64) : (s.wr a v).ptp = s.ptp := (rfl)
@[simp] theorem State.wr_time (s : State) (a : Nat) (v : W64) : (s.wr a v).time = s.time := (rfl)
@[simp] theorem State.wr_span (s : State) (a : Nat) (v : W64) : (s.wr a v).span = s.span := (rfl)
@[simp] theorem State.wr_fencing (s : State) (a : Nat) (v : W64) : (s.wr a v).fencing = s.fencing := (rfl)
@[simp] theorem State.wr_rejoined (s : State) (a : Nat) (v : W64) : (s.wr a v).rejoined = s.rejoined := (rfl)
@[simp] theorem State.wr_lode (s : State) (a : Nat) (v : W64) : (s.wr a v).lode = s.lode := (rfl)
@[simp] theorem State.wr_pwr (s : State) (a : Nat) (v : W64) : (s.wr a v).pwr = s.pwr := (rfl)

@[simp] theorem State.setCell_pending (s : State) (c : CellId) (x : CellCtx) : (s.setCell c x).pending = s.pending := (rfl)
@[simp] theorem State.setCell_csr (s : State) (c : CellId) (x : CellCtx) : (s.setCell c x).csr = s.csr := (rfl)
@[simp] theorem State.setCell_zctx (s : State) (c : CellId) (x : CellCtx) : (s.setCell c x).zctx = s.zctx := (rfl)
@[simp] theorem State.setCell_dir (s : State) (c : CellId) (x : CellCtx) : (s.setCell c x).dir = s.dir := (rfl)
@[simp] theorem State.setCell_bytes (s : State) (c : CellId) (x : CellCtx) : (s.setCell c x).bytes = s.bytes := (rfl)
@[simp] theorem State.setCell_frames (s : State) (c : CellId) (x : CellCtx) : (s.setCell c x).frames = s.frames := (rfl)
@[simp] theorem State.setCell_ue (s : State) (c : CellId) (x : CellCtx) : (s.setCell c x).ue = s.ue := (rfl)
@[simp] theorem State.setCell_ce (s : State) (c : CellId) (x : CellCtx) : (s.setCell c x).ce = s.ce := (rfl)
@[simp] theorem State.setCell_tiers (s : State) (c : CellId) (x : CellCtx) : (s.setCell c x).tiers = s.tiers := (rfl)
@[simp] theorem State.setCell_zrun (s : State) (c : CellId) (x : CellCtx) : (s.setCell c x).zrun = s.zrun := (rfl)
@[simp] theorem State.setCell_zslice (s : State) (c : CellId) (x : CellCtx) : (s.setCell c x).zslice = s.zslice := (rfl)
@[simp] theorem State.setCell_wear (s : State) (c : CellId) (x : CellCtx) : (s.setCell c x).wear = s.wear := (rfl)
@[simp] theorem State.setCell_traps (s : State) (c : CellId) (x : CellCtx) : (s.setCell c x).traps = s.traps := (rfl)
@[simp] theorem State.setCell_fsrPend (s : State) (c : CellId) (x : CellCtx) : (s.setCell c x).fsrPend = s.fsrPend := (rfl)
@[simp] theorem State.setCell_alm (s : State) (c : CellId) (x : CellCtx) : (s.setCell c x).alm = s.alm := (rfl)
@[simp] theorem State.setCell_vrd (s : State) (c : CellId) (x : CellCtx) : (s.setCell c x).vrd = s.vrd := (rfl)
@[simp] theorem State.setCell_tts (s : State) (c : CellId) (x : CellCtx) : (s.setCell c x).tts = s.tts := (rfl)
@[simp] theorem State.setCell_net (s : State) (c : CellId) (x : CellCtx) : (s.setCell c x).net = s.net := (rfl)
@[simp] theorem State.setCell_ptp (s : State) (c : CellId) (x : CellCtx) : (s.setCell c x).ptp = s.ptp := (rfl)
@[simp] theorem State.setCell_time (s : State) (c : CellId) (x : CellCtx) : (s.setCell c x).time = s.time := (rfl)
@[simp] theorem State.setCell_span (s : State) (c : CellId) (x : CellCtx) : (s.setCell c x).span = s.span := (rfl)
@[simp] theorem State.setCell_fencing (s : State) (c : CellId) (x : CellCtx) : (s.setCell c x).fencing = s.fencing := (rfl)
@[simp] theorem State.setCell_rejoined (s : State) (c : CellId) (x : CellCtx) : (s.setCell c x).rejoined = s.rejoined := (rfl)
@[simp] theorem State.setCell_lode (s : State) (c : CellId) (x : CellCtx) : (s.setCell c x).lode = s.lode := (rfl)
@[simp] theorem State.setCell_pwr (s : State) (c : CellId) (x : CellCtx) : (s.setCell c x).pwr = s.pwr := (rfl)

@[simp] theorem State.setZr_pending (s : State) (d p : Nat) (z : ZRun) : (s.setZr d p z).pending = s.pending := (rfl)
@[simp] theorem State.setZr_csr (s : State) (d p : Nat) (z : ZRun) : (s.setZr d p z).csr = s.csr := (rfl)
@[simp] theorem State.setZr_cells (s : State) (d p : Nat) (z : ZRun) : (s.setZr d p z).cells = s.cells := (rfl)
@[simp] theorem State.setZr_zctx (s : State) (d p : Nat) (z : ZRun) : (s.setZr d p z).zctx = s.zctx := (rfl)
@[simp] theorem State.setZr_dir (s : State) (d p : Nat) (z : ZRun) : (s.setZr d p z).dir = s.dir := (rfl)
@[simp] theorem State.setZr_bytes (s : State) (d p : Nat) (z : ZRun) : (s.setZr d p z).bytes = s.bytes := (rfl)
@[simp] theorem State.setZr_frames (s : State) (d p : Nat) (z : ZRun) : (s.setZr d p z).frames = s.frames := (rfl)
@[simp] theorem State.setZr_ue (s : State) (d p : Nat) (z : ZRun) : (s.setZr d p z).ue = s.ue := (rfl)
@[simp] theorem State.setZr_ce (s : State) (d p : Nat) (z : ZRun) : (s.setZr d p z).ce = s.ce := (rfl)
@[simp] theorem State.setZr_tiers (s : State) (d p : Nat) (z : ZRun) : (s.setZr d p z).tiers = s.tiers := (rfl)
@[simp] theorem State.setZr_zslice (s : State) (d p : Nat) (z : ZRun) : (s.setZr d p z).zslice = s.zslice := (rfl)
@[simp] theorem State.setZr_wear (s : State) (d p : Nat) (z : ZRun) : (s.setZr d p z).wear = s.wear := (rfl)
@[simp] theorem State.setZr_traps (s : State) (d p : Nat) (z : ZRun) : (s.setZr d p z).traps = s.traps := (rfl)
@[simp] theorem State.setZr_fsrPend (s : State) (d p : Nat) (z : ZRun) : (s.setZr d p z).fsrPend = s.fsrPend := (rfl)
@[simp] theorem State.setZr_alm (s : State) (d p : Nat) (z : ZRun) : (s.setZr d p z).alm = s.alm := (rfl)
@[simp] theorem State.setZr_vrd (s : State) (d p : Nat) (z : ZRun) : (s.setZr d p z).vrd = s.vrd := (rfl)
@[simp] theorem State.setZr_tts (s : State) (d p : Nat) (z : ZRun) : (s.setZr d p z).tts = s.tts := (rfl)
@[simp] theorem State.setZr_net (s : State) (d p : Nat) (z : ZRun) : (s.setZr d p z).net = s.net := (rfl)
@[simp] theorem State.setZr_ptp (s : State) (d p : Nat) (z : ZRun) : (s.setZr d p z).ptp = s.ptp := (rfl)
@[simp] theorem State.setZr_time (s : State) (d p : Nat) (z : ZRun) : (s.setZr d p z).time = s.time := (rfl)
@[simp] theorem State.setZr_span (s : State) (d p : Nat) (z : ZRun) : (s.setZr d p z).span = s.span := (rfl)
@[simp] theorem State.setZr_fencing (s : State) (d p : Nat) (z : ZRun) : (s.setZr d p z).fencing = s.fencing := (rfl)
@[simp] theorem State.setZr_rejoined (s : State) (d p : Nat) (z : ZRun) : (s.setZr d p z).rejoined = s.rejoined := (rfl)
@[simp] theorem State.setZr_lode (s : State) (d p : Nat) (z : ZRun) : (s.setZr d p z).lode = s.lode := (rfl)
@[simp] theorem State.setZr_pwr (s : State) (d p : Nat) (z : ZRun) : (s.setZr d p z).pwr = s.pwr := (rfl)

@[simp] theorem State.fault_pending (s : State) (kind cls action part unit : Nat) (loc : List Nat) (sev : Nat) (plx : Option Plx) : (s.fault kind cls action part unit loc sev plx).pending = s.pending := (rfl)
@[simp] theorem State.fault_csr (s : State) (kind cls action part unit : Nat) (loc : List Nat) (sev : Nat) (plx : Option Plx) : (s.fault kind cls action part unit loc sev plx).csr = s.csr := (rfl)
@[simp] theorem State.fault_cells (s : State) (kind cls action part unit : Nat) (loc : List Nat) (sev : Nat) (plx : Option Plx) : (s.fault kind cls action part unit loc sev plx).cells = s.cells := (rfl)
@[simp] theorem State.fault_zctx (s : State) (kind cls action part unit : Nat) (loc : List Nat) (sev : Nat) (plx : Option Plx) : (s.fault kind cls action part unit loc sev plx).zctx = s.zctx := (rfl)
@[simp] theorem State.fault_dir (s : State) (kind cls action part unit : Nat) (loc : List Nat) (sev : Nat) (plx : Option Plx) : (s.fault kind cls action part unit loc sev plx).dir = s.dir := (rfl)
@[simp] theorem State.fault_bytes (s : State) (kind cls action part unit : Nat) (loc : List Nat) (sev : Nat) (plx : Option Plx) : (s.fault kind cls action part unit loc sev plx).bytes = s.bytes := (rfl)
@[simp] theorem State.fault_frames (s : State) (kind cls action part unit : Nat) (loc : List Nat) (sev : Nat) (plx : Option Plx) : (s.fault kind cls action part unit loc sev plx).frames = s.frames := (rfl)
@[simp] theorem State.fault_ue (s : State) (kind cls action part unit : Nat) (loc : List Nat) (sev : Nat) (plx : Option Plx) : (s.fault kind cls action part unit loc sev plx).ue = s.ue := (rfl)
@[simp] theorem State.fault_ce (s : State) (kind cls action part unit : Nat) (loc : List Nat) (sev : Nat) (plx : Option Plx) : (s.fault kind cls action part unit loc sev plx).ce = s.ce := (rfl)
@[simp] theorem State.fault_tiers (s : State) (kind cls action part unit : Nat) (loc : List Nat) (sev : Nat) (plx : Option Plx) : (s.fault kind cls action part unit loc sev plx).tiers = s.tiers := (rfl)
@[simp] theorem State.fault_zrun (s : State) (kind cls action part unit : Nat) (loc : List Nat) (sev : Nat) (plx : Option Plx) : (s.fault kind cls action part unit loc sev plx).zrun = s.zrun := (rfl)
@[simp] theorem State.fault_zslice (s : State) (kind cls action part unit : Nat) (loc : List Nat) (sev : Nat) (plx : Option Plx) : (s.fault kind cls action part unit loc sev plx).zslice = s.zslice := (rfl)
@[simp] theorem State.fault_wear (s : State) (kind cls action part unit : Nat) (loc : List Nat) (sev : Nat) (plx : Option Plx) : (s.fault kind cls action part unit loc sev plx).wear = s.wear := (rfl)
@[simp] theorem State.fault_traps (s : State) (kind cls action part unit : Nat) (loc : List Nat) (sev : Nat) (plx : Option Plx) : (s.fault kind cls action part unit loc sev plx).traps = s.traps := (rfl)
@[simp] theorem State.fault_alm (s : State) (kind cls action part unit : Nat) (loc : List Nat) (sev : Nat) (plx : Option Plx) : (s.fault kind cls action part unit loc sev plx).alm = s.alm := (rfl)
@[simp] theorem State.fault_vrd (s : State) (kind cls action part unit : Nat) (loc : List Nat) (sev : Nat) (plx : Option Plx) : (s.fault kind cls action part unit loc sev plx).vrd = s.vrd := (rfl)
@[simp] theorem State.fault_tts (s : State) (kind cls action part unit : Nat) (loc : List Nat) (sev : Nat) (plx : Option Plx) : (s.fault kind cls action part unit loc sev plx).tts = s.tts := (rfl)
@[simp] theorem State.fault_net (s : State) (kind cls action part unit : Nat) (loc : List Nat) (sev : Nat) (plx : Option Plx) : (s.fault kind cls action part unit loc sev plx).net = s.net := (rfl)
@[simp] theorem State.fault_ptp (s : State) (kind cls action part unit : Nat) (loc : List Nat) (sev : Nat) (plx : Option Plx) : (s.fault kind cls action part unit loc sev plx).ptp = s.ptp := (rfl)
@[simp] theorem State.fault_time (s : State) (kind cls action part unit : Nat) (loc : List Nat) (sev : Nat) (plx : Option Plx) : (s.fault kind cls action part unit loc sev plx).time = s.time := (rfl)
@[simp] theorem State.fault_span (s : State) (kind cls action part unit : Nat) (loc : List Nat) (sev : Nat) (plx : Option Plx) : (s.fault kind cls action part unit loc sev plx).span = s.span := (rfl)
@[simp] theorem State.fault_fencing (s : State) (kind cls action part unit : Nat) (loc : List Nat) (sev : Nat) (plx : Option Plx) : (s.fault kind cls action part unit loc sev plx).fencing = s.fencing := (rfl)
@[simp] theorem State.fault_rejoined (s : State) (kind cls action part unit : Nat) (loc : List Nat) (sev : Nat) (plx : Option Plx) : (s.fault kind cls action part unit loc sev plx).rejoined = s.rejoined := (rfl)
@[simp] theorem State.fault_lode (s : State) (kind cls action part unit : Nat) (loc : List Nat) (sev : Nat) (plx : Option Plx) : (s.fault kind cls action part unit loc sev plx).lode = s.lode := (rfl)
@[simp] theorem State.fault_pwr (s : State) (kind cls action part unit : Nat) (loc : List Nat) (sev : Nat) (plx : Option Plx) : (s.fault kind cls action part unit loc sev plx).pwr = s.pwr := (rfl)

@[simp] theorem State.measure_pending (s : State) (k : Nat) (m : Meas) : (s.measure k m).pending = s.pending := (rfl)
@[simp] theorem State.measure_csr (s : State) (k : Nat) (m : Meas) : (s.measure k m).csr = s.csr := (rfl)
@[simp] theorem State.measure_cells (s : State) (k : Nat) (m : Meas) : (s.measure k m).cells = s.cells := (rfl)
@[simp] theorem State.measure_zctx (s : State) (k : Nat) (m : Meas) : (s.measure k m).zctx = s.zctx := (rfl)
@[simp] theorem State.measure_dir (s : State) (k : Nat) (m : Meas) : (s.measure k m).dir = s.dir := (rfl)
@[simp] theorem State.measure_bytes (s : State) (k : Nat) (m : Meas) : (s.measure k m).bytes = s.bytes := (rfl)
@[simp] theorem State.measure_frames (s : State) (k : Nat) (m : Meas) : (s.measure k m).frames = s.frames := (rfl)
@[simp] theorem State.measure_ue (s : State) (k : Nat) (m : Meas) : (s.measure k m).ue = s.ue := (rfl)
@[simp] theorem State.measure_ce (s : State) (k : Nat) (m : Meas) : (s.measure k m).ce = s.ce := (rfl)
@[simp] theorem State.measure_tiers (s : State) (k : Nat) (m : Meas) : (s.measure k m).tiers = s.tiers := (rfl)
@[simp] theorem State.measure_zrun (s : State) (k : Nat) (m : Meas) : (s.measure k m).zrun = s.zrun := (rfl)
@[simp] theorem State.measure_zslice (s : State) (k : Nat) (m : Meas) : (s.measure k m).zslice = s.zslice := (rfl)
@[simp] theorem State.measure_wear (s : State) (k : Nat) (m : Meas) : (s.measure k m).wear = s.wear := (rfl)
@[simp] theorem State.measure_traps (s : State) (k : Nat) (m : Meas) : (s.measure k m).traps = s.traps := (rfl)
@[simp] theorem State.measure_fsrPend (s : State) (k : Nat) (m : Meas) : (s.measure k m).fsrPend = s.fsrPend := (rfl)
@[simp] theorem State.measure_alm (s : State) (k : Nat) (m : Meas) : (s.measure k m).alm = s.alm := (rfl)
@[simp] theorem State.measure_vrd (s : State) (k : Nat) (m : Meas) : (s.measure k m).vrd = s.vrd := (rfl)
@[simp] theorem State.measure_tts (s : State) (k : Nat) (m : Meas) : (s.measure k m).tts = s.tts := (rfl)
@[simp] theorem State.measure_net (s : State) (k : Nat) (m : Meas) : (s.measure k m).net = s.net := (rfl)
@[simp] theorem State.measure_ptp (s : State) (k : Nat) (m : Meas) : (s.measure k m).ptp = s.ptp := (rfl)
@[simp] theorem State.measure_time (s : State) (k : Nat) (m : Meas) : (s.measure k m).time = s.time := (rfl)
@[simp] theorem State.measure_span (s : State) (k : Nat) (m : Meas) : (s.measure k m).span = s.span := (rfl)
@[simp] theorem State.measure_fencing (s : State) (k : Nat) (m : Meas) : (s.measure k m).fencing = s.fencing := (rfl)
@[simp] theorem State.measure_rejoined (s : State) (k : Nat) (m : Meas) : (s.measure k m).rejoined = s.rejoined := (rfl)
@[simp] theorem State.measure_pwr (s : State) (k : Nat) (m : Meas) : (s.measure k m).pwr = s.pwr := (rfl)

@[simp] theorem State.wrF_pending (s : State) (a : Nat) (f : Nat × Nat) (x : Nat) : (s.wrF a f x).pending = s.pending := (rfl)
@[simp] theorem State.wrF_cells (s : State) (a : Nat) (f : Nat × Nat) (x : Nat) : (s.wrF a f x).cells = s.cells := (rfl)
@[simp] theorem State.wrF_zctx (s : State) (a : Nat) (f : Nat × Nat) (x : Nat) : (s.wrF a f x).zctx = s.zctx := (rfl)
@[simp] theorem State.wrF_dir (s : State) (a : Nat) (f : Nat × Nat) (x : Nat) : (s.wrF a f x).dir = s.dir := (rfl)
@[simp] theorem State.wrF_bytes (s : State) (a : Nat) (f : Nat × Nat) (x : Nat) : (s.wrF a f x).bytes = s.bytes := (rfl)
@[simp] theorem State.wrF_frames (s : State) (a : Nat) (f : Nat × Nat) (x : Nat) : (s.wrF a f x).frames = s.frames := (rfl)
@[simp] theorem State.wrF_ue (s : State) (a : Nat) (f : Nat × Nat) (x : Nat) : (s.wrF a f x).ue = s.ue := (rfl)
@[simp] theorem State.wrF_ce (s : State) (a : Nat) (f : Nat × Nat) (x : Nat) : (s.wrF a f x).ce = s.ce := (rfl)
@[simp] theorem State.wrF_tiers (s : State) (a : Nat) (f : Nat × Nat) (x : Nat) : (s.wrF a f x).tiers = s.tiers := (rfl)
@[simp] theorem State.wrF_zrun (s : State) (a : Nat) (f : Nat × Nat) (x : Nat) : (s.wrF a f x).zrun = s.zrun := (rfl)
@[simp] theorem State.wrF_zslice (s : State) (a : Nat) (f : Nat × Nat) (x : Nat) : (s.wrF a f x).zslice = s.zslice := (rfl)
@[simp] theorem State.wrF_wear (s : State) (a : Nat) (f : Nat × Nat) (x : Nat) : (s.wrF a f x).wear = s.wear := (rfl)
@[simp] theorem State.wrF_traps (s : State) (a : Nat) (f : Nat × Nat) (x : Nat) : (s.wrF a f x).traps = s.traps := (rfl)
@[simp] theorem State.wrF_fsrPend (s : State) (a : Nat) (f : Nat × Nat) (x : Nat) : (s.wrF a f x).fsrPend = s.fsrPend := (rfl)
@[simp] theorem State.wrF_alm (s : State) (a : Nat) (f : Nat × Nat) (x : Nat) : (s.wrF a f x).alm = s.alm := (rfl)
@[simp] theorem State.wrF_vrd (s : State) (a : Nat) (f : Nat × Nat) (x : Nat) : (s.wrF a f x).vrd = s.vrd := (rfl)
@[simp] theorem State.wrF_tts (s : State) (a : Nat) (f : Nat × Nat) (x : Nat) : (s.wrF a f x).tts = s.tts := (rfl)
@[simp] theorem State.wrF_net (s : State) (a : Nat) (f : Nat × Nat) (x : Nat) : (s.wrF a f x).net = s.net := (rfl)
@[simp] theorem State.wrF_ptp (s : State) (a : Nat) (f : Nat × Nat) (x : Nat) : (s.wrF a f x).ptp = s.ptp := (rfl)
@[simp] theorem State.wrF_time (s : State) (a : Nat) (f : Nat × Nat) (x : Nat) : (s.wrF a f x).time = s.time := (rfl)
@[simp] theorem State.wrF_span (s : State) (a : Nat) (f : Nat × Nat) (x : Nat) : (s.wrF a f x).span = s.span := (rfl)
@[simp] theorem State.wrF_fencing (s : State) (a : Nat) (f : Nat × Nat) (x : Nat) : (s.wrF a f x).fencing = s.fencing := (rfl)
@[simp] theorem State.wrF_rejoined (s : State) (a : Nat) (f : Nat × Nat) (x : Nat) : (s.wrF a f x).rejoined = s.rejoined := (rfl)
@[simp] theorem State.wrF_lode (s : State) (a : Nat) (f : Nat × Nat) (x : Nat) : (s.wrF a f x).lode = s.lode := (rfl)
@[simp] theorem State.wrF_pwr (s : State) (a : Nat) (f : Nat × Nat) (x : Nat) : (s.wrF a f x).pwr = s.pwr := (rfl)

@[simp] theorem State.count_pending (s : State) (a n : Nat) : (s.count a n).pending = s.pending := by unfold State.count; split <;> rfl
@[simp] theorem State.count_cells (s : State) (a n : Nat) : (s.count a n).cells = s.cells := by unfold State.count; split <;> rfl
@[simp] theorem State.count_zctx (s : State) (a n : Nat) : (s.count a n).zctx = s.zctx := by unfold State.count; split <;> rfl
@[simp] theorem State.count_dir (s : State) (a n : Nat) : (s.count a n).dir = s.dir := by unfold State.count; split <;> rfl
@[simp] theorem State.count_bytes (s : State) (a n : Nat) : (s.count a n).bytes = s.bytes := by unfold State.count; split <;> rfl
@[simp] theorem State.count_frames (s : State) (a n : Nat) : (s.count a n).frames = s.frames := by unfold State.count; split <;> rfl
@[simp] theorem State.count_ue (s : State) (a n : Nat) : (s.count a n).ue = s.ue := by unfold State.count; split <;> rfl
@[simp] theorem State.count_ce (s : State) (a n : Nat) : (s.count a n).ce = s.ce := by unfold State.count; split <;> rfl
@[simp] theorem State.count_tiers (s : State) (a n : Nat) : (s.count a n).tiers = s.tiers := by unfold State.count; split <;> rfl
@[simp] theorem State.count_zrun (s : State) (a n : Nat) : (s.count a n).zrun = s.zrun := by unfold State.count; split <;> rfl
@[simp] theorem State.count_zslice (s : State) (a n : Nat) : (s.count a n).zslice = s.zslice := by unfold State.count; split <;> rfl
@[simp] theorem State.count_wear (s : State) (a n : Nat) : (s.count a n).wear = s.wear := by unfold State.count; split <;> rfl
@[simp] theorem State.count_traps (s : State) (a n : Nat) : (s.count a n).traps = s.traps := by unfold State.count; split <;> rfl
@[simp] theorem State.count_fsrPend (s : State) (a n : Nat) : (s.count a n).fsrPend = s.fsrPend := by unfold State.count; split <;> rfl
@[simp] theorem State.count_alm (s : State) (a n : Nat) : (s.count a n).alm = s.alm := by unfold State.count; split <;> rfl
@[simp] theorem State.count_vrd (s : State) (a n : Nat) : (s.count a n).vrd = s.vrd := by unfold State.count; split <;> rfl
@[simp] theorem State.count_tts (s : State) (a n : Nat) : (s.count a n).tts = s.tts := by unfold State.count; split <;> rfl
@[simp] theorem State.count_net (s : State) (a n : Nat) : (s.count a n).net = s.net := by unfold State.count; split <;> rfl
@[simp] theorem State.count_ptp (s : State) (a n : Nat) : (s.count a n).ptp = s.ptp := by unfold State.count; split <;> rfl
@[simp] theorem State.count_time (s : State) (a n : Nat) : (s.count a n).time = s.time := by unfold State.count; split <;> rfl
@[simp] theorem State.count_span (s : State) (a n : Nat) : (s.count a n).span = s.span := by unfold State.count; split <;> rfl
@[simp] theorem State.count_fencing (s : State) (a n : Nat) : (s.count a n).fencing = s.fencing := by unfold State.count; split <;> rfl
@[simp] theorem State.count_rejoined (s : State) (a n : Nat) : (s.count a n).rejoined = s.rejoined := by unfold State.count; split <;> rfl
@[simp] theorem State.count_lode (s : State) (a n : Nat) : (s.count a n).lode = s.lode := by unfold State.count; split <;> rfl
@[simp] theorem State.count_pwr (s : State) (a n : Nat) : (s.count a n).pwr = s.pwr := by unfold State.count; split <;> rfl

@[simp] theorem State.setCtx_pending (s : State) (c : Ctx) (x : CellCtx) : (s.setCtx c x).pending = s.pending := by cases c <;> rfl
@[simp] theorem State.setCtx_csr (s : State) (c : Ctx) (x : CellCtx) : (s.setCtx c x).csr = s.csr := by cases c <;> rfl
@[simp] theorem State.setCtx_dir (s : State) (c : Ctx) (x : CellCtx) : (s.setCtx c x).dir = s.dir := by cases c <;> rfl
@[simp] theorem State.setCtx_bytes (s : State) (c : Ctx) (x : CellCtx) : (s.setCtx c x).bytes = s.bytes := by cases c <;> rfl
@[simp] theorem State.setCtx_frames (s : State) (c : Ctx) (x : CellCtx) : (s.setCtx c x).frames = s.frames := by cases c <;> rfl
@[simp] theorem State.setCtx_ue (s : State) (c : Ctx) (x : CellCtx) : (s.setCtx c x).ue = s.ue := by cases c <;> rfl
@[simp] theorem State.setCtx_ce (s : State) (c : Ctx) (x : CellCtx) : (s.setCtx c x).ce = s.ce := by cases c <;> rfl
@[simp] theorem State.setCtx_tiers (s : State) (c : Ctx) (x : CellCtx) : (s.setCtx c x).tiers = s.tiers := by cases c <;> rfl
@[simp] theorem State.setCtx_zrun (s : State) (c : Ctx) (x : CellCtx) : (s.setCtx c x).zrun = s.zrun := by cases c <;> rfl
@[simp] theorem State.setCtx_zslice (s : State) (c : Ctx) (x : CellCtx) : (s.setCtx c x).zslice = s.zslice := by cases c <;> rfl
@[simp] theorem State.setCtx_wear (s : State) (c : Ctx) (x : CellCtx) : (s.setCtx c x).wear = s.wear := by cases c <;> rfl
@[simp] theorem State.setCtx_traps (s : State) (c : Ctx) (x : CellCtx) : (s.setCtx c x).traps = s.traps := by cases c <;> rfl
@[simp] theorem State.setCtx_fsrPend (s : State) (c : Ctx) (x : CellCtx) : (s.setCtx c x).fsrPend = s.fsrPend := by cases c <;> rfl
@[simp] theorem State.setCtx_alm (s : State) (c : Ctx) (x : CellCtx) : (s.setCtx c x).alm = s.alm := by cases c <;> rfl
@[simp] theorem State.setCtx_vrd (s : State) (c : Ctx) (x : CellCtx) : (s.setCtx c x).vrd = s.vrd := by cases c <;> rfl
@[simp] theorem State.setCtx_tts (s : State) (c : Ctx) (x : CellCtx) : (s.setCtx c x).tts = s.tts := by cases c <;> rfl
@[simp] theorem State.setCtx_net (s : State) (c : Ctx) (x : CellCtx) : (s.setCtx c x).net = s.net := by cases c <;> rfl
@[simp] theorem State.setCtx_ptp (s : State) (c : Ctx) (x : CellCtx) : (s.setCtx c x).ptp = s.ptp := by cases c <;> rfl
@[simp] theorem State.setCtx_time (s : State) (c : Ctx) (x : CellCtx) : (s.setCtx c x).time = s.time := by cases c <;> rfl
@[simp] theorem State.setCtx_span (s : State) (c : Ctx) (x : CellCtx) : (s.setCtx c x).span = s.span := by cases c <;> rfl
@[simp] theorem State.setCtx_fencing (s : State) (c : Ctx) (x : CellCtx) : (s.setCtx c x).fencing = s.fencing := by cases c <;> rfl
@[simp] theorem State.setCtx_rejoined (s : State) (c : Ctx) (x : CellCtx) : (s.setCtx c x).rejoined = s.rejoined := by cases c <;> rfl
@[simp] theorem State.setCtx_lode (s : State) (c : Ctx) (x : CellCtx) : (s.setCtx c x).lode = s.lode := by cases c <;> rfl
@[simp] theorem State.setCtx_pwr (s : State) (c : Ctx) (x : CellCtx) : (s.setCtx c x).pwr = s.pwr := by cases c <;> rfl

end Sys2Proof.Machine
end

