-- ==== Sys2Proof/Laws/Ops.lean ====
section
/-! SUPPORT. What the named operations read after they write: registers, contexts, register files, run states. -/

namespace Sys2Proof.Machine

/-! CSRs. -/

@[simp] theorem State.rd_wr_same (s : State) (a : Nat) (v : W64) : (s.wr a v).rd a = v := SMap.get_set_same _ _ _ _

theorem State.rd_wr_ne (s : State) {a b : Nat} (v : W64) (h : b ≠ a) : (s.wr a v).rd b = s.rd b := SMap.get_set_ne _ _ _ _ h

theorem State.rd_wr (s : State) (a b : Nat) (v : W64) : (s.wr a v).rd b = if b = a then v else s.rd b := by
  split
  · next h => subst h; simp
  · next h => exact s.rd_wr_ne v h

@[simp] theorem State.rd_setCell (s : State) (c : CellId) (x : CellCtx) (a : Nat) : (s.setCell c x).rd a = s.rd a := (rfl)

@[simp] theorem State.rd_setCtx (s : State) (c : Ctx) (x : CellCtx) (a : Nat) : (s.setCtx c x).rd a = s.rd a := by
  cases c <;> rfl

@[simp] theorem State.rdF_setCell (s : State) (c : CellId) (x : CellCtx) (a : Nat) (f : Nat × Nat) :
    (s.setCell c x).rdF a f = s.rdF a f := (rfl)

@[simp] theorem State.rdF_setCtx (s : State) (c : Ctx) (x : CellCtx) (a : Nat) (f : Nat × Nat) :
    (s.setCtx c x).rdF a f = s.rdF a f := by
  cases c <;> rfl

/-- A register other than the written one reads as before. -/
theorem State.rd_wrF_ne (s : State) {a b : Nat} (f : Nat × Nat) (x : Nat) (h : b ≠ a) : (s.wrF a f x).rd b = s.rd b :=
  s.rd_wr_ne _ h

theorem State.rdF_wrF_ne (s : State) {a b : Nat} (f g : Nat × Nat) (x : Nat) (h : b ≠ a) :
    (s.wrF a f x).rdF b g = s.rdF b g := by
  unfold State.rdF; rw [s.rd_wrF_ne f x h]

/-- The written field reads the value, cut to its width. -/
theorem State.rdF_wrF_same (s : State) (a : Nat) (f : Nat × Nat) (x : Nat) (h : f.2 ≤ f.1) (hn : f.1 < 64) :
    (s.wrF a f x).rdF a f = x % 2 ^ (f.1 + 1 - f.2) := by
  unfold State.rdF State.wrF
  rw [State.rd_wr_same, fld_fldPut_same _ _ _ _ h hn]

/-- A field beside the written one of the same register reads as before. -/
theorem State.rdF_wrF_beside (s : State) (a : Nat) (f g : Nat × Nat) (x : Nat) (h : f.2 ≤ f.1) (hn : f.1 < 64)
    (d : g.1 < f.2 ∨ f.1 < g.2) : (s.wrF a f x).rdF a g = s.rdF a g := by
  unfold State.rdF State.wrF
  rw [State.rd_wr_same, fld_fldPut_ne _ _ _ _ _ _ h hn d]

theorem State.rd_count_ne (s : State) {a b : Nat} (n : Nat) (h : b ≠ a) : (s.count a n).rd b = s.rd b := by
  unfold State.count; split
  · rfl
  · exact s.rd_wr_ne _ h

/-- A counter counts and saturates. -/
@[simp] theorem State.rd_count_same (s : State) (a n : Nat) : (s.count a n).rd a = satAdd64 (s.rd a) n := by
  unfold State.count; split
  · next h =>
    subst h
    have := (s.rd a).isLt
    simp [satAdd64, this]
  · simp

/-- A register write changes the CSR file alone. -/
theorem State.wr_csr_only (s : State) (a : Nat) (v : W64) : s.wr a v = { s with csr := (s.wr a v).csr } := (rfl)

theorem State.count_csr_only (s : State) (a n : Nat) : s.count a n = { s with csr := (s.count a n).csr } := by
  unfold State.count; split <;> rfl

/-! Contexts. -/

theorem cellKey_inj {c d : CellId} (h : cellKey c = cellKey d) : c = d := by
  obtain ⟨⟨a, ha⟩, ⟨b, hb⟩⟩ := c
  obtain ⟨⟨a', ha'⟩, ⟨b', hb'⟩⟩ := d
  simp only [cellKey] at h
  have : a = a' := by omega
  have : b = b' := by omega
  subst_vars; rfl

theorem zenKey_inj {d d' : Fin 16} {p p' : Fin 64} (h : zenKey d.val p.val = zenKey d'.val p'.val) : d = d' ∧ p = p' := by
  simp only [zenKey] at h
  constructor <;> apply Fin.ext <;> omega

@[simp] theorem State.cell_setCell_same (s : State) (c : CellId) (x : CellCtx) : (s.setCell c x).cell c = x :=
  SMap.get_set_same _ _ _ _

theorem State.cell_setCell_ne (s : State) {c d : CellId} (x : CellCtx) (h : d ≠ c) : (s.setCell c x).cell d = s.cell d :=
  SMap.get_set_ne _ _ _ _ (fun e => h (cellKey_inj e))

@[simp] theorem State.ctx_setCtx_same (s : State) (c : Ctx) (x : CellCtx) : (s.setCtx c x).ctx c = x := by
  cases c <;> exact SMap.get_set_same _ _ _ _

theorem State.ctx_setCtx_ne (s : State) {c d : Ctx} (x : CellCtx) (h : d ≠ c) : (s.setCtx c x).ctx d = s.ctx d := by
  cases c <;> cases d
  · exact s.cell_setCell_ne x (fun e => h (e ▸ rfl))
  · rfl
  · rfl
  · refine SMap.get_set_ne _ _ _ _ (fun e => h ?_)
    obtain ⟨h1, h2⟩ := zenKey_inj e
    subst h1; subst h2; rfl

@[simp] theorem State.ctx_wr (s : State) (a : Nat) (v : W64) (c : Ctx) : (s.wr a v).ctx c = s.ctx c := by cases c <;> rfl

@[simp] theorem State.ctx_wrF (s : State) (a : Nat) (f : Nat × Nat) (x : Nat) (c : Ctx) : (s.wrF a f x).ctx c = s.ctx c :=
  s.ctx_wr _ _ c

@[simp] theorem State.ctx_count (s : State) (a n : Nat) (c : Ctx) : (s.count a n).ctx c = s.ctx c := by
  unfold State.count; split
  · rfl
  · exact s.ctx_wr _ _ c

@[simp] theorem State.cell_wr (s : State) (a : Nat) (v : W64) (c : CellId) : (s.wr a v).cell c = s.cell c := (rfl)

@[simp] theorem State.cell_wrF (s : State) (a : Nat) (f : Nat × Nat) (x : Nat) (c : CellId) :
    (s.wrF a f x).cell c = s.cell c := (rfl)

@[simp] theorem State.cell_count (s : State) (a n : Nat) (c : CellId) : (s.count a n).cell c = s.cell c :=
  s.ctx_count a n (.cell c)

/-! Register files. -/

/-- s[n] after a write of s[k]: s0 reads 0 and its writes are discarded (R263). -/
theorem RegFile.getS_setS (r : RegFile) (k n : Nat) (v : W64) :
    (r.setS k v).getS n = if n = k ∧ n ≠ 0 then v else r.getS n := by
  unfold RegFile.setS RegFile.getS
  by_cases hk : k = 0
  · subst hk
    by_cases hn : n = 0 <;> simp [hn]
  · by_cases hn : n = 0
    · subst hn; simp
    · by_cases e : n = k
      · subst e; simp [hn]
      · simp [hk, hn, e, SMap.get_set_ne]

@[simp] theorem RegFile.getS_zero (r : RegFile) : r.getS 0 = 0 := (rfl)
@[simp] theorem RegFile.setS_desc (r : RegFile) (n : Nat) (v : W64) : (r.setS n v).desc = r.desc := by
  unfold RegFile.setS; split <;> rfl
@[simp] theorem RegFile.setS_pred (r : RegFile) (n : Nat) (v : W64) : (r.setS n v).pred = r.pred := by
  unfold RegFile.setS; split <;> rfl
@[simp] theorem RegFile.getD_setS (r : RegFile) (n k : Nat) (v : W64) : (r.setS n v).getD k = r.getD k := by
  simp [RegFile.getD]
@[simp] theorem RegFile.getP_setS (r : RegFile) (n k : Nat) (v : W64) : (r.setS n v).getP k = r.getP k := by
  simp [RegFile.getP]
@[simp] theorem RegFile.setP_scal (r : RegFile) (n : Nat) (b : Bool) : (r.setP n b).scal = r.scal := by
  unfold RegFile.setP; split <;> rfl
@[simp] theorem RegFile.setP_desc (r : RegFile) (n : Nat) (b : Bool) : (r.setP n b).desc = r.desc := by
  unfold RegFile.setP; split <;> rfl
@[simp] theorem RegFile.getS_setP (r : RegFile) (n k : Nat) (b : Bool) : (r.setP n b).getS k = r.getS k := by
  simp [RegFile.getS]
@[simp] theorem RegFile.getD_setP (r : RegFile) (n k : Nat) (b : Bool) : (r.setP n b).getD k = r.getD k := by
  simp [RegFile.getD]

/-- p[n] after a write of p[k]: p7 reads 1 and its writes are discarded (R263). -/
theorem RegFile.getP_setP (r : RegFile) (k n : Nat) (b : Bool) (hn : n < 8) :
    (r.setP k b).getP n = if n = k ∧ n ≠ 7 then b else r.getP n := by
  unfold RegFile.setP RegFile.getP
  by_cases hk : k ≥ 7
  · simp only [hk, if_true]
    by_cases h7 : n = 7
    · simp [h7]
    · rw [if_neg (by omega)]
  · simp only [hk, if_false]
    by_cases h7 : n = 7
    · simp [h7]
    · have hl : bitsPut r.pred.toNat k k (bnat b) < 2 ^ 8 := bitsPut_lt (le_refl k) (by omega) r.pred.isLt
      simp only [h7, decide_false, Bool.false_or, ne_eq, not_false_eq_true, and_true, BitVec.toNat_ofNat,
        Nat.mod_eq_of_lt hl]
      rw [testBit_bitsPut _ _ _ _ _ (le_refl k)]
      by_cases e : n = k
      · subst e; cases b <;> simp [bnat]
      · rw [if_neg (by omega), if_neg e]

/-- d[n] after a write of d[k]. -/
theorem RegFile.getD_setD (r : RegFile) (k n : Nat) (v : Desc) : (r.setD k v).getD n = if n = k then v else r.getD n := by
  unfold RegFile.setD RegFile.getD
  exact SMap.get_set _ _ _ _ _
@[simp] theorem RegFile.getS_setD (r : RegFile) (k n : Nat) (v : Desc) : (r.setD k v).getS n = r.getS n := (rfl)
@[simp] theorem RegFile.getP_setD (r : RegFile) (k n : Nat) (v : Desc) : (r.setD k v).getP n = r.getP n := (rfl)

/-! Folds. -/

/-- What every step of a fold keeps, the fold keeps. -/
theorem State.each_keeps {α : Type} (P : State → Prop) (l : List α) (f : State → α → State) (h : ∀ s x, P s → P (f s x))
    (s : State) (hs : P s) : P (s.each l f) := by
  unfold State.each
  induction l generalizing s with
  | nil => exact hs
  | cons x r ih => exact ih _ (h s x hs)

theorem State.each_eq {α β : Type} (g : State → β) (l : List α) (f : State → α → State) (h : ∀ s x, g (f s x) = g s)
    (s : State) : g (s.each l f) = g s :=
  State.each_keeps (fun t => g t = g s) l f (fun t x ht => (h t x).trans ht) s rfl

/-! Issue. -/

/-- The body of an issue runs when the context issues and holds no other instruction, the predicate is not pending and true,
the context performs the instruction, its fields hold and nothing that it names is pending (R260, R263, R265, R287). -/
theorem State.issue_body (s : State) (c : Ctx) (p : Pred) (i : Instr) (ok : Bool) (ss ps : List Nat) (body : State)
    (h1 : s.running c = true) (h0 : s.heldOther c i = false) (h2 : (s.ctx c).pendP.contains p.psel.val = false) (h3 : predTrue (s.ctx c).regs p = true)
    (h4 : performed c i = true) (h5 : ok = true) (h6 : ss.any (s.ctx c).pendS.contains = false)
    (h7 : ps.any (s.ctx c).pendP.contains = false) : s.issue c p i ok ss ps body = body := by
  simp only [State.issue, h1, h0, h2, h3, h4, h5, h6, h7, Bool.not_true, Bool.or_false, Bool.false_eq_true, if_false]

/-- Everything that an issue can do. -/
theorem State.issue_cases (s : State) (c : Ctx) (p : Pred) (i : Instr) (ok : Bool) (ss ps : List Nat) (body : State) :
    s.issue c p i ok ss ps body = s ∨ s.issue c p i ok ss ps body = s.hold c i ∨ s.issue c p i ok ss ps body = s.predOff c ∨
      s.issue c p i ok ss ps body = s.refuseIssue c 1 i ∨ s.issue c p i ok ss ps body = s.refuseIssue c 2 i ∨
      s.issue c p i ok ss ps body = body := by
  generalize h : s.issue c p i ok ss ps body = r
  simp only [State.issue] at h
  split at h
  · exact .inl h.symm
  · split at h
    · exact .inr (.inl h.symm)
    · split at h
      · exact .inr (.inr (.inl h.symm))
      · split at h
        · exact .inr (.inr (.inr (.inl h.symm)))
        · split at h
          · exact .inr (.inr (.inr (.inr (.inl h.symm))))
          · split at h
            · exact .inr (.inl h.symm)
            · exact .inr (.inr (.inr (.inr (.inr h.symm))))

/-- A context that holds nothing has nothing to issue first. -/
theorem State.heldOther_none (s : State) (c : Ctx) (i : Instr) (h : (s.ctx c).held = none) : s.heldOther c i = false := by
  simp only [State.heldOther, h]

/-- After it no context other than `c` differs, and `c` holds nothing. -/
theorem State.ctx_unhold (s : State) (c : Ctx) : (s.unhold c).ctx c = { s.ctx c with held := none } := by
  unfold State.unhold
  split
  · next h => cases e : s.ctx c; simp_all
  · simp

theorem State.ctx_unhold_ne (s : State) {c d : Ctx} (h : d ≠ c) : (s.unhold c).ctx d = s.ctx d := by
  unfold State.unhold
  split
  · rfl
  · exact State.ctx_setCtx_ne _ _ h

@[simp] theorem State.rd_unhold (s : State) (c : Ctx) (a : Nat) : (s.unhold c).rd a = s.rd a := by
  unfold State.unhold; split <;> simp

@[simp] theorem State.rdF_unhold (s : State) (c : Ctx) (a : Nat) (f : Nat × Nat) : (s.unhold c).rdF a f = s.rdF a f := by
  unfold State.unhold; split <;> simp

/-- A context that holds nothing is left as it is. -/
theorem State.unhold_none (s : State) (c : Ctx) (h : (s.ctx c).held = none) : s.unhold c = s := by
  simp [State.unhold, h]

end Sys2Proof.Machine
end

