-- ==== Sys2Proof/Laws/Access.lean ====
section
/-! SUPPORT. What a guarded access of a register does: performed where the plane has the right and no rule refuses it, else
refused and counted. -/

namespace Sys2Proof.Machine

/-- Management may make every access while its port has power and Lodestar is up. -/
@[simp] theorem State.mayAccess_mgmt (s : State) (a : Nat) (w : Bool) : s.mayAccess .mgmt a w = s.mgmtUp := (rfl)

@[simp] theorem failIf_false {k : Nat} : failIf false k = none := (rfl)

/-- An access that the plane may make and that no rule refuses is performed. -/
theorem State.guarded_ok (s : State) {pl : Plane} {a : Nat} {fails : List (Option Nat)} (eff : State)
    (hm : s.mayAccess pl a true = true) (hf : ∀ f ∈ fails, f = none) : s.guarded pl a fails eff = eff := by
  unfold State.guarded
  rw [hm]
  induction fails with
  | nil => rfl
  | cons f r ih =>
    have e : f = none := hf f (List.mem_cons_self ..)
    subst e
    exact ih fun g hg => hf g (List.mem_cons_of_mem _ hg)

/-- An access that the plane may not make is refused with cause 4. -/
theorem State.guarded_denied (s : State) {pl : Plane} {a : Nat} (fails : List (Option Nat)) (eff : State)
    (hm : s.mayAccess pl a true = false) : s.guarded pl a fails eff = s.csrRefuse pl a 4 := by
  unfold State.guarded
  rw [hm]
  rfl

/-- An access that one rule refuses is refused with its cause. -/
theorem State.guarded_refused (s : State) {pl : Plane} {a k : Nat} (eff : State) (hm : s.mayAccess pl a true = true) :
    s.guarded pl a [some k] eff = s.csrRefuse pl a k := by
  unfold State.guarded
  rw [hm]
  rfl

/-- A refusal of management counts in MGMT.CSR_VIOL_CNT and does nothing else. -/
theorem State.csrRefuse_mgmt (s : State) (a k : Nat) (h : s.mgmtUp = true) :
    s.csrRefuse .mgmt a k = s.count R.MGMT_CSR_VIOL_CNT 1 := by
  unfold State.csrRefuse
  rw [h]
  rfl

end Sys2Proof.Machine
end

