-- ==== Sys2Proof/Laws/Frames.lean ====
section
/-! SUPPORT. What the shared operations of the sequencer leave as it is: one lemma per field. -/

namespace Sys2Proof.Machine

@[simp] theorem State.setPc_pending (s : State) (c : Ctx) (x : Nat) : (s.setPc c x).pending = s.pending := by cases c <;> simp [State.setPc]
@[simp] theorem State.setPc_cells (s : State) (c : Ctx) (x : Nat) : (s.setPc c x).cells = s.cells := by cases c <;> simp [State.setPc, State.setCtx]
@[simp] theorem State.setPc_dir (s : State) (c : Ctx) (x : Nat) : (s.setPc c x).dir = s.dir := by cases c <;> simp [State.setPc]
@[simp] theorem State.setPc_bytes (s : State) (c : Ctx) (x : Nat) : (s.setPc c x).bytes = s.bytes := by cases c <;> simp [State.setPc]
@[simp] theorem State.setPc_frames (s : State) (c : Ctx) (x : Nat) : (s.setPc c x).frames = s.frames := by cases c <;> simp [State.setPc]
@[simp] theorem State.setPc_ue (s : State) (c : Ctx) (x : Nat) : (s.setPc c x).ue = s.ue := by cases c <;> simp [State.setPc]
@[simp] theorem State.setPc_ce (s : State) (c : Ctx) (x : Nat) : (s.setPc c x).ce = s.ce := by cases c <;> simp [State.setPc]
@[simp] theorem State.setPc_tiers (s : State) (c : Ctx) (x : Nat) : (s.setPc c x).tiers = s.tiers := by cases c <;> simp [State.setPc]
@[simp] theorem State.setPc_zrun (s : State) (c : Ctx) (x : Nat) : (s.setPc c x).zrun = s.zrun := by cases c <;> simp [State.setPc]
@[simp] theorem State.setPc_zslice (s : State) (c : Ctx) (x : Nat) : (s.setPc c x).zslice = s.zslice := by cases c <;> simp [State.setPc]
@[simp] theorem State.setPc_wear (s : State) (c : Ctx) (x : Nat) : (s.setPc c x).wear = s.wear := by cases c <;> simp [State.setPc]
@[simp] theorem State.setPc_traps (s : State) (c : Ctx) (x : Nat) : (s.setPc c x).traps = s.traps := by cases c <;> simp [State.setPc]
@[simp] theorem State.setPc_fsrPend (s : State) (c : Ctx) (x : Nat) : (s.setPc c x).fsrPend = s.fsrPend := by cases c <;> simp [State.setPc]
@[simp] theorem State.setPc_alm (s : State) (c : Ctx) (x : Nat) : (s.setPc c x).alm = s.alm := by cases c <;> simp [State.setPc]
@[simp] theorem State.setPc_vrd (s : State) (c : Ctx) (x : Nat) : (s.setPc c x).vrd = s.vrd := by cases c <;> simp [State.setPc]
@[simp] theorem State.setPc_tts (s : State) (c : Ctx) (x : Nat) : (s.setPc c x).tts = s.tts := by cases c <;> simp [State.setPc]
@[simp] theorem State.setPc_net (s : State) (c : Ctx) (x : Nat) : (s.setPc c x).net = s.net := by cases c <;> simp [State.setPc]
@[simp] theorem State.setPc_ptp (s : State) (c : Ctx) (x : Nat) : (s.setPc c x).ptp = s.ptp := by cases c <;> simp [State.setPc]
@[simp] theorem State.setPc_time (s : State) (c : Ctx) (x : Nat) : (s.setPc c x).time = s.time := by cases c <;> simp [State.setPc]
@[simp] theorem State.setPc_span (s : State) (c : Ctx) (x : Nat) : (s.setPc c x).span = s.span := by cases c <;> simp [State.setPc]
@[simp] theorem State.setPc_fencing (s : State) (c : Ctx) (x : Nat) : (s.setPc c x).fencing = s.fencing := by cases c <;> simp [State.setPc]
@[simp] theorem State.setPc_rejoined (s : State) (c : Ctx) (x : Nat) : (s.setPc c x).rejoined = s.rejoined := by cases c <;> simp [State.setPc]
@[simp] theorem State.setPc_lode (s : State) (c : Ctx) (x : Nat) : (s.setPc c x).lode = s.lode := by cases c <;> simp [State.setPc]
@[simp] theorem State.setPc_pwr (s : State) (c : Ctx) (x : Nat) : (s.setPc c x).pwr = s.pwr := by cases c <;> simp [State.setPc]

@[simp] theorem State.unhold_pending (s : State) (c : Ctx) : (s.unhold c).pending = s.pending := by unfold State.unhold; split <;> simp
@[simp] theorem State.unhold_csr (s : State) (c : Ctx) : (s.unhold c).csr = s.csr := by unfold State.unhold; split <;> simp
@[simp] theorem State.unhold_dir (s : State) (c : Ctx) : (s.unhold c).dir = s.dir := by unfold State.unhold; split <;> simp
@[simp] theorem State.unhold_bytes (s : State) (c : Ctx) : (s.unhold c).bytes = s.bytes := by unfold State.unhold; split <;> simp
@[simp] theorem State.unhold_frames (s : State) (c : Ctx) : (s.unhold c).frames = s.frames := by unfold State.unhold; split <;> simp
@[simp] theorem State.unhold_ue (s : State) (c : Ctx) : (s.unhold c).ue = s.ue := by unfold State.unhold; split <;> simp
@[simp] theorem State.unhold_ce (s : State) (c : Ctx) : (s.unhold c).ce = s.ce := by unfold State.unhold; split <;> simp
@[simp] theorem State.unhold_tiers (s : State) (c : Ctx) : (s.unhold c).tiers = s.tiers := by unfold State.unhold; split <;> simp
@[simp] theorem State.unhold_zrun (s : State) (c : Ctx) : (s.unhold c).zrun = s.zrun := by unfold State.unhold; split <;> simp
@[simp] theorem State.unhold_zslice (s : State) (c : Ctx) : (s.unhold c).zslice = s.zslice := by unfold State.unhold; split <;> simp
@[simp] theorem State.unhold_wear (s : State) (c : Ctx) : (s.unhold c).wear = s.wear := by unfold State.unhold; split <;> simp
@[simp] theorem State.unhold_traps (s : State) (c : Ctx) : (s.unhold c).traps = s.traps := by unfold State.unhold; split <;> simp
@[simp] theorem State.unhold_fsrPend (s : State) (c : Ctx) : (s.unhold c).fsrPend = s.fsrPend := by unfold State.unhold; split <;> simp
@[simp] theorem State.unhold_alm (s : State) (c : Ctx) : (s.unhold c).alm = s.alm := by unfold State.unhold; split <;> simp
@[simp] theorem State.unhold_vrd (s : State) (c : Ctx) : (s.unhold c).vrd = s.vrd := by unfold State.unhold; split <;> simp
@[simp] theorem State.unhold_tts (s : State) (c : Ctx) : (s.unhold c).tts = s.tts := by unfold State.unhold; split <;> simp
@[simp] theorem State.unhold_net (s : State) (c : Ctx) : (s.unhold c).net = s.net := by unfold State.unhold; split <;> simp
@[simp] theorem State.unhold_ptp (s : State) (c : Ctx) : (s.unhold c).ptp = s.ptp := by unfold State.unhold; split <;> simp
@[simp] theorem State.unhold_time (s : State) (c : Ctx) : (s.unhold c).time = s.time := by unfold State.unhold; split <;> simp
@[simp] theorem State.unhold_span (s : State) (c : Ctx) : (s.unhold c).span = s.span := by unfold State.unhold; split <;> simp
@[simp] theorem State.unhold_fencing (s : State) (c : Ctx) : (s.unhold c).fencing = s.fencing := by unfold State.unhold; split <;> simp
@[simp] theorem State.unhold_rejoined (s : State) (c : Ctx) : (s.unhold c).rejoined = s.rejoined := by unfold State.unhold; split <;> simp
@[simp] theorem State.unhold_lode (s : State) (c : Ctx) : (s.unhold c).lode = s.lode := by unfold State.unhold; split <;> simp
@[simp] theorem State.unhold_pwr (s : State) (c : Ctx) : (s.unhold c).pwr = s.pwr := by unfold State.unhold; split <;> simp

@[simp] theorem State.issuedAt_pending (s : State) (c : Ctx) (pc : Nat) : (s.issuedAt c pc).pending = s.pending := by cases c <;> simp [State.issuedAt]
@[simp] theorem State.issuedAt_dir (s : State) (c : Ctx) (pc : Nat) : (s.issuedAt c pc).dir = s.dir := by cases c <;> simp [State.issuedAt]
@[simp] theorem State.issuedAt_bytes (s : State) (c : Ctx) (pc : Nat) : (s.issuedAt c pc).bytes = s.bytes := by cases c <;> simp [State.issuedAt]
@[simp] theorem State.issuedAt_frames (s : State) (c : Ctx) (pc : Nat) : (s.issuedAt c pc).frames = s.frames := by cases c <;> simp [State.issuedAt]
@[simp] theorem State.issuedAt_ue (s : State) (c : Ctx) (pc : Nat) : (s.issuedAt c pc).ue = s.ue := by cases c <;> simp [State.issuedAt]
@[simp] theorem State.issuedAt_ce (s : State) (c : Ctx) (pc : Nat) : (s.issuedAt c pc).ce = s.ce := by cases c <;> simp [State.issuedAt]
@[simp] theorem State.issuedAt_tiers (s : State) (c : Ctx) (pc : Nat) : (s.issuedAt c pc).tiers = s.tiers := by cases c <;> simp [State.issuedAt]
@[simp] theorem State.issuedAt_zrun (s : State) (c : Ctx) (pc : Nat) : (s.issuedAt c pc).zrun = s.zrun := by cases c <;> simp [State.issuedAt]
@[simp] theorem State.issuedAt_zslice (s : State) (c : Ctx) (pc : Nat) : (s.issuedAt c pc).zslice = s.zslice := by cases c <;> simp [State.issuedAt]
@[simp] theorem State.issuedAt_wear (s : State) (c : Ctx) (pc : Nat) : (s.issuedAt c pc).wear = s.wear := by cases c <;> simp [State.issuedAt]
@[simp] theorem State.issuedAt_traps (s : State) (c : Ctx) (pc : Nat) : (s.issuedAt c pc).traps = s.traps := by cases c <;> simp [State.issuedAt]
@[simp] theorem State.issuedAt_fsrPend (s : State) (c : Ctx) (pc : Nat) : (s.issuedAt c pc).fsrPend = s.fsrPend := by cases c <;> simp [State.issuedAt]
@[simp] theorem State.issuedAt_alm (s : State) (c : Ctx) (pc : Nat) : (s.issuedAt c pc).alm = s.alm := by cases c <;> simp [State.issuedAt]
@[simp] theorem State.issuedAt_vrd (s : State) (c : Ctx) (pc : Nat) : (s.issuedAt c pc).vrd = s.vrd := by cases c <;> simp [State.issuedAt]
@[simp] theorem State.issuedAt_tts (s : State) (c : Ctx) (pc : Nat) : (s.issuedAt c pc).tts = s.tts := by cases c <;> simp [State.issuedAt]
@[simp] theorem State.issuedAt_net (s : State) (c : Ctx) (pc : Nat) : (s.issuedAt c pc).net = s.net := by cases c <;> simp [State.issuedAt]
@[simp] theorem State.issuedAt_ptp (s : State) (c : Ctx) (pc : Nat) : (s.issuedAt c pc).ptp = s.ptp := by cases c <;> simp [State.issuedAt]
@[simp] theorem State.issuedAt_time (s : State) (c : Ctx) (pc : Nat) : (s.issuedAt c pc).time = s.time := by cases c <;> simp [State.issuedAt]
@[simp] theorem State.issuedAt_span (s : State) (c : Ctx) (pc : Nat) : (s.issuedAt c pc).span = s.span := by cases c <;> simp [State.issuedAt]
@[simp] theorem State.issuedAt_fencing (s : State) (c : Ctx) (pc : Nat) : (s.issuedAt c pc).fencing = s.fencing := by cases c <;> simp [State.issuedAt]
@[simp] theorem State.issuedAt_rejoined (s : State) (c : Ctx) (pc : Nat) : (s.issuedAt c pc).rejoined = s.rejoined := by cases c <;> simp [State.issuedAt]
@[simp] theorem State.issuedAt_lode (s : State) (c : Ctx) (pc : Nat) : (s.issuedAt c pc).lode = s.lode := by cases c <;> simp [State.issuedAt]
@[simp] theorem State.issuedAt_pwr (s : State) (c : Ctx) (pc : Nat) : (s.issuedAt c pc).pwr = s.pwr := by cases c <;> simp [State.issuedAt]

@[simp] theorem State.predOff_pending (s : State) (c : Ctx) : (s.predOff c).pending = s.pending := by cases c <;> simp [State.predOff]
@[simp] theorem State.predOff_dir (s : State) (c : Ctx) : (s.predOff c).dir = s.dir := by cases c <;> simp [State.predOff]
@[simp] theorem State.predOff_bytes (s : State) (c : Ctx) : (s.predOff c).bytes = s.bytes := by cases c <;> simp [State.predOff]
@[simp] theorem State.predOff_frames (s : State) (c : Ctx) : (s.predOff c).frames = s.frames := by cases c <;> simp [State.predOff]
@[simp] theorem State.predOff_ue (s : State) (c : Ctx) : (s.predOff c).ue = s.ue := by cases c <;> simp [State.predOff]
@[simp] theorem State.predOff_ce (s : State) (c : Ctx) : (s.predOff c).ce = s.ce := by cases c <;> simp [State.predOff]
@[simp] theorem State.predOff_tiers (s : State) (c : Ctx) : (s.predOff c).tiers = s.tiers := by cases c <;> simp [State.predOff]
@[simp] theorem State.predOff_zrun (s : State) (c : Ctx) : (s.predOff c).zrun = s.zrun := by cases c <;> simp [State.predOff]
@[simp] theorem State.predOff_zslice (s : State) (c : Ctx) : (s.predOff c).zslice = s.zslice := by cases c <;> simp [State.predOff]
@[simp] theorem State.predOff_wear (s : State) (c : Ctx) : (s.predOff c).wear = s.wear := by cases c <;> simp [State.predOff]
@[simp] theorem State.predOff_traps (s : State) (c : Ctx) : (s.predOff c).traps = s.traps := by cases c <;> simp [State.predOff]
@[simp] theorem State.predOff_fsrPend (s : State) (c : Ctx) : (s.predOff c).fsrPend = s.fsrPend := by cases c <;> simp [State.predOff]
@[simp] theorem State.predOff_alm (s : State) (c : Ctx) : (s.predOff c).alm = s.alm := by cases c <;> simp [State.predOff]
@[simp] theorem State.predOff_vrd (s : State) (c : Ctx) : (s.predOff c).vrd = s.vrd := by cases c <;> simp [State.predOff]
@[simp] theorem State.predOff_tts (s : State) (c : Ctx) : (s.predOff c).tts = s.tts := by cases c <;> simp [State.predOff]
@[simp] theorem State.predOff_net (s : State) (c : Ctx) : (s.predOff c).net = s.net := by cases c <;> simp [State.predOff]
@[simp] theorem State.predOff_ptp (s : State) (c : Ctx) : (s.predOff c).ptp = s.ptp := by cases c <;> simp [State.predOff]
@[simp] theorem State.predOff_time (s : State) (c : Ctx) : (s.predOff c).time = s.time := by cases c <;> simp [State.predOff]
@[simp] theorem State.predOff_span (s : State) (c : Ctx) : (s.predOff c).span = s.span := by cases c <;> simp [State.predOff]
@[simp] theorem State.predOff_fencing (s : State) (c : Ctx) : (s.predOff c).fencing = s.fencing := by cases c <;> simp [State.predOff]
@[simp] theorem State.predOff_rejoined (s : State) (c : Ctx) : (s.predOff c).rejoined = s.rejoined := by cases c <;> simp [State.predOff]
@[simp] theorem State.predOff_lode (s : State) (c : Ctx) : (s.predOff c).lode = s.lode := by cases c <;> simp [State.predOff]
@[simp] theorem State.predOff_pwr (s : State) (c : Ctx) : (s.predOff c).pwr = s.pwr := by cases c <;> simp [State.predOff]

@[simp] theorem State.violate_pending (s : State) (c : Ctx) (k m n pc : Nat) : (s.violate c k m n pc).pending = s.pending := by cases c <;> simp [State.violate]
@[simp] theorem State.violate_cells (s : State) (c : Ctx) (k m n pc : Nat) : (s.violate c k m n pc).cells = s.cells := by cases c <;> simp [State.violate]
@[simp] theorem State.violate_zctx (s : State) (c : Ctx) (k m n pc : Nat) : (s.violate c k m n pc).zctx = s.zctx := by cases c <;> simp [State.violate]
@[simp] theorem State.violate_dir (s : State) (c : Ctx) (k m n pc : Nat) : (s.violate c k m n pc).dir = s.dir := by cases c <;> simp [State.violate]
@[simp] theorem State.violate_bytes (s : State) (c : Ctx) (k m n pc : Nat) : (s.violate c k m n pc).bytes = s.bytes := by cases c <;> simp [State.violate]
@[simp] theorem State.violate_frames (s : State) (c : Ctx) (k m n pc : Nat) : (s.violate c k m n pc).frames = s.frames := by cases c <;> simp [State.violate]
@[simp] theorem State.violate_ue (s : State) (c : Ctx) (k m n pc : Nat) : (s.violate c k m n pc).ue = s.ue := by cases c <;> simp [State.violate]
@[simp] theorem State.violate_ce (s : State) (c : Ctx) (k m n pc : Nat) : (s.violate c k m n pc).ce = s.ce := by cases c <;> simp [State.violate]
@[simp] theorem State.violate_tiers (s : State) (c : Ctx) (k m n pc : Nat) : (s.violate c k m n pc).tiers = s.tiers := by cases c <;> simp [State.violate]
@[simp] theorem State.violate_zrun (s : State) (c : Ctx) (k m n pc : Nat) : (s.violate c k m n pc).zrun = s.zrun := by cases c <;> simp [State.violate]
@[simp] theorem State.violate_zslice (s : State) (c : Ctx) (k m n pc : Nat) : (s.violate c k m n pc).zslice = s.zslice := by cases c <;> simp [State.violate]
@[simp] theorem State.violate_wear (s : State) (c : Ctx) (k m n pc : Nat) : (s.violate c k m n pc).wear = s.wear := by cases c <;> simp [State.violate]
@[simp] theorem State.violate_traps (s : State) (c : Ctx) (k m n pc : Nat) : (s.violate c k m n pc).traps = s.traps := by cases c <;> simp [State.violate]
@[simp] theorem State.violate_fsrPend (s : State) (c : Ctx) (k m n pc : Nat) : (s.violate c k m n pc).fsrPend = s.fsrPend := by cases c <;> simp [State.violate]
@[simp] theorem State.violate_alm (s : State) (c : Ctx) (k m n pc : Nat) : (s.violate c k m n pc).alm = s.alm := by cases c <;> simp [State.violate]
@[simp] theorem State.violate_vrd (s : State) (c : Ctx) (k m n pc : Nat) : (s.violate c k m n pc).vrd = s.vrd := by cases c <;> simp [State.violate]
@[simp] theorem State.violate_tts (s : State) (c : Ctx) (k m n pc : Nat) : (s.violate c k m n pc).tts = s.tts := by cases c <;> simp [State.violate]
@[simp] theorem State.violate_net (s : State) (c : Ctx) (k m n pc : Nat) : (s.violate c k m n pc).net = s.net := by cases c <;> simp [State.violate]
@[simp] theorem State.violate_ptp (s : State) (c : Ctx) (k m n pc : Nat) : (s.violate c k m n pc).ptp = s.ptp := by cases c <;> simp [State.violate]
@[simp] theorem State.violate_time (s : State) (c : Ctx) (k m n pc : Nat) : (s.violate c k m n pc).time = s.time := by cases c <;> simp [State.violate]
@[simp] theorem State.violate_span (s : State) (c : Ctx) (k m n pc : Nat) : (s.violate c k m n pc).span = s.span := by cases c <;> simp [State.violate]
@[simp] theorem State.violate_fencing (s : State) (c : Ctx) (k m n pc : Nat) : (s.violate c k m n pc).fencing = s.fencing := by cases c <;> simp [State.violate]
@[simp] theorem State.violate_rejoined (s : State) (c : Ctx) (k m n pc : Nat) : (s.violate c k m n pc).rejoined = s.rejoined := by cases c <;> simp [State.violate]
@[simp] theorem State.violate_lode (s : State) (c : Ctx) (k m n pc : Nat) : (s.violate c k m n pc).lode = s.lode := by cases c <;> simp [State.violate]
@[simp] theorem State.violate_pwr (s : State) (c : Ctx) (k m n pc : Nat) : (s.violate c k m n pc).pwr = s.pwr := by cases c <;> simp [State.violate]

@[simp] theorem State.violateInsn_pending (s : State) (c : Ctx) (k : Nat) (i : Instr) (pc : Nat) : (s.violateInsn c k i pc).pending = s.pending := by cases c <;> simp [State.violateInsn]
@[simp] theorem State.violateInsn_cells (s : State) (c : Ctx) (k : Nat) (i : Instr) (pc : Nat) : (s.violateInsn c k i pc).cells = s.cells := by cases c <;> simp [State.violateInsn]
@[simp] theorem State.violateInsn_zctx (s : State) (c : Ctx) (k : Nat) (i : Instr) (pc : Nat) : (s.violateInsn c k i pc).zctx = s.zctx := by cases c <;> simp [State.violateInsn]
@[simp] theorem State.violateInsn_dir (s : State) (c : Ctx) (k : Nat) (i : Instr) (pc : Nat) : (s.violateInsn c k i pc).dir = s.dir := by cases c <;> simp [State.violateInsn]
@[simp] theorem State.violateInsn_bytes (s : State) (c : Ctx) (k : Nat) (i : Instr) (pc : Nat) : (s.violateInsn c k i pc).bytes = s.bytes := by cases c <;> simp [State.violateInsn]
@[simp] theorem State.violateInsn_frames (s : State) (c : Ctx) (k : Nat) (i : Instr) (pc : Nat) : (s.violateInsn c k i pc).frames = s.frames := by cases c <;> simp [State.violateInsn]
@[simp] theorem State.violateInsn_ue (s : State) (c : Ctx) (k : Nat) (i : Instr) (pc : Nat) : (s.violateInsn c k i pc).ue = s.ue := by cases c <;> simp [State.violateInsn]
@[simp] theorem State.violateInsn_ce (s : State) (c : Ctx) (k : Nat) (i : Instr) (pc : Nat) : (s.violateInsn c k i pc).ce = s.ce := by cases c <;> simp [State.violateInsn]
@[simp] theorem State.violateInsn_tiers (s : State) (c : Ctx) (k : Nat) (i : Instr) (pc : Nat) : (s.violateInsn c k i pc).tiers = s.tiers := by cases c <;> simp [State.violateInsn]
@[simp] theorem State.violateInsn_zrun (s : State) (c : Ctx) (k : Nat) (i : Instr) (pc : Nat) : (s.violateInsn c k i pc).zrun = s.zrun := by cases c <;> simp [State.violateInsn]
@[simp] theorem State.violateInsn_zslice (s : State) (c : Ctx) (k : Nat) (i : Instr) (pc : Nat) : (s.violateInsn c k i pc).zslice = s.zslice := by cases c <;> simp [State.violateInsn]
@[simp] theorem State.violateInsn_wear (s : State) (c : Ctx) (k : Nat) (i : Instr) (pc : Nat) : (s.violateInsn c k i pc).wear = s.wear := by cases c <;> simp [State.violateInsn]
@[simp] theorem State.violateInsn_traps (s : State) (c : Ctx) (k : Nat) (i : Instr) (pc : Nat) : (s.violateInsn c k i pc).traps = s.traps := by cases c <;> simp [State.violateInsn]
@[simp] theorem State.violateInsn_fsrPend (s : State) (c : Ctx) (k : Nat) (i : Instr) (pc : Nat) : (s.violateInsn c k i pc).fsrPend = s.fsrPend := by cases c <;> simp [State.violateInsn]
@[simp] theorem State.violateInsn_alm (s : State) (c : Ctx) (k : Nat) (i : Instr) (pc : Nat) : (s.violateInsn c k i pc).alm = s.alm := by cases c <;> simp [State.violateInsn]
@[simp] theorem State.violateInsn_vrd (s : State) (c : Ctx) (k : Nat) (i : Instr) (pc : Nat) : (s.violateInsn c k i pc).vrd = s.vrd := by cases c <;> simp [State.violateInsn]
@[simp] theorem State.violateInsn_tts (s : State) (c : Ctx) (k : Nat) (i : Instr) (pc : Nat) : (s.violateInsn c k i pc).tts = s.tts := by cases c <;> simp [State.violateInsn]
@[simp] theorem State.violateInsn_net (s : State) (c : Ctx) (k : Nat) (i : Instr) (pc : Nat) : (s.violateInsn c k i pc).net = s.net := by cases c <;> simp [State.violateInsn]
@[simp] theorem State.violateInsn_ptp (s : State) (c : Ctx) (k : Nat) (i : Instr) (pc : Nat) : (s.violateInsn c k i pc).ptp = s.ptp := by cases c <;> simp [State.violateInsn]
@[simp] theorem State.violateInsn_time (s : State) (c : Ctx) (k : Nat) (i : Instr) (pc : Nat) : (s.violateInsn c k i pc).time = s.time := by cases c <;> simp [State.violateInsn]
@[simp] theorem State.violateInsn_span (s : State) (c : Ctx) (k : Nat) (i : Instr) (pc : Nat) : (s.violateInsn c k i pc).span = s.span := by cases c <;> simp [State.violateInsn]
@[simp] theorem State.violateInsn_fencing (s : State) (c : Ctx) (k : Nat) (i : Instr) (pc : Nat) : (s.violateInsn c k i pc).fencing = s.fencing := by cases c <;> simp [State.violateInsn]
@[simp] theorem State.violateInsn_rejoined (s : State) (c : Ctx) (k : Nat) (i : Instr) (pc : Nat) : (s.violateInsn c k i pc).rejoined = s.rejoined := by cases c <;> simp [State.violateInsn]
@[simp] theorem State.violateInsn_lode (s : State) (c : Ctx) (k : Nat) (i : Instr) (pc : Nat) : (s.violateInsn c k i pc).lode = s.lode := by cases c <;> simp [State.violateInsn]
@[simp] theorem State.violateInsn_pwr (s : State) (c : Ctx) (k : Nat) (i : Instr) (pc : Nat) : (s.violateInsn c k i pc).pwr = s.pwr := by cases c <;> simp [State.violateInsn]

@[simp] theorem State.refuseIssue_pending (s : State) (c : Ctx) (k : Nat) (i : Instr) : (s.refuseIssue c k i).pending = s.pending := by cases c <;> simp [State.refuseIssue]
@[simp] theorem State.refuseIssue_dir (s : State) (c : Ctx) (k : Nat) (i : Instr) : (s.refuseIssue c k i).dir = s.dir := by cases c <;> simp [State.refuseIssue]
@[simp] theorem State.refuseIssue_bytes (s : State) (c : Ctx) (k : Nat) (i : Instr) : (s.refuseIssue c k i).bytes = s.bytes := by cases c <;> simp [State.refuseIssue]
@[simp] theorem State.refuseIssue_frames (s : State) (c : Ctx) (k : Nat) (i : Instr) : (s.refuseIssue c k i).frames = s.frames := by cases c <;> simp [State.refuseIssue]
@[simp] theorem State.refuseIssue_ue (s : State) (c : Ctx) (k : Nat) (i : Instr) : (s.refuseIssue c k i).ue = s.ue := by cases c <;> simp [State.refuseIssue]
@[simp] theorem State.refuseIssue_ce (s : State) (c : Ctx) (k : Nat) (i : Instr) : (s.refuseIssue c k i).ce = s.ce := by cases c <;> simp [State.refuseIssue]
@[simp] theorem State.refuseIssue_tiers (s : State) (c : Ctx) (k : Nat) (i : Instr) : (s.refuseIssue c k i).tiers = s.tiers := by cases c <;> simp [State.refuseIssue]
@[simp] theorem State.refuseIssue_zrun (s : State) (c : Ctx) (k : Nat) (i : Instr) : (s.refuseIssue c k i).zrun = s.zrun := by cases c <;> simp [State.refuseIssue]
@[simp] theorem State.refuseIssue_zslice (s : State) (c : Ctx) (k : Nat) (i : Instr) : (s.refuseIssue c k i).zslice = s.zslice := by cases c <;> simp [State.refuseIssue]
@[simp] theorem State.refuseIssue_wear (s : State) (c : Ctx) (k : Nat) (i : Instr) : (s.refuseIssue c k i).wear = s.wear := by cases c <;> simp [State.refuseIssue]
@[simp] theorem State.refuseIssue_traps (s : State) (c : Ctx) (k : Nat) (i : Instr) : (s.refuseIssue c k i).traps = s.traps := by cases c <;> simp [State.refuseIssue]
@[simp] theorem State.refuseIssue_fsrPend (s : State) (c : Ctx) (k : Nat) (i : Instr) : (s.refuseIssue c k i).fsrPend = s.fsrPend := by cases c <;> simp [State.refuseIssue]
@[simp] theorem State.refuseIssue_alm (s : State) (c : Ctx) (k : Nat) (i : Instr) : (s.refuseIssue c k i).alm = s.alm := by cases c <;> simp [State.refuseIssue]
@[simp] theorem State.refuseIssue_vrd (s : State) (c : Ctx) (k : Nat) (i : Instr) : (s.refuseIssue c k i).vrd = s.vrd := by cases c <;> simp [State.refuseIssue]
@[simp] theorem State.refuseIssue_tts (s : State) (c : Ctx) (k : Nat) (i : Instr) : (s.refuseIssue c k i).tts = s.tts := by cases c <;> simp [State.refuseIssue]
@[simp] theorem State.refuseIssue_net (s : State) (c : Ctx) (k : Nat) (i : Instr) : (s.refuseIssue c k i).net = s.net := by cases c <;> simp [State.refuseIssue]
@[simp] theorem State.refuseIssue_ptp (s : State) (c : Ctx) (k : Nat) (i : Instr) : (s.refuseIssue c k i).ptp = s.ptp := by cases c <;> simp [State.refuseIssue]
@[simp] theorem State.refuseIssue_time (s : State) (c : Ctx) (k : Nat) (i : Instr) : (s.refuseIssue c k i).time = s.time := by cases c <;> simp [State.refuseIssue]
@[simp] theorem State.refuseIssue_span (s : State) (c : Ctx) (k : Nat) (i : Instr) : (s.refuseIssue c k i).span = s.span := by cases c <;> simp [State.refuseIssue]
@[simp] theorem State.refuseIssue_fencing (s : State) (c : Ctx) (k : Nat) (i : Instr) : (s.refuseIssue c k i).fencing = s.fencing := by cases c <;> simp [State.refuseIssue]
@[simp] theorem State.refuseIssue_rejoined (s : State) (c : Ctx) (k : Nat) (i : Instr) : (s.refuseIssue c k i).rejoined = s.rejoined := by cases c <;> simp [State.refuseIssue]
@[simp] theorem State.refuseIssue_lode (s : State) (c : Ctx) (k : Nat) (i : Instr) : (s.refuseIssue c k i).lode = s.lode := by cases c <;> simp [State.refuseIssue]
@[simp] theorem State.refuseIssue_pwr (s : State) (c : Ctx) (k : Nat) (i : Instr) : (s.refuseIssue c k i).pwr = s.pwr := by cases c <;> simp [State.refuseIssue]

@[simp] theorem State.step1_pending (s : State) (c : Ctx) : (s.step1 c).pending = s.pending := by cases c <;> simp [State.step1]
@[simp] theorem State.step1_dir (s : State) (c : Ctx) : (s.step1 c).dir = s.dir := by cases c <;> simp [State.step1]
@[simp] theorem State.step1_bytes (s : State) (c : Ctx) : (s.step1 c).bytes = s.bytes := by cases c <;> simp [State.step1]
@[simp] theorem State.step1_frames (s : State) (c : Ctx) : (s.step1 c).frames = s.frames := by cases c <;> simp [State.step1]
@[simp] theorem State.step1_ue (s : State) (c : Ctx) : (s.step1 c).ue = s.ue := by cases c <;> simp [State.step1]
@[simp] theorem State.step1_ce (s : State) (c : Ctx) : (s.step1 c).ce = s.ce := by cases c <;> simp [State.step1]
@[simp] theorem State.step1_tiers (s : State) (c : Ctx) : (s.step1 c).tiers = s.tiers := by cases c <;> simp [State.step1]
@[simp] theorem State.step1_zrun (s : State) (c : Ctx) : (s.step1 c).zrun = s.zrun := by cases c <;> simp [State.step1]
@[simp] theorem State.step1_zslice (s : State) (c : Ctx) : (s.step1 c).zslice = s.zslice := by cases c <;> simp [State.step1]
@[simp] theorem State.step1_wear (s : State) (c : Ctx) : (s.step1 c).wear = s.wear := by cases c <;> simp [State.step1]
@[simp] theorem State.step1_traps (s : State) (c : Ctx) : (s.step1 c).traps = s.traps := by cases c <;> simp [State.step1]
@[simp] theorem State.step1_fsrPend (s : State) (c : Ctx) : (s.step1 c).fsrPend = s.fsrPend := by cases c <;> simp [State.step1]
@[simp] theorem State.step1_alm (s : State) (c : Ctx) : (s.step1 c).alm = s.alm := by cases c <;> simp [State.step1]
@[simp] theorem State.step1_vrd (s : State) (c : Ctx) : (s.step1 c).vrd = s.vrd := by cases c <;> simp [State.step1]
@[simp] theorem State.step1_tts (s : State) (c : Ctx) : (s.step1 c).tts = s.tts := by cases c <;> simp [State.step1]
@[simp] theorem State.step1_net (s : State) (c : Ctx) : (s.step1 c).net = s.net := by cases c <;> simp [State.step1]
@[simp] theorem State.step1_ptp (s : State) (c : Ctx) : (s.step1 c).ptp = s.ptp := by cases c <;> simp [State.step1]
@[simp] theorem State.step1_time (s : State) (c : Ctx) : (s.step1 c).time = s.time := by cases c <;> simp [State.step1]
@[simp] theorem State.step1_span (s : State) (c : Ctx) : (s.step1 c).span = s.span := by cases c <;> simp [State.step1]
@[simp] theorem State.step1_fencing (s : State) (c : Ctx) : (s.step1 c).fencing = s.fencing := by cases c <;> simp [State.step1]
@[simp] theorem State.step1_rejoined (s : State) (c : Ctx) : (s.step1 c).rejoined = s.rejoined := by cases c <;> simp [State.step1]
@[simp] theorem State.step1_lode (s : State) (c : Ctx) : (s.step1 c).lode = s.lode := by cases c <;> simp [State.step1]
@[simp] theorem State.step1_pwr (s : State) (c : Ctx) : (s.step1 c).pwr = s.pwr := by cases c <;> simp [State.step1]

@[simp] theorem State.branch_pending (s : State) (c : Ctx) (pc : Nat) : (s.branch c pc).pending = s.pending := by cases c <;> simp [State.branch]
@[simp] theorem State.branch_dir (s : State) (c : Ctx) (pc : Nat) : (s.branch c pc).dir = s.dir := by cases c <;> simp [State.branch]
@[simp] theorem State.branch_bytes (s : State) (c : Ctx) (pc : Nat) : (s.branch c pc).bytes = s.bytes := by cases c <;> simp [State.branch]
@[simp] theorem State.branch_frames (s : State) (c : Ctx) (pc : Nat) : (s.branch c pc).frames = s.frames := by cases c <;> simp [State.branch]
@[simp] theorem State.branch_ue (s : State) (c : Ctx) (pc : Nat) : (s.branch c pc).ue = s.ue := by cases c <;> simp [State.branch]
@[simp] theorem State.branch_ce (s : State) (c : Ctx) (pc : Nat) : (s.branch c pc).ce = s.ce := by cases c <;> simp [State.branch]
@[simp] theorem State.branch_tiers (s : State) (c : Ctx) (pc : Nat) : (s.branch c pc).tiers = s.tiers := by cases c <;> simp [State.branch]
@[simp] theorem State.branch_zrun (s : State) (c : Ctx) (pc : Nat) : (s.branch c pc).zrun = s.zrun := by cases c <;> simp [State.branch]
@[simp] theorem State.branch_zslice (s : State) (c : Ctx) (pc : Nat) : (s.branch c pc).zslice = s.zslice := by cases c <;> simp [State.branch]
@[simp] theorem State.branch_wear (s : State) (c : Ctx) (pc : Nat) : (s.branch c pc).wear = s.wear := by cases c <;> simp [State.branch]
@[simp] theorem State.branch_traps (s : State) (c : Ctx) (pc : Nat) : (s.branch c pc).traps = s.traps := by cases c <;> simp [State.branch]
@[simp] theorem State.branch_fsrPend (s : State) (c : Ctx) (pc : Nat) : (s.branch c pc).fsrPend = s.fsrPend := by cases c <;> simp [State.branch]
@[simp] theorem State.branch_alm (s : State) (c : Ctx) (pc : Nat) : (s.branch c pc).alm = s.alm := by cases c <;> simp [State.branch]
@[simp] theorem State.branch_vrd (s : State) (c : Ctx) (pc : Nat) : (s.branch c pc).vrd = s.vrd := by cases c <;> simp [State.branch]
@[simp] theorem State.branch_tts (s : State) (c : Ctx) (pc : Nat) : (s.branch c pc).tts = s.tts := by cases c <;> simp [State.branch]
@[simp] theorem State.branch_net (s : State) (c : Ctx) (pc : Nat) : (s.branch c pc).net = s.net := by cases c <;> simp [State.branch]
@[simp] theorem State.branch_ptp (s : State) (c : Ctx) (pc : Nat) : (s.branch c pc).ptp = s.ptp := by cases c <;> simp [State.branch]
@[simp] theorem State.branch_time (s : State) (c : Ctx) (pc : Nat) : (s.branch c pc).time = s.time := by cases c <;> simp [State.branch]
@[simp] theorem State.branch_span (s : State) (c : Ctx) (pc : Nat) : (s.branch c pc).span = s.span := by cases c <;> simp [State.branch]
@[simp] theorem State.branch_fencing (s : State) (c : Ctx) (pc : Nat) : (s.branch c pc).fencing = s.fencing := by cases c <;> simp [State.branch]
@[simp] theorem State.branch_rejoined (s : State) (c : Ctx) (pc : Nat) : (s.branch c pc).rejoined = s.rejoined := by cases c <;> simp [State.branch]
@[simp] theorem State.branch_lode (s : State) (c : Ctx) (pc : Nat) : (s.branch c pc).lode = s.lode := by cases c <;> simp [State.branch]
@[simp] theorem State.branch_pwr (s : State) (c : Ctx) (pc : Nat) : (s.branch c pc).pwr = s.pwr := by cases c <;> simp [State.branch]

@[simp] theorem State.putS_pending (s : State) (c : Ctx) (n : Nat) (v : W64) : (s.putS c n v).pending = s.pending := by cases c <;> simp [State.putS]
@[simp] theorem State.putS_csr (s : State) (c : Ctx) (n : Nat) (v : W64) : (s.putS c n v).csr = s.csr := by cases c <;> simp [State.putS]
@[simp] theorem State.putS_dir (s : State) (c : Ctx) (n : Nat) (v : W64) : (s.putS c n v).dir = s.dir := by cases c <;> simp [State.putS]
@[simp] theorem State.putS_bytes (s : State) (c : Ctx) (n : Nat) (v : W64) : (s.putS c n v).bytes = s.bytes := by cases c <;> simp [State.putS]
@[simp] theorem State.putS_frames (s : State) (c : Ctx) (n : Nat) (v : W64) : (s.putS c n v).frames = s.frames := by cases c <;> simp [State.putS]
@[simp] theorem State.putS_ue (s : State) (c : Ctx) (n : Nat) (v : W64) : (s.putS c n v).ue = s.ue := by cases c <;> simp [State.putS]
@[simp] theorem State.putS_ce (s : State) (c : Ctx) (n : Nat) (v : W64) : (s.putS c n v).ce = s.ce := by cases c <;> simp [State.putS]
@[simp] theorem State.putS_tiers (s : State) (c : Ctx) (n : Nat) (v : W64) : (s.putS c n v).tiers = s.tiers := by cases c <;> simp [State.putS]
@[simp] theorem State.putS_zrun (s : State) (c : Ctx) (n : Nat) (v : W64) : (s.putS c n v).zrun = s.zrun := by cases c <;> simp [State.putS]
@[simp] theorem State.putS_zslice (s : State) (c : Ctx) (n : Nat) (v : W64) : (s.putS c n v).zslice = s.zslice := by cases c <;> simp [State.putS]
@[simp] theorem State.putS_wear (s : State) (c : Ctx) (n : Nat) (v : W64) : (s.putS c n v).wear = s.wear := by cases c <;> simp [State.putS]
@[simp] theorem State.putS_traps (s : State) (c : Ctx) (n : Nat) (v : W64) : (s.putS c n v).traps = s.traps := by cases c <;> simp [State.putS]
@[simp] theorem State.putS_fsrPend (s : State) (c : Ctx) (n : Nat) (v : W64) : (s.putS c n v).fsrPend = s.fsrPend := by cases c <;> simp [State.putS]
@[simp] theorem State.putS_alm (s : State) (c : Ctx) (n : Nat) (v : W64) : (s.putS c n v).alm = s.alm := by cases c <;> simp [State.putS]
@[simp] theorem State.putS_vrd (s : State) (c : Ctx) (n : Nat) (v : W64) : (s.putS c n v).vrd = s.vrd := by cases c <;> simp [State.putS]
@[simp] theorem State.putS_tts (s : State) (c : Ctx) (n : Nat) (v : W64) : (s.putS c n v).tts = s.tts := by cases c <;> simp [State.putS]
@[simp] theorem State.putS_net (s : State) (c : Ctx) (n : Nat) (v : W64) : (s.putS c n v).net = s.net := by cases c <;> simp [State.putS]
@[simp] theorem State.putS_ptp (s : State) (c : Ctx) (n : Nat) (v : W64) : (s.putS c n v).ptp = s.ptp := by cases c <;> simp [State.putS]
@[simp] theorem State.putS_time (s : State) (c : Ctx) (n : Nat) (v : W64) : (s.putS c n v).time = s.time := by cases c <;> simp [State.putS]
@[simp] theorem State.putS_span (s : State) (c : Ctx) (n : Nat) (v : W64) : (s.putS c n v).span = s.span := by cases c <;> simp [State.putS]
@[simp] theorem State.putS_fencing (s : State) (c : Ctx) (n : Nat) (v : W64) : (s.putS c n v).fencing = s.fencing := by cases c <;> simp [State.putS]
@[simp] theorem State.putS_rejoined (s : State) (c : Ctx) (n : Nat) (v : W64) : (s.putS c n v).rejoined = s.rejoined := by cases c <;> simp [State.putS]
@[simp] theorem State.putS_lode (s : State) (c : Ctx) (n : Nat) (v : W64) : (s.putS c n v).lode = s.lode := by cases c <;> simp [State.putS]
@[simp] theorem State.putS_pwr (s : State) (c : Ctx) (n : Nat) (v : W64) : (s.putS c n v).pwr = s.pwr := by cases c <;> simp [State.putS]

@[simp] theorem State.putP_pending (s : State) (c : Ctx) (n : Nat) (b : Bool) : (s.putP c n b).pending = s.pending := by cases c <;> simp [State.putP]
@[simp] theorem State.putP_csr (s : State) (c : Ctx) (n : Nat) (b : Bool) : (s.putP c n b).csr = s.csr := by cases c <;> simp [State.putP]
@[simp] theorem State.putP_dir (s : State) (c : Ctx) (n : Nat) (b : Bool) : (s.putP c n b).dir = s.dir := by cases c <;> simp [State.putP]
@[simp] theorem State.putP_bytes (s : State) (c : Ctx) (n : Nat) (b : Bool) : (s.putP c n b).bytes = s.bytes := by cases c <;> simp [State.putP]
@[simp] theorem State.putP_frames (s : State) (c : Ctx) (n : Nat) (b : Bool) : (s.putP c n b).frames = s.frames := by cases c <;> simp [State.putP]
@[simp] theorem State.putP_ue (s : State) (c : Ctx) (n : Nat) (b : Bool) : (s.putP c n b).ue = s.ue := by cases c <;> simp [State.putP]
@[simp] theorem State.putP_ce (s : State) (c : Ctx) (n : Nat) (b : Bool) : (s.putP c n b).ce = s.ce := by cases c <;> simp [State.putP]
@[simp] theorem State.putP_tiers (s : State) (c : Ctx) (n : Nat) (b : Bool) : (s.putP c n b).tiers = s.tiers := by cases c <;> simp [State.putP]
@[simp] theorem State.putP_zrun (s : State) (c : Ctx) (n : Nat) (b : Bool) : (s.putP c n b).zrun = s.zrun := by cases c <;> simp [State.putP]
@[simp] theorem State.putP_zslice (s : State) (c : Ctx) (n : Nat) (b : Bool) : (s.putP c n b).zslice = s.zslice := by cases c <;> simp [State.putP]
@[simp] theorem State.putP_wear (s : State) (c : Ctx) (n : Nat) (b : Bool) : (s.putP c n b).wear = s.wear := by cases c <;> simp [State.putP]
@[simp] theorem State.putP_traps (s : State) (c : Ctx) (n : Nat) (b : Bool) : (s.putP c n b).traps = s.traps := by cases c <;> simp [State.putP]
@[simp] theorem State.putP_fsrPend (s : State) (c : Ctx) (n : Nat) (b : Bool) : (s.putP c n b).fsrPend = s.fsrPend := by cases c <;> simp [State.putP]
@[simp] theorem State.putP_alm (s : State) (c : Ctx) (n : Nat) (b : Bool) : (s.putP c n b).alm = s.alm := by cases c <;> simp [State.putP]
@[simp] theorem State.putP_vrd (s : State) (c : Ctx) (n : Nat) (b : Bool) : (s.putP c n b).vrd = s.vrd := by cases c <;> simp [State.putP]
@[simp] theorem State.putP_tts (s : State) (c : Ctx) (n : Nat) (b : Bool) : (s.putP c n b).tts = s.tts := by cases c <;> simp [State.putP]
@[simp] theorem State.putP_net (s : State) (c : Ctx) (n : Nat) (b : Bool) : (s.putP c n b).net = s.net := by cases c <;> simp [State.putP]
@[simp] theorem State.putP_ptp (s : State) (c : Ctx) (n : Nat) (b : Bool) : (s.putP c n b).ptp = s.ptp := by cases c <;> simp [State.putP]
@[simp] theorem State.putP_time (s : State) (c : Ctx) (n : Nat) (b : Bool) : (s.putP c n b).time = s.time := by cases c <;> simp [State.putP]
@[simp] theorem State.putP_span (s : State) (c : Ctx) (n : Nat) (b : Bool) : (s.putP c n b).span = s.span := by cases c <;> simp [State.putP]
@[simp] theorem State.putP_fencing (s : State) (c : Ctx) (n : Nat) (b : Bool) : (s.putP c n b).fencing = s.fencing := by cases c <;> simp [State.putP]
@[simp] theorem State.putP_rejoined (s : State) (c : Ctx) (n : Nat) (b : Bool) : (s.putP c n b).rejoined = s.rejoined := by cases c <;> simp [State.putP]
@[simp] theorem State.putP_lode (s : State) (c : Ctx) (n : Nat) (b : Bool) : (s.putP c n b).lode = s.lode := by cases c <;> simp [State.putP]
@[simp] theorem State.putP_pwr (s : State) (c : Ctx) (n : Nat) (b : Bool) : (s.putP c n b).pwr = s.pwr := by cases c <;> simp [State.putP]

@[simp] theorem State.raise_pending (s : State) (p k : Nat) : (s.raise p k).pending = s.pending := by simp [State.raise]
@[simp] theorem State.raise_cells (s : State) (p k : Nat) : (s.raise p k).cells = s.cells := by simp [State.raise]
@[simp] theorem State.raise_zctx (s : State) (p k : Nat) : (s.raise p k).zctx = s.zctx := by simp [State.raise]
@[simp] theorem State.raise_dir (s : State) (p k : Nat) : (s.raise p k).dir = s.dir := by simp [State.raise]
@[simp] theorem State.raise_bytes (s : State) (p k : Nat) : (s.raise p k).bytes = s.bytes := by simp [State.raise]
@[simp] theorem State.raise_frames (s : State) (p k : Nat) : (s.raise p k).frames = s.frames := by simp [State.raise]
@[simp] theorem State.raise_ue (s : State) (p k : Nat) : (s.raise p k).ue = s.ue := by simp [State.raise]
@[simp] theorem State.raise_ce (s : State) (p k : Nat) : (s.raise p k).ce = s.ce := by simp [State.raise]
@[simp] theorem State.raise_tiers (s : State) (p k : Nat) : (s.raise p k).tiers = s.tiers := by simp [State.raise]
@[simp] theorem State.raise_zrun (s : State) (p k : Nat) : (s.raise p k).zrun = s.zrun := by simp [State.raise]
@[simp] theorem State.raise_zslice (s : State) (p k : Nat) : (s.raise p k).zslice = s.zslice := by simp [State.raise]
@[simp] theorem State.raise_wear (s : State) (p k : Nat) : (s.raise p k).wear = s.wear := by simp [State.raise]
@[simp] theorem State.raise_traps (s : State) (p k : Nat) : (s.raise p k).traps = s.traps := by simp [State.raise]
@[simp] theorem State.raise_fsrPend (s : State) (p k : Nat) : (s.raise p k).fsrPend = s.fsrPend := by simp [State.raise]
@[simp] theorem State.raise_alm (s : State) (p k : Nat) : (s.raise p k).alm = s.alm := by simp [State.raise]
@[simp] theorem State.raise_vrd (s : State) (p k : Nat) : (s.raise p k).vrd = s.vrd := by simp [State.raise]
@[simp] theorem State.raise_tts (s : State) (p k : Nat) : (s.raise p k).tts = s.tts := by simp [State.raise]
@[simp] theorem State.raise_net (s : State) (p k : Nat) : (s.raise p k).net = s.net := by simp [State.raise]
@[simp] theorem State.raise_ptp (s : State) (p k : Nat) : (s.raise p k).ptp = s.ptp := by simp [State.raise]
@[simp] theorem State.raise_time (s : State) (p k : Nat) : (s.raise p k).time = s.time := by simp [State.raise]
@[simp] theorem State.raise_span (s : State) (p k : Nat) : (s.raise p k).span = s.span := by simp [State.raise]
@[simp] theorem State.raise_fencing (s : State) (p k : Nat) : (s.raise p k).fencing = s.fencing := by simp [State.raise]
@[simp] theorem State.raise_rejoined (s : State) (p k : Nat) : (s.raise p k).rejoined = s.rejoined := by simp [State.raise]
@[simp] theorem State.raise_lode (s : State) (p k : Nat) : (s.raise p k).lode = s.lode := by simp [State.raise]
@[simp] theorem State.raise_pwr (s : State) (p k : Nat) : (s.raise p k).pwr = s.pwr := by simp [State.raise]

@[simp] theorem State.setRun_pending (s : State) (c : CellId) (st cause wbar : Nat) : (s.setRun c st cause wbar).pending = s.pending := by simp [State.setRun]
@[simp] theorem State.setRun_cells (s : State) (c : CellId) (st cause wbar : Nat) : (s.setRun c st cause wbar).cells = s.cells := by simp [State.setRun]
@[simp] theorem State.setRun_zctx (s : State) (c : CellId) (st cause wbar : Nat) : (s.setRun c st cause wbar).zctx = s.zctx := by simp [State.setRun]
@[simp] theorem State.setRun_dir (s : State) (c : CellId) (st cause wbar : Nat) : (s.setRun c st cause wbar).dir = s.dir := by simp [State.setRun]
@[simp] theorem State.setRun_bytes (s : State) (c : CellId) (st cause wbar : Nat) : (s.setRun c st cause wbar).bytes = s.bytes := by simp [State.setRun]
@[simp] theorem State.setRun_frames (s : State) (c : CellId) (st cause wbar : Nat) : (s.setRun c st cause wbar).frames = s.frames := by simp [State.setRun]
@[simp] theorem State.setRun_ue (s : State) (c : CellId) (st cause wbar : Nat) : (s.setRun c st cause wbar).ue = s.ue := by simp [State.setRun]
@[simp] theorem State.setRun_ce (s : State) (c : CellId) (st cause wbar : Nat) : (s.setRun c st cause wbar).ce = s.ce := by simp [State.setRun]
@[simp] theorem State.setRun_tiers (s : State) (c : CellId) (st cause wbar : Nat) : (s.setRun c st cause wbar).tiers = s.tiers := by simp [State.setRun]
@[simp] theorem State.setRun_zrun (s : State) (c : CellId) (st cause wbar : Nat) : (s.setRun c st cause wbar).zrun = s.zrun := by simp [State.setRun]
@[simp] theorem State.setRun_zslice (s : State) (c : CellId) (st cause wbar : Nat) : (s.setRun c st cause wbar).zslice = s.zslice := by simp [State.setRun]
@[simp] theorem State.setRun_wear (s : State) (c : CellId) (st cause wbar : Nat) : (s.setRun c st cause wbar).wear = s.wear := by simp [State.setRun]
@[simp] theorem State.setRun_traps (s : State) (c : CellId) (st cause wbar : Nat) : (s.setRun c st cause wbar).traps = s.traps := by simp [State.setRun]
@[simp] theorem State.setRun_fsrPend (s : State) (c : CellId) (st cause wbar : Nat) : (s.setRun c st cause wbar).fsrPend = s.fsrPend := by simp [State.setRun]
@[simp] theorem State.setRun_alm (s : State) (c : CellId) (st cause wbar : Nat) : (s.setRun c st cause wbar).alm = s.alm := by simp [State.setRun]
@[simp] theorem State.setRun_vrd (s : State) (c : CellId) (st cause wbar : Nat) : (s.setRun c st cause wbar).vrd = s.vrd := by simp [State.setRun]
@[simp] theorem State.setRun_tts (s : State) (c : CellId) (st cause wbar : Nat) : (s.setRun c st cause wbar).tts = s.tts := by simp [State.setRun]
@[simp] theorem State.setRun_net (s : State) (c : CellId) (st cause wbar : Nat) : (s.setRun c st cause wbar).net = s.net := by simp [State.setRun]
@[simp] theorem State.setRun_ptp (s : State) (c : CellId) (st cause wbar : Nat) : (s.setRun c st cause wbar).ptp = s.ptp := by simp [State.setRun]
@[simp] theorem State.setRun_time (s : State) (c : CellId) (st cause wbar : Nat) : (s.setRun c st cause wbar).time = s.time := by simp [State.setRun]
@[simp] theorem State.setRun_span (s : State) (c : CellId) (st cause wbar : Nat) : (s.setRun c st cause wbar).span = s.span := by simp [State.setRun]
@[simp] theorem State.setRun_fencing (s : State) (c : CellId) (st cause wbar : Nat) : (s.setRun c st cause wbar).fencing = s.fencing := by simp [State.setRun]
@[simp] theorem State.setRun_rejoined (s : State) (c : CellId) (st cause wbar : Nat) : (s.setRun c st cause wbar).rejoined = s.rejoined := by simp [State.setRun]
@[simp] theorem State.setRun_lode (s : State) (c : CellId) (st cause wbar : Nat) : (s.setRun c st cause wbar).lode = s.lode := by simp [State.setRun]
@[simp] theorem State.setRun_pwr (s : State) (c : CellId) (st cause wbar : Nat) : (s.setRun c st cause wbar).pwr = s.pwr := by simp [State.setRun]

@[simp] theorem State.wake_pending (s : State) (c : CellId) : (s.wake c).pending = s.pending := by unfold State.wake; simp only []; split <;> simp
@[simp] theorem State.wake_zctx (s : State) (c : CellId) : (s.wake c).zctx = s.zctx := by unfold State.wake; simp only []; split <;> simp
@[simp] theorem State.wake_dir (s : State) (c : CellId) : (s.wake c).dir = s.dir := by unfold State.wake; simp only []; split <;> simp
@[simp] theorem State.wake_bytes (s : State) (c : CellId) : (s.wake c).bytes = s.bytes := by unfold State.wake; simp only []; split <;> simp
@[simp] theorem State.wake_frames (s : State) (c : CellId) : (s.wake c).frames = s.frames := by unfold State.wake; simp only []; split <;> simp
@[simp] theorem State.wake_ue (s : State) (c : CellId) : (s.wake c).ue = s.ue := by unfold State.wake; simp only []; split <;> simp
@[simp] theorem State.wake_ce (s : State) (c : CellId) : (s.wake c).ce = s.ce := by unfold State.wake; simp only []; split <;> simp
@[simp] theorem State.wake_tiers (s : State) (c : CellId) : (s.wake c).tiers = s.tiers := by unfold State.wake; simp only []; split <;> simp
@[simp] theorem State.wake_zrun (s : State) (c : CellId) : (s.wake c).zrun = s.zrun := by unfold State.wake; simp only []; split <;> simp
@[simp] theorem State.wake_zslice (s : State) (c : CellId) : (s.wake c).zslice = s.zslice := by unfold State.wake; simp only []; split <;> simp
@[simp] theorem State.wake_wear (s : State) (c : CellId) : (s.wake c).wear = s.wear := by unfold State.wake; simp only []; split <;> simp
@[simp] theorem State.wake_traps (s : State) (c : CellId) : (s.wake c).traps = s.traps := by unfold State.wake; simp only []; split <;> simp
@[simp] theorem State.wake_fsrPend (s : State) (c : CellId) : (s.wake c).fsrPend = s.fsrPend := by unfold State.wake; simp only []; split <;> simp
@[simp] theorem State.wake_alm (s : State) (c : CellId) : (s.wake c).alm = s.alm := by unfold State.wake; simp only []; split <;> simp
@[simp] theorem State.wake_vrd (s : State) (c : CellId) : (s.wake c).vrd = s.vrd := by unfold State.wake; simp only []; split <;> simp
@[simp] theorem State.wake_tts (s : State) (c : CellId) : (s.wake c).tts = s.tts := by unfold State.wake; simp only []; split <;> simp
@[simp] theorem State.wake_net (s : State) (c : CellId) : (s.wake c).net = s.net := by unfold State.wake; simp only []; split <;> simp
@[simp] theorem State.wake_ptp (s : State) (c : CellId) : (s.wake c).ptp = s.ptp := by unfold State.wake; simp only []; split <;> simp
@[simp] theorem State.wake_time (s : State) (c : CellId) : (s.wake c).time = s.time := by unfold State.wake; simp only []; split <;> simp
@[simp] theorem State.wake_span (s : State) (c : CellId) : (s.wake c).span = s.span := by unfold State.wake; simp only []; split <;> simp
@[simp] theorem State.wake_fencing (s : State) (c : CellId) : (s.wake c).fencing = s.fencing := by unfold State.wake; simp only []; split <;> simp
@[simp] theorem State.wake_rejoined (s : State) (c : CellId) : (s.wake c).rejoined = s.rejoined := by unfold State.wake; simp only []; split <;> simp
@[simp] theorem State.wake_lode (s : State) (c : CellId) : (s.wake c).lode = s.lode := by unfold State.wake; simp only []; split <;> simp
@[simp] theorem State.wake_pwr (s : State) (c : CellId) : (s.wake c).pwr = s.pwr := by unfold State.wake; simp only []; split <;> simp

@[simp] theorem State.dropWaiting_pending (s : State) (c : Ctx) (j : Job) : (s.dropWaiting c j).pending = s.pending := by cases c <;> simp [State.dropWaiting]
@[simp] theorem State.dropWaiting_csr (s : State) (c : Ctx) (j : Job) : (s.dropWaiting c j).csr = s.csr := by cases c <;> simp [State.dropWaiting]
@[simp] theorem State.dropWaiting_dir (s : State) (c : Ctx) (j : Job) : (s.dropWaiting c j).dir = s.dir := by cases c <;> simp [State.dropWaiting]
@[simp] theorem State.dropWaiting_bytes (s : State) (c : Ctx) (j : Job) : (s.dropWaiting c j).bytes = s.bytes := by cases c <;> simp [State.dropWaiting]
@[simp] theorem State.dropWaiting_frames (s : State) (c : Ctx) (j : Job) : (s.dropWaiting c j).frames = s.frames := by cases c <;> simp [State.dropWaiting]
@[simp] theorem State.dropWaiting_ue (s : State) (c : Ctx) (j : Job) : (s.dropWaiting c j).ue = s.ue := by cases c <;> simp [State.dropWaiting]
@[simp] theorem State.dropWaiting_ce (s : State) (c : Ctx) (j : Job) : (s.dropWaiting c j).ce = s.ce := by cases c <;> simp [State.dropWaiting]
@[simp] theorem State.dropWaiting_tiers (s : State) (c : Ctx) (j : Job) : (s.dropWaiting c j).tiers = s.tiers := by cases c <;> simp [State.dropWaiting]
@[simp] theorem State.dropWaiting_zrun (s : State) (c : Ctx) (j : Job) : (s.dropWaiting c j).zrun = s.zrun := by cases c <;> simp [State.dropWaiting]
@[simp] theorem State.dropWaiting_zslice (s : State) (c : Ctx) (j : Job) : (s.dropWaiting c j).zslice = s.zslice := by cases c <;> simp [State.dropWaiting]
@[simp] theorem State.dropWaiting_wear (s : State) (c : Ctx) (j : Job) : (s.dropWaiting c j).wear = s.wear := by cases c <;> simp [State.dropWaiting]
@[simp] theorem State.dropWaiting_traps (s : State) (c : Ctx) (j : Job) : (s.dropWaiting c j).traps = s.traps := by cases c <;> simp [State.dropWaiting]
@[simp] theorem State.dropWaiting_fsrPend (s : State) (c : Ctx) (j : Job) : (s.dropWaiting c j).fsrPend = s.fsrPend := by cases c <;> simp [State.dropWaiting]
@[simp] theorem State.dropWaiting_alm (s : State) (c : Ctx) (j : Job) : (s.dropWaiting c j).alm = s.alm := by cases c <;> simp [State.dropWaiting]
@[simp] theorem State.dropWaiting_vrd (s : State) (c : Ctx) (j : Job) : (s.dropWaiting c j).vrd = s.vrd := by cases c <;> simp [State.dropWaiting]
@[simp] theorem State.dropWaiting_tts (s : State) (c : Ctx) (j : Job) : (s.dropWaiting c j).tts = s.tts := by cases c <;> simp [State.dropWaiting]
@[simp] theorem State.dropWaiting_net (s : State) (c : Ctx) (j : Job) : (s.dropWaiting c j).net = s.net := by cases c <;> simp [State.dropWaiting]
@[simp] theorem State.dropWaiting_ptp (s : State) (c : Ctx) (j : Job) : (s.dropWaiting c j).ptp = s.ptp := by cases c <;> simp [State.dropWaiting]
@[simp] theorem State.dropWaiting_time (s : State) (c : Ctx) (j : Job) : (s.dropWaiting c j).time = s.time := by cases c <;> simp [State.dropWaiting]
@[simp] theorem State.dropWaiting_span (s : State) (c : Ctx) (j : Job) : (s.dropWaiting c j).span = s.span := by cases c <;> simp [State.dropWaiting]
@[simp] theorem State.dropWaiting_fencing (s : State) (c : Ctx) (j : Job) : (s.dropWaiting c j).fencing = s.fencing := by cases c <;> simp [State.dropWaiting]
@[simp] theorem State.dropWaiting_rejoined (s : State) (c : Ctx) (j : Job) : (s.dropWaiting c j).rejoined = s.rejoined := by cases c <;> simp [State.dropWaiting]
@[simp] theorem State.dropWaiting_lode (s : State) (c : Ctx) (j : Job) : (s.dropWaiting c j).lode = s.lode := by cases c <;> simp [State.dropWaiting]
@[simp] theorem State.dropWaiting_pwr (s : State) (c : Ctx) (j : Job) : (s.dropWaiting c j).pwr = s.pwr := by cases c <;> simp [State.dropWaiting]

@[simp] theorem State.fly_pending (s : State) (c : Ctx) (f : Flight) : (s.fly c f).pending = s.pending := by cases c <;> simp [State.fly]
@[simp] theorem State.fly_csr (s : State) (c : Ctx) (f : Flight) : (s.fly c f).csr = s.csr := by cases c <;> simp [State.fly]
@[simp] theorem State.fly_dir (s : State) (c : Ctx) (f : Flight) : (s.fly c f).dir = s.dir := by cases c <;> simp [State.fly]
@[simp] theorem State.fly_bytes (s : State) (c : Ctx) (f : Flight) : (s.fly c f).bytes = s.bytes := by cases c <;> simp [State.fly]
@[simp] theorem State.fly_frames (s : State) (c : Ctx) (f : Flight) : (s.fly c f).frames = s.frames := by cases c <;> simp [State.fly]
@[simp] theorem State.fly_ue (s : State) (c : Ctx) (f : Flight) : (s.fly c f).ue = s.ue := by cases c <;> simp [State.fly]
@[simp] theorem State.fly_ce (s : State) (c : Ctx) (f : Flight) : (s.fly c f).ce = s.ce := by cases c <;> simp [State.fly]
@[simp] theorem State.fly_tiers (s : State) (c : Ctx) (f : Flight) : (s.fly c f).tiers = s.tiers := by cases c <;> simp [State.fly]
@[simp] theorem State.fly_zrun (s : State) (c : Ctx) (f : Flight) : (s.fly c f).zrun = s.zrun := by cases c <;> simp [State.fly]
@[simp] theorem State.fly_zslice (s : State) (c : Ctx) (f : Flight) : (s.fly c f).zslice = s.zslice := by cases c <;> simp [State.fly]
@[simp] theorem State.fly_wear (s : State) (c : Ctx) (f : Flight) : (s.fly c f).wear = s.wear := by cases c <;> simp [State.fly]
@[simp] theorem State.fly_traps (s : State) (c : Ctx) (f : Flight) : (s.fly c f).traps = s.traps := by cases c <;> simp [State.fly]
@[simp] theorem State.fly_fsrPend (s : State) (c : Ctx) (f : Flight) : (s.fly c f).fsrPend = s.fsrPend := by cases c <;> simp [State.fly]
@[simp] theorem State.fly_alm (s : State) (c : Ctx) (f : Flight) : (s.fly c f).alm = s.alm := by cases c <;> simp [State.fly]
@[simp] theorem State.fly_vrd (s : State) (c : Ctx) (f : Flight) : (s.fly c f).vrd = s.vrd := by cases c <;> simp [State.fly]
@[simp] theorem State.fly_tts (s : State) (c : Ctx) (f : Flight) : (s.fly c f).tts = s.tts := by cases c <;> simp [State.fly]
@[simp] theorem State.fly_net (s : State) (c : Ctx) (f : Flight) : (s.fly c f).net = s.net := by cases c <;> simp [State.fly]
@[simp] theorem State.fly_ptp (s : State) (c : Ctx) (f : Flight) : (s.fly c f).ptp = s.ptp := by cases c <;> simp [State.fly]
@[simp] theorem State.fly_time (s : State) (c : Ctx) (f : Flight) : (s.fly c f).time = s.time := by cases c <;> simp [State.fly]
@[simp] theorem State.fly_span (s : State) (c : Ctx) (f : Flight) : (s.fly c f).span = s.span := by cases c <;> simp [State.fly]
@[simp] theorem State.fly_fencing (s : State) (c : Ctx) (f : Flight) : (s.fly c f).fencing = s.fencing := by cases c <;> simp [State.fly]
@[simp] theorem State.fly_rejoined (s : State) (c : Ctx) (f : Flight) : (s.fly c f).rejoined = s.rejoined := by cases c <;> simp [State.fly]
@[simp] theorem State.fly_lode (s : State) (c : Ctx) (f : Flight) : (s.fly c f).lode = s.lode := by cases c <;> simp [State.fly]
@[simp] theorem State.fly_pwr (s : State) (c : Ctx) (f : Flight) : (s.fly c f).pwr = s.pwr := by cases c <;> simp [State.fly]

@[simp] theorem State.countConv_pending (s : State) (c : Ctx) (sat ovf : Nat) : (s.countConv c sat ovf).pending = s.pending := by cases c <;> simp [State.countConv]
@[simp] theorem State.countConv_cells (s : State) (c : Ctx) (sat ovf : Nat) : (s.countConv c sat ovf).cells = s.cells := by cases c <;> simp [State.countConv]
@[simp] theorem State.countConv_zctx (s : State) (c : Ctx) (sat ovf : Nat) : (s.countConv c sat ovf).zctx = s.zctx := by cases c <;> simp [State.countConv]
@[simp] theorem State.countConv_dir (s : State) (c : Ctx) (sat ovf : Nat) : (s.countConv c sat ovf).dir = s.dir := by cases c <;> simp [State.countConv]
@[simp] theorem State.countConv_bytes (s : State) (c : Ctx) (sat ovf : Nat) : (s.countConv c sat ovf).bytes = s.bytes := by cases c <;> simp [State.countConv]
@[simp] theorem State.countConv_frames (s : State) (c : Ctx) (sat ovf : Nat) : (s.countConv c sat ovf).frames = s.frames := by cases c <;> simp [State.countConv]
@[simp] theorem State.countConv_ue (s : State) (c : Ctx) (sat ovf : Nat) : (s.countConv c sat ovf).ue = s.ue := by cases c <;> simp [State.countConv]
@[simp] theorem State.countConv_ce (s : State) (c : Ctx) (sat ovf : Nat) : (s.countConv c sat ovf).ce = s.ce := by cases c <;> simp [State.countConv]
@[simp] theorem State.countConv_tiers (s : State) (c : Ctx) (sat ovf : Nat) : (s.countConv c sat ovf).tiers = s.tiers := by cases c <;> simp [State.countConv]
@[simp] theorem State.countConv_zrun (s : State) (c : Ctx) (sat ovf : Nat) : (s.countConv c sat ovf).zrun = s.zrun := by cases c <;> simp [State.countConv]
@[simp] theorem State.countConv_zslice (s : State) (c : Ctx) (sat ovf : Nat) : (s.countConv c sat ovf).zslice = s.zslice := by cases c <;> simp [State.countConv]
@[simp] theorem State.countConv_wear (s : State) (c : Ctx) (sat ovf : Nat) : (s.countConv c sat ovf).wear = s.wear := by cases c <;> simp [State.countConv]
@[simp] theorem State.countConv_traps (s : State) (c : Ctx) (sat ovf : Nat) : (s.countConv c sat ovf).traps = s.traps := by cases c <;> simp [State.countConv]
@[simp] theorem State.countConv_fsrPend (s : State) (c : Ctx) (sat ovf : Nat) : (s.countConv c sat ovf).fsrPend = s.fsrPend := by cases c <;> simp [State.countConv]
@[simp] theorem State.countConv_alm (s : State) (c : Ctx) (sat ovf : Nat) : (s.countConv c sat ovf).alm = s.alm := by cases c <;> simp [State.countConv]
@[simp] theorem State.countConv_vrd (s : State) (c : Ctx) (sat ovf : Nat) : (s.countConv c sat ovf).vrd = s.vrd := by cases c <;> simp [State.countConv]
@[simp] theorem State.countConv_tts (s : State) (c : Ctx) (sat ovf : Nat) : (s.countConv c sat ovf).tts = s.tts := by cases c <;> simp [State.countConv]
@[simp] theorem State.countConv_net (s : State) (c : Ctx) (sat ovf : Nat) : (s.countConv c sat ovf).net = s.net := by cases c <;> simp [State.countConv]
@[simp] theorem State.countConv_ptp (s : State) (c : Ctx) (sat ovf : Nat) : (s.countConv c sat ovf).ptp = s.ptp := by cases c <;> simp [State.countConv]
@[simp] theorem State.countConv_time (s : State) (c : Ctx) (sat ovf : Nat) : (s.countConv c sat ovf).time = s.time := by cases c <;> simp [State.countConv]
@[simp] theorem State.countConv_span (s : State) (c : Ctx) (sat ovf : Nat) : (s.countConv c sat ovf).span = s.span := by cases c <;> simp [State.countConv]
@[simp] theorem State.countConv_fencing (s : State) (c : Ctx) (sat ovf : Nat) : (s.countConv c sat ovf).fencing = s.fencing := by cases c <;> simp [State.countConv]
@[simp] theorem State.countConv_rejoined (s : State) (c : Ctx) (sat ovf : Nat) : (s.countConv c sat ovf).rejoined = s.rejoined := by cases c <;> simp [State.countConv]
@[simp] theorem State.countConv_lode (s : State) (c : Ctx) (sat ovf : Nat) : (s.countConv c sat ovf).lode = s.lode := by cases c <;> simp [State.countConv]
@[simp] theorem State.countConv_pwr (s : State) (c : Ctx) (sat ovf : Nat) : (s.countConv c sat ovf).pwr = s.pwr := by cases c <;> simp [State.countConv]

@[simp] theorem State.setBankSt_pending (s : State) (c : CellId) (b st : Nat) : (s.setBankSt c b st).pending = s.pending := by simp [State.setBankSt]
@[simp] theorem State.setBankSt_cells (s : State) (c : CellId) (b st : Nat) : (s.setBankSt c b st).cells = s.cells := by simp [State.setBankSt]
@[simp] theorem State.setBankSt_zctx (s : State) (c : CellId) (b st : Nat) : (s.setBankSt c b st).zctx = s.zctx := by simp [State.setBankSt]
@[simp] theorem State.setBankSt_dir (s : State) (c : CellId) (b st : Nat) : (s.setBankSt c b st).dir = s.dir := by simp [State.setBankSt]
@[simp] theorem State.setBankSt_bytes (s : State) (c : CellId) (b st : Nat) : (s.setBankSt c b st).bytes = s.bytes := by simp [State.setBankSt]
@[simp] theorem State.setBankSt_frames (s : State) (c : CellId) (b st : Nat) : (s.setBankSt c b st).frames = s.frames := by simp [State.setBankSt]
@[simp] theorem State.setBankSt_ue (s : State) (c : CellId) (b st : Nat) : (s.setBankSt c b st).ue = s.ue := by simp [State.setBankSt]
@[simp] theorem State.setBankSt_ce (s : State) (c : CellId) (b st : Nat) : (s.setBankSt c b st).ce = s.ce := by simp [State.setBankSt]
@[simp] theorem State.setBankSt_tiers (s : State) (c : CellId) (b st : Nat) : (s.setBankSt c b st).tiers = s.tiers := by simp [State.setBankSt]
@[simp] theorem State.setBankSt_zrun (s : State) (c : CellId) (b st : Nat) : (s.setBankSt c b st).zrun = s.zrun := by simp [State.setBankSt]
@[simp] theorem State.setBankSt_zslice (s : State) (c : CellId) (b st : Nat) : (s.setBankSt c b st).zslice = s.zslice := by simp [State.setBankSt]
@[simp] theorem State.setBankSt_wear (s : State) (c : CellId) (b st : Nat) : (s.setBankSt c b st).wear = s.wear := by simp [State.setBankSt]
@[simp] theorem State.setBankSt_traps (s : State) (c : CellId) (b st : Nat) : (s.setBankSt c b st).traps = s.traps := by simp [State.setBankSt]
@[simp] theorem State.setBankSt_fsrPend (s : State) (c : CellId) (b st : Nat) : (s.setBankSt c b st).fsrPend = s.fsrPend := by simp [State.setBankSt]
@[simp] theorem State.setBankSt_alm (s : State) (c : CellId) (b st : Nat) : (s.setBankSt c b st).alm = s.alm := by simp [State.setBankSt]
@[simp] theorem State.setBankSt_vrd (s : State) (c : CellId) (b st : Nat) : (s.setBankSt c b st).vrd = s.vrd := by simp [State.setBankSt]
@[simp] theorem State.setBankSt_tts (s : State) (c : CellId) (b st : Nat) : (s.setBankSt c b st).tts = s.tts := by simp [State.setBankSt]
@[simp] theorem State.setBankSt_net (s : State) (c : CellId) (b st : Nat) : (s.setBankSt c b st).net = s.net := by simp [State.setBankSt]
@[simp] theorem State.setBankSt_ptp (s : State) (c : CellId) (b st : Nat) : (s.setBankSt c b st).ptp = s.ptp := by simp [State.setBankSt]
@[simp] theorem State.setBankSt_time (s : State) (c : CellId) (b st : Nat) : (s.setBankSt c b st).time = s.time := by simp [State.setBankSt]
@[simp] theorem State.setBankSt_span (s : State) (c : CellId) (b st : Nat) : (s.setBankSt c b st).span = s.span := by simp [State.setBankSt]
@[simp] theorem State.setBankSt_fencing (s : State) (c : CellId) (b st : Nat) : (s.setBankSt c b st).fencing = s.fencing := by simp [State.setBankSt]
@[simp] theorem State.setBankSt_rejoined (s : State) (c : CellId) (b st : Nat) : (s.setBankSt c b st).rejoined = s.rejoined := by simp [State.setBankSt]
@[simp] theorem State.setBankSt_lode (s : State) (c : CellId) (b st : Nat) : (s.setBankSt c b st).lode = s.lode := by simp [State.setBankSt]
@[simp] theorem State.setBankSt_pwr (s : State) (c : CellId) (b st : Nat) : (s.setBankSt c b st).pwr = s.pwr := by simp [State.setBankSt]

@[simp] theorem State.setBank_pending (s : State) (c : CellId) (b : Nat) (k : Bank) : (s.setBank c b k).pending = s.pending := by simp [State.setBank]
@[simp] theorem State.setBank_csr (s : State) (c : CellId) (b : Nat) (k : Bank) : (s.setBank c b k).csr = s.csr := by simp [State.setBank]
@[simp] theorem State.setBank_zctx (s : State) (c : CellId) (b : Nat) (k : Bank) : (s.setBank c b k).zctx = s.zctx := by simp [State.setBank]
@[simp] theorem State.setBank_dir (s : State) (c : CellId) (b : Nat) (k : Bank) : (s.setBank c b k).dir = s.dir := by simp [State.setBank]
@[simp] theorem State.setBank_bytes (s : State) (c : CellId) (b : Nat) (k : Bank) : (s.setBank c b k).bytes = s.bytes := by simp [State.setBank]
@[simp] theorem State.setBank_frames (s : State) (c : CellId) (b : Nat) (k : Bank) : (s.setBank c b k).frames = s.frames := by simp [State.setBank]
@[simp] theorem State.setBank_ue (s : State) (c : CellId) (b : Nat) (k : Bank) : (s.setBank c b k).ue = s.ue := by simp [State.setBank]
@[simp] theorem State.setBank_ce (s : State) (c : CellId) (b : Nat) (k : Bank) : (s.setBank c b k).ce = s.ce := by simp [State.setBank]
@[simp] theorem State.setBank_tiers (s : State) (c : CellId) (b : Nat) (k : Bank) : (s.setBank c b k).tiers = s.tiers := by simp [State.setBank]
@[simp] theorem State.setBank_zrun (s : State) (c : CellId) (b : Nat) (k : Bank) : (s.setBank c b k).zrun = s.zrun := by simp [State.setBank]
@[simp] theorem State.setBank_zslice (s : State) (c : CellId) (b : Nat) (k : Bank) : (s.setBank c b k).zslice = s.zslice := by simp [State.setBank]
@[simp] theorem State.setBank_wear (s : State) (c : CellId) (b : Nat) (k : Bank) : (s.setBank c b k).wear = s.wear := by simp [State.setBank]
@[simp] theorem State.setBank_traps (s : State) (c : CellId) (b : Nat) (k : Bank) : (s.setBank c b k).traps = s.traps := by simp [State.setBank]
@[simp] theorem State.setBank_fsrPend (s : State) (c : CellId) (b : Nat) (k : Bank) : (s.setBank c b k).fsrPend = s.fsrPend := by simp [State.setBank]
@[simp] theorem State.setBank_alm (s : State) (c : CellId) (b : Nat) (k : Bank) : (s.setBank c b k).alm = s.alm := by simp [State.setBank]
@[simp] theorem State.setBank_vrd (s : State) (c : CellId) (b : Nat) (k : Bank) : (s.setBank c b k).vrd = s.vrd := by simp [State.setBank]
@[simp] theorem State.setBank_tts (s : State) (c : CellId) (b : Nat) (k : Bank) : (s.setBank c b k).tts = s.tts := by simp [State.setBank]
@[simp] theorem State.setBank_net (s : State) (c : CellId) (b : Nat) (k : Bank) : (s.setBank c b k).net = s.net := by simp [State.setBank]
@[simp] theorem State.setBank_ptp (s : State) (c : CellId) (b : Nat) (k : Bank) : (s.setBank c b k).ptp = s.ptp := by simp [State.setBank]
@[simp] theorem State.setBank_time (s : State) (c : CellId) (b : Nat) (k : Bank) : (s.setBank c b k).time = s.time := by simp [State.setBank]
@[simp] theorem State.setBank_span (s : State) (c : CellId) (b : Nat) (k : Bank) : (s.setBank c b k).span = s.span := by simp [State.setBank]
@[simp] theorem State.setBank_fencing (s : State) (c : CellId) (b : Nat) (k : Bank) : (s.setBank c b k).fencing = s.fencing := by simp [State.setBank]
@[simp] theorem State.setBank_rejoined (s : State) (c : CellId) (b : Nat) (k : Bank) : (s.setBank c b k).rejoined = s.rejoined := by simp [State.setBank]
@[simp] theorem State.setBank_lode (s : State) (c : CellId) (b : Nat) (k : Bank) : (s.setBank c b k).lode = s.lode := by simp [State.setBank]
@[simp] theorem State.setBank_pwr (s : State) (c : CellId) (b : Nat) (k : Bank) : (s.setBank c b k).pwr = s.pwr := by simp [State.setBank]

@[simp] theorem State.freeBank_pending (s : State) (c : CellId) (b : Nat) : (s.freeBank c b).pending = s.pending := by simp [State.freeBank]
@[simp] theorem State.freeBank_zctx (s : State) (c : CellId) (b : Nat) : (s.freeBank c b).zctx = s.zctx := by simp [State.freeBank]
@[simp] theorem State.freeBank_dir (s : State) (c : CellId) (b : Nat) : (s.freeBank c b).dir = s.dir := by simp [State.freeBank]
@[simp] theorem State.freeBank_bytes (s : State) (c : CellId) (b : Nat) : (s.freeBank c b).bytes = s.bytes := by simp [State.freeBank]
@[simp] theorem State.freeBank_frames (s : State) (c : CellId) (b : Nat) : (s.freeBank c b).frames = s.frames := by simp [State.freeBank]
@[simp] theorem State.freeBank_ue (s : State) (c : CellId) (b : Nat) : (s.freeBank c b).ue = s.ue := by simp [State.freeBank]
@[simp] theorem State.freeBank_ce (s : State) (c : CellId) (b : Nat) : (s.freeBank c b).ce = s.ce := by simp [State.freeBank]
@[simp] theorem State.freeBank_tiers (s : State) (c : CellId) (b : Nat) : (s.freeBank c b).tiers = s.tiers := by simp [State.freeBank]
@[simp] theorem State.freeBank_zrun (s : State) (c : CellId) (b : Nat) : (s.freeBank c b).zrun = s.zrun := by simp [State.freeBank]
@[simp] theorem State.freeBank_zslice (s : State) (c : CellId) (b : Nat) : (s.freeBank c b).zslice = s.zslice := by simp [State.freeBank]
@[simp] theorem State.freeBank_wear (s : State) (c : CellId) (b : Nat) : (s.freeBank c b).wear = s.wear := by simp [State.freeBank]
@[simp] theorem State.freeBank_traps (s : State) (c : CellId) (b : Nat) : (s.freeBank c b).traps = s.traps := by simp [State.freeBank]
@[simp] theorem State.freeBank_fsrPend (s : State) (c : CellId) (b : Nat) : (s.freeBank c b).fsrPend = s.fsrPend := by simp [State.freeBank]
@[simp] theorem State.freeBank_alm (s : State) (c : CellId) (b : Nat) : (s.freeBank c b).alm = s.alm := by simp [State.freeBank]
@[simp] theorem State.freeBank_vrd (s : State) (c : CellId) (b : Nat) : (s.freeBank c b).vrd = s.vrd := by simp [State.freeBank]
@[simp] theorem State.freeBank_tts (s : State) (c : CellId) (b : Nat) : (s.freeBank c b).tts = s.tts := by simp [State.freeBank]
@[simp] theorem State.freeBank_net (s : State) (c : CellId) (b : Nat) : (s.freeBank c b).net = s.net := by simp [State.freeBank]
@[simp] theorem State.freeBank_ptp (s : State) (c : CellId) (b : Nat) : (s.freeBank c b).ptp = s.ptp := by simp [State.freeBank]
@[simp] theorem State.freeBank_time (s : State) (c : CellId) (b : Nat) : (s.freeBank c b).time = s.time := by simp [State.freeBank]
@[simp] theorem State.freeBank_span (s : State) (c : CellId) (b : Nat) : (s.freeBank c b).span = s.span := by simp [State.freeBank]
@[simp] theorem State.freeBank_fencing (s : State) (c : CellId) (b : Nat) : (s.freeBank c b).fencing = s.fencing := by simp [State.freeBank]
@[simp] theorem State.freeBank_rejoined (s : State) (c : CellId) (b : Nat) : (s.freeBank c b).rejoined = s.rejoined := by simp [State.freeBank]
@[simp] theorem State.freeBank_lode (s : State) (c : CellId) (b : Nat) : (s.freeBank c b).lode = s.lode := by simp [State.freeBank]
@[simp] theorem State.freeBank_pwr (s : State) (c : CellId) (b : Nat) : (s.freeBank c b).pwr = s.pwr := by simp [State.freeBank]

end Sys2Proof.Machine
end

