-- ==== Sys2Proof/Laws/Issue.lean ====
section
/-! SUPPORT. What the sequencer's own updates do: the move to the next word and the write of a register. -/

namespace Sys2Proof.Machine

/-! The registers of a cell lie apart. -/

theorem seqStat_ne_issue (k : CellId) : R.CELL_SEQ_ISSUE_CNT k ≠ R.CELL_SEQ_STAT k := by
  unfold R.CELL_SEQ_ISSUE_CNT R.CELL_SEQ_STAT; omega

theorem State.setPc_cell (s : State) (k : CellId) (x : Nat) :
    s.setPc (.cell k) x = s.wrF (R.CELL_SEQ_STAT k) F.CELL_SEQ_STAT_PC (x % 2 ^ 48) := (rfl)

@[simp] theorem State.pc_setPc_cell (s : State) (k : CellId) (x : Nat) :
    (s.setPc (.cell k) x).pc (.cell k) = x % 2 ^ 48 := by
  simp only [State.pc]
  rw [State.setPc_cell, State.rdF_wrF_same _ _ _ _ (by decide) (by decide)]
  exact Nat.mod_mod_of_dvd _ (by decide)

@[simp] theorem State.pc_setPc_zen (s : State) (d : Fin 16) (p : Fin 64) (x : Nat) :
    (s.setPc (.zen d p) x).pc (.zen d p) = x % 2 ^ 48 := by
  simp only [State.pc, State.setPc, State.ctx_setCtx_same]

@[simp] theorem State.rdF_count_ne (s : State) {a b : Nat} (n : Nat) (f : Nat × Nat) (h : b ≠ a) :
    (s.count a n).rdF b f = s.rdF b f := by
  unfold State.rdF; rw [s.rd_count_ne n h]

@[simp] theorem State.ctx_setPc_cell (s : State) (k : CellId) (x : Nat) (d : Ctx) : (s.setPc (.cell k) x).ctx d = s.ctx d := by
  rw [State.setPc_cell, State.ctx_wrF]

/-- The PC of a Zenith context is part of the context. -/
theorem State.ctx_setPc_zen (s : State) (d : Fin 16) (p : Fin 64) (x : Nat) :
    (s.setPc (.zen d p) x).ctx (.zen d p) = { s.ctx (.zen d p) with zpc := x % 2 ^ 48 } := by
  simp only [State.setPc, State.ctx_setCtx_same]

theorem State.ctx_setPc_ne (s : State) {c d : Ctx} (x : Nat) (h : d ≠ c) : (s.setPc c x).ctx d = s.ctx d := by
  cases c with
  | cell k => simp
  | zen e p => simp only [State.setPc]; exact State.ctx_setCtx_ne _ _ h

@[simp] theorem State.rd_setPc_zen (s : State) (d : Fin 16) (p : Fin 64) (x a : Nat) :
    (s.setPc (.zen d p) x).rd a = s.rd a := by
  simp only [State.setPc, State.rd_setCtx]

theorem State.rd_setPc_ne (s : State) (k : CellId) (x : Nat) {a : Nat} (h : a ≠ R.CELL_SEQ_STAT k) :
    (s.setPc (.cell k) x).rd a = s.rd a := by
  rw [State.setPc_cell, State.rd_wrF_ne _ _ _ h]

@[simp] theorem State.runState_setPc (s : State) (c : Ctx) (x : Nat) (k : CellId) : (s.setPc c x).runState k = s.runState k := by
  cases c with
  | cell j =>
    unfold State.runState
    rw [State.setPc_cell]
    by_cases h : k = j
    · subst h; rw [State.rdF_wrF_beside _ _ _ _ _ (by decide) (by decide) (by decide)]
    · have : R.CELL_SEQ_STAT k ≠ R.CELL_SEQ_STAT j := by
        intro e
        obtain ⟨⟨a, ha⟩, ⟨b, hb⟩⟩ := k
        obtain ⟨⟨a', ha'⟩, ⟨b', hb'⟩⟩ := j
        apply h
        simp only [R.CELL_SEQ_STAT, cellBase] at e
        have : a = a' := by omega
        have : b = b' := by omega
        subst_vars; rfl
      rw [State.rdF_wrF_ne _ _ _ _ this]
  | zen d p =>
    unfold State.runState State.rdF
    rw [State.rd_setPc_zen]

@[simp] theorem State.pc_unhold_cell (s : State) (c : Ctx) (k : CellId) : (s.unhold c).pc (.cell k) = s.pc (.cell k) := by
  simp only [State.pc, State.rdF_unhold]

@[simp] theorem State.runState_unhold (s : State) (c : Ctx) (k : CellId) : (s.unhold c).runState k = s.runState k := by
  simp only [State.runState, State.rdF_unhold]

/-- An issue that goes on at `pc`, on a cell: the PC moves, the run state stays, the issue counts, nothing is held. -/
theorem State.issuedAt_cell (s : State) (k : CellId) (pc : Nat) :
    (s.issuedAt (.cell k) pc).pc (.cell k) = pc % 2 ^ 48 ∧
      (s.issuedAt (.cell k) pc).rd (R.CELL_SEQ_ISSUE_CNT k) = satAdd64 (s.rd (R.CELL_SEQ_ISSUE_CNT k)) 1 ∧
      (s.issuedAt (.cell k) pc).runState k = s.runState k ∧
      (∀ a, a ≠ R.CELL_SEQ_STAT k → a ≠ R.CELL_SEQ_ISSUE_CNT k → (s.issuedAt (.cell k) pc).rd a = s.rd a) ∧
      (s.issuedAt (.cell k) pc).ctx (.cell k) = { s.ctx (.cell k) with held := none } ∧
      ∀ d, d ≠ .cell k → (s.issuedAt (.cell k) pc).ctx d = s.ctx d := by
  have hne := seqStat_ne_issue k
  have e : s.issuedAt (.cell k) pc = ((s.count (R.CELL_SEQ_ISSUE_CNT k) 1).setPc (.cell k) pc).unhold (.cell k) := by
    simp only [State.issuedAt]
  rw [e]
  refine ⟨?_, ?_, ?_, ?_, ?_, ?_⟩
  · rw [State.pc_unhold_cell, State.pc_setPc_cell]
  · rw [State.rd_unhold, State.rd_setPc_ne _ _ _ hne, State.rd_count_same]
  · rw [State.runState_unhold, State.runState_setPc]
    exact State.rdF_count_ne _ _ _ hne.symm
  · intro a h1 h2
    rw [State.rd_unhold, State.rd_setPc_ne _ _ _ h1, State.rd_count_ne _ _ h2]
  · rw [State.ctx_unhold, State.ctx_setPc_cell, State.ctx_count]
  · intro d hd
    rw [State.ctx_unhold_ne _ hd, State.ctx_setPc_cell, State.ctx_count]

/-- An issue on a Zenith unit moves the PC, and nothing is held. -/
theorem State.issuedAt_zen (s : State) (d : Fin 16) (p : Fin 64) (pc : Nat) :
    s.issuedAt (.zen d p) pc = (s.setPc (.zen d p) pc).unhold (.zen d p) := by
  simp only [State.issuedAt]

@[simp] theorem State.pc_setCtx_cell (s : State) (k : CellId) (x : CellCtx) :
    (s.setCtx (.cell k) x).pc (.cell k) = s.pc (.cell k) := by
  simp only [State.pc, State.rdF_setCtx]

@[simp] theorem State.runState_setCtx (s : State) (c : Ctx) (x : CellCtx) (k : CellId) :
    (s.setCtx c x).runState k = s.runState k := by
  simp only [State.runState, State.rdF_setCtx]

end Sys2Proof.Machine
end

