-- ==== Sys2Proof/Laws/Memory.lean ====
section
/-! SUPPORT. Every operation on memory keeps the bytes of the frames in their canonical form. -/

namespace Sys2Proof.Machine

/-- The bytes of the frames are in canonical form. -/
abbrev State.memOk (s : State) : Prop := Memory.wf s.bytes = true

theorem State.memOk_of_bytes {s t : State} (h : s.memOk) (e : t.bytes = s.bytes) : t.memOk := by
  unfold State.memOk; rw [e]; exact h

theorem State.memOk_reset : State.reset.memOk := (rfl)

/-- A fold of operations that keep the form keeps it. -/
theorem State.memOk_each {α : Type} {l : List α} {f : State → α → State} (hf : ∀ s x, s.memOk → (f s x).memOk) :
    ∀ {s : State}, s.memOk → (s.each l f).memOk := by
  unfold State.each
  induction l with
  | nil => exact fun h => h
  | cons x r ih => exact fun h => ih (hf _ x h)

/-- A fold of operations that leave the bytes leaves them. -/
theorem State.each_bytes {α : Type} {l : List α} {f : State → α → State} (hf : ∀ s x, (f s x).bytes = s.bytes) :
    ∀ (s : State), (s.each l f).bytes = s.bytes := by
  unfold State.each
  induction l with
  | nil => exact fun _ => rfl
  | cons x r ih => exact fun s => (ih (f s x)).trans (hf s x)

theorem Memory.wf_set {m : SMap Byte} (h : Memory.wf m = true) (k : Nat) (x : Byte) : Memory.wf (SMap.set m 0 k x) = true :=
  SMap.wf_set (d := fun _ => 0) h k x

theorem Memory.wf_filter {m : SMap Byte} (h : Memory.wf m = true) (p : Nat × Byte → Bool) : Memory.wf (m.filter p) = true :=
  SMap.wf_filter h p

/-! Stores. -/

theorem State.memOk_poke {s : State} (h : s.memOk) (a : Nat) (b : Byte) : (s.poke a b).memOk := by
  unfold State.poke
  split
  · exact Memory.wf_set h _ _
  · exact h

theorem State.memOk_pokes (bs : List Byte) : ∀ {s : State} (_ : s.memOk) (a : Nat), (s.pokes a bs).memOk := by
  induction bs with
  | nil => intro s h a; exact h
  | cons b r ih => intro s h a; exact ih (s.memOk_poke h a b) (a + 1)

@[simp] theorem State.windowWrite_bytes (s : State) (d pg l n : Nat) : (s.windowWrite d pg l n).bytes = s.bytes := by
  unfold State.windowWrite; split <;> rfl

@[simp] theorem State.windowNote_bytes (s : State) (w : Writer) (pg n : Nat) : (s.windowNote w pg n).bytes = s.bytes := by
  cases w
  · exact State.each_bytes (fun s d => State.windowWrite_bytes _ _ _ _ _) s
  · rfl
  · rfl

@[simp] theorem State.addDirty_bytes (s : State) (pg : Nat) (ls : List Nat) : (s.addDirty pg ls).bytes = s.bytes := (rfl)

@[simp] theorem State.dirtyPage_bytes (s : State) (pg lo hi : Nat) : (s.dirtyPage pg lo hi).bytes = s.bytes := by
  unfold State.dirtyPage; split <;> simp

@[simp] theorem State.noteWrite_bytes (s : State) (w : Writer) (r : Run) : (s.noteWrite w r).bytes = s.bytes :=
  State.each_bytes (fun s pg => by simp) s

@[simp] theorem State.clearMarks_bytes (s : State) (r : Run) : (s.clearMarks r).bytes = s.bytes := by
  unfold State.clearMarks; split <;> rfl

theorem State.memOk_writeOpen {s : State} (h : s.memOk) (w : Writer) (a : Nat) (bs : List Byte) : (s.writeOpen w a bs).memOk := by
  unfold State.writeOpen
  dsimp only
  refine State.memOk_of_bytes ?_ (State.noteWrite_bytes _ _ _)
  have h1 : (s.clearMarks (a, bs.length)).memOk := State.memOk_of_bytes h (State.clearMarks_bytes _ _)
  have h2 : ((s.clearMarks (a, bs.length)).each ((s.clearMarks (a, bs.length)).partWords (a, bs.length)) fun s h =>
      match locOwner (h.1 / 8192) with
      | some c => s.count (R.CELL_ECC_UE_CNT c) 1
      | none => s).memOk := by
    refine State.memOk_each (fun s x hs => ?_) h1
    split
    · exact State.memOk_of_bytes hs (State.count_bytes _ _ _)
    · exact hs
  split
  · exact State.memOk_pokes bs h2 a
  · refine State.memOk_each (fun s i hs => ?_) h2
    split
    · exact hs
    · exact State.memOk_poke hs _ _

theorem State.memOk_sealRefuse {s : State} (h : s.memOk) (p : Nat) : (s.sealRefuse p).memOk := by
  unfold State.sealRefuse
  exact State.memOk_of_bytes h (by simp)

/-- A write of a range keeps the form. -/
theorem State.memOk_write {s : State} (h : s.memOk) (w : Writer) (p a : Nat) (bs : List Byte) : (s.write w p a bs).memOk := by
  unfold State.write
  dsimp only
  split
  · refine State.memOk_sealRefuse (State.memOk_each (fun s i hs => ?_) h) p
    split
    · exact hs
    · exact State.memOk_writeOpen hs _ _ _
  · exact State.memOk_writeOpen h _ _ _

/-! Reads and the ways over the mesh. -/

@[simp] theorem State.stackCe_bytes (s : State) (n ch : Nat) : (s.stackCe n ch).bytes = s.bytes := by
  unfold State.stackCe; dsimp only; split <;> simp

@[simp] theorem State.eccLatch_bytes (s : State) (c : CellId) (u : Bool) (y o : Nat) : (s.eccLatch c u y o).bytes = s.bytes := by
  unfold State.eccLatch; dsimp only; split <;> simp

@[simp] theorem State.correct_bytes (s : State) (ks : List Nat) : (s.correct ks).bytes = s.bytes := by
  unfold State.correct
  refine (State.each_bytes (fun s x => by simp) _).trans (State.each_bytes (fun s k => ?_) s)
  split
  · simp [State.sramCe]
  · rfl

@[simp] theorem State.spoilt_bytes (s : State) (p : Nat) (ks : List Nat) : (s.spoilt p ks).bytes = s.bytes := by
  unfold State.spoilt
  refine (State.each_bytes (fun s x => by simp [State.stackUe]) _).trans (State.each_bytes (fun s k => ?_) s)
  split
  · simp [State.sramUe]
  · rfl

@[simp] theorem State.carry_bytes (s : State) (a b n : Nat) : (s.carry a b n).1.bytes = s.bytes := by
  unfold State.carry
  split
  · rfl
  · split
    · simp [State.moveLost]
    · exact State.each_bytes (fun s x => State.count_bytes _ _ _) s

@[simp] theorem State.travel_bytes (s : State) (d : Nat) (out : Bool) (rs : List Run) : (s.travel d out rs).1.bytes = s.bytes := by
  unfold State.travel
  suffices h : ∀ (l : List Run) (x : State × Option Nat), (l.foldl (fun (x : State × Option Nat) r =>
      match x.1.frameOf r.1 with
      | none => x
      | some l =>
        let y := if out then x.1.carry d (locDie l) r.2 else x.1.carry (locDie l) d r.2
        (y.1, if y.2 then x.2 else x.2.or (some r.1))) x).1.bytes = x.1.bytes from h _ _
  intro l
  induction l with
  | nil => exact fun x => rfl
  | cons r rest ih =>
    intro x
    refine (ih _).trans ?_
    dsimp only
    split
    · rfl
    · cases out <;> simp

@[simp] theorem State.uncorrectable_bytes (s : State) (p a : Nat) : (s.uncorrectable p a).bytes = s.bytes := by
  unfold State.uncorrectable; dsimp only; split <;> simp

/-- A write that travels to its home keeps the form. -/
theorem State.memOk_sendWrite {s : State} (h : s.memOk) (w : Writer) (p a : Nat) (bs : List Byte) : (s.sendWrite w p a bs).memOk := by
  unfold State.sendWrite
  split
  · exact State.memOk_write h _ _ _ _
  · dsimp only
    have ht : ∀ d, (s.travel d true [(a, bs.length)]).1.memOk := fun d => State.memOk_of_bytes h (State.travel_bytes _ _ _ _)
    split
    · exact State.memOk_of_bytes (ht _) (State.uncorrectable_bytes _ _ _)
    · exact State.memOk_write (ht _) _ _ _ _

/-- A write of a byte list over ranges keeps the form. -/
theorem State.memOk_writeRuns (w : Writer) (p : Nat) (rs : List Run) :
    ∀ {s : State} (_ : s.memOk) (bs : List Byte), (s.writeRuns w p rs bs).memOk := by
  induction rs with
  | nil => intro s h bs; exact h
  | cons r rest ih => intro s h bs; exact ih (State.memOk_sendWrite h w p r.1 _) _

/-! Frames. -/

theorem State.memOk_wipe {s : State} (h : s.memOk) (l : Nat) : (s.wipe l).memOk := Memory.wf_filter h _

@[simp] theorem State.reserve_bytes (s : State) (p l : Nat) : (s.reserve p l).bytes = s.bytes := by
  unfold State.reserve; dsimp only; unfold State.wrF; exact State.wr_bytes _ _ _

@[simp] theorem State.release_bytes (s : State) (p l : Nat) : (s.release p l).bytes = s.bytes := by
  unfold State.release; dsimp only; unfold State.wrF; exact State.wr_bytes _ _ _

theorem State.memOk_allocate {s t : State} (h : s.memOk) {w : Writer} {p pg : Nat} {at' : Bool}
    (e : s.allocate w p pg at' = some t) : t.memOk := by
  unfold State.allocate at e
  obtain ⟨l, -, rfl⟩ := Option.map_eq_some_iff.1 e
  exact State.memOk_wipe (State.memOk_of_bytes h (State.reserve_bytes s p l)) l

/-- The allocation of every FREE page of a list keeps the form. -/
theorem State.memOk_allocateAll {w : Writer} {p : Nat} (pgs : List Nat) :
    ∀ {s t : State} (_ : s.memOk) (_ : s.allocateAll w p pgs = some t), t.memOk := by
  induction pgs with
  | nil => intro s t h e; cases e; exact h
  | cons pg r ih =>
    intro s t h e
    unfold State.allocateAll at e
    split at e
    · split at e
      · next s' hs => exact ih (State.memOk_allocate h hs) e
      · cases e
    · exact ih h e

@[simp] theorem State.readLines_bytes (s : State) (p a : Nat) (ln : Nat → Bool) : (s.readLines p a ln).bytes = s.bytes := by
  simp [State.readLines]

theorem State.memOk_placeLines {s : State} (h : s.memOk) (a b : Nat) (ln : Nat → Bool) : (s.placeLines a b ln).memOk := by
  have hf : ∀ (l m : SMap Byte), Memory.wf m = true →
      Memory.wf (l.foldl (fun m x => SMap.set m 0 (b * pageSize + x.1 % pageSize) x.2) m) = true := by
    intro l
    induction l with
    | nil => exact fun m hm => hm
    | cons x r ih => exact fun m hm => ih _ (Memory.wf_set hm _ _)
  exact hf _ _ (Memory.wf_filter h _)

@[simp] theorem State.loseLines_bytes (s : State) (b : Nat) (ls : List Nat) : (s.loseLines b ls).bytes = s.bytes := (rfl)

/-- Copying lines of a frame keeps the form, whether they arrive or are lost. -/
theorem State.memOk_copyLines {s : State} (h : s.memOk) (p a b : Nat) (ln : Nat → Bool) : (s.copyLines p a b ln).memOk := by
  unfold State.copyLines
  dsimp only
  have hc : ((s.readLines p a ln).carry (locDie a) (locDie b) (64 * ((List.range 1024).filter ln).length)).1.memOk :=
    State.memOk_of_bytes h (by simp)
  split
  · exact State.memOk_placeLines hc _ _ _
  · exact State.memOk_of_bytes hc (State.loseLines_bytes _ _ _)

theorem State.memOk_copyFrame {s : State} (h : s.memOk) (p a b : Nat) : (s.copyFrame p a b).memOk :=
  State.memOk_copyLines h p a b _

theorem State.memOk_invalidate {s : State} (h : s.memOk) (pg : Nat) : (s.invalidate pg).memOk := by
  unfold State.invalidate
  exact State.memOk_each (fun s d hs => State.memOk_of_bytes hs (by rfl)) h

@[simp] theorem State.setEnt_bytes (s : State) (pg : Nat) (e : DirEntry) : (s.setEnt pg e).bytes = s.bytes := (rfl)

/-- A service move keeps the form. -/
theorem State.memOk_serviceMove {s : State} (h : s.memOk) (pg f : Nat) : (s.serviceMove pg f).memOk := by
  unfold State.serviceMove
  refine State.memOk_of_bytes (State.memOk_invalidate (s := State.setEnt _ pg _) ?_ pg) (State.count_bytes _ _ _)
  exact State.memOk_of_bytes (State.memOk_copyFrame h (s.ent pg).owner (s.ent pg).home f) (by simp)

@[simp] theorem State.dirtyFrame_bytes (s : State) (l line : Nat) : (s.dirtyFrame l line).bytes = s.bytes := by
  unfold State.dirtyFrame
  exact State.each_bytes (fun s e => State.addDirty_bytes _ _ _) s

/-- A write of one ECC word of SRAM keeps the form. -/
theorem State.memOk_writeWord {s : State} (h : s.memOk) (c : CellId) (word : Nat) (v : W64) : (s.writeWord c word v).memOk := by
  unfold State.writeWord
  dsimp only
  refine State.memOk_of_bytes (s := s.each (List.range 8) fun s i =>
    { s with bytes := SMap.set s.bytes 0 (8 * cellWordKey c word + i) (BitVec.ofNat 8 (bitsOf v.toNat (8 * i + 7) (8 * i))) }) ?_
    (State.dirtyFrame_bytes _ _ _)
  exact State.memOk_each (fun s i hs => Memory.wf_set hs _ _) h

theorem State.memOk_zeroPiece {s : State} (h : s.memOk) (w : Writer) (r : Run) : (s.zeroPiece w r).memOk := by
  unfold State.zeroPiece
  dsimp only
  split
  · exact State.memOk_writeOpen h _ _ _
  · split
    · refine State.memOk_of_bytes (s := { s.clearMarks r with bytes := _ }) ?_ (State.noteWrite_bytes _ _ _)
      exact Memory.wf_filter (m := (s.clearMarks r).bytes) (by rw [State.clearMarks_bytes]; exact h) _
    · exact State.memOk_of_bytes h (State.clearMarks_bytes _ _)

@[simp] theorem State.readCe_bytes (s : State) (rs : List Run) : (s.readCe rs).bytes = s.bytes := by simp [State.readCe]

@[simp] theorem State.readUe_bytes (s : State) (p : Nat) (rs : List Run) : (s.readUe p rs).1.bytes = s.bytes := by simp [State.readUe]

@[simp] theorem State.readEntry_bytes (s : State) (pg : Nat) : (s.readEntry pg).bytes = s.bytes := by
  simp [State.readEntry]

@[simp] theorem State.homeLookup_bytes (s : State) (d pg : Nat) : (s.homeLookup d pg).bytes = s.bytes := by
  unfold State.homeLookup; dsimp only; split <;> simp

/-- Clearing a G stream keeps the form. -/
theorem State.memOk_zeroStream {s : State} (h : s.memOk) (p d : Nat) (r : Run) : (s.zeroStream p d r).memOk := by
  unfold State.zeroStream
  refine State.memOk_each (fun s q hs => ?_) h
  split
  · next s1 e =>
    have h1 := State.memOk_allocateAll _ hs e
    have ht : ((s1.homeLookup d (q.1 / pageSize)).travel d true [q]).1.memOk := State.memOk_of_bytes h1 (by simp)
    dsimp only
    split
    · exact State.memOk_of_bytes ht (State.uncorrectable_bytes _ _ _)
    · exact State.memOk_zeroPiece ht _ q
  · exact State.memOk_of_bytes hs (State.count_bytes _ _ _)

end Sys2Proof.Machine
end

