-- ==== Sys2Proof/WellFormed.lean ====
section
/-! DEFINITION. Well-formed commands: the operands fit the fields that carry them. A command outside the form is one that no
sender can send; the meanings are defined on it all the same. -/

namespace Sys2Proof

/-- An IPv4 address has 32 bits. -/
def IpAddr.wf (a : IpAddr) : Bool := a.v6 || (a.hi = 0 && decide (a.lo.toNat < 2 ^ 32))

/-- A flit has 64 bytes of payload (R360). -/
def Flit.wf (f : Flit) : Bool := decide (f.payload.length = 64)

/-- The field widths of a verdict record (R245). -/
def VerdictRec.wf (r : VerdictRec) : Bool :=
  decide (r.step < 2 ^ 48) && decide (r.group < 2 ^ 16) && decide (r.nsq < 2 ^ 640) && decide (r.mcount < 2 ^ 32) &&
    decide (r.appMin < 2 ^ 64) && decide (r.appMax < 2 ^ 64) && decide (r.sent.length = 16) && decide (r.recv.length = 16) &&
    (r.sent ++ r.recv).all fun n => decide (n < 2 ^ 32)

/-- The field widths of the ASTP header (R371); a message has at least one frame, and no frame is longer than R371 allows. -/
def AstpHdr.wf (h : AstpHdr) : Bool :=
  h.src.wf && decide (h.srcPort < 2 ^ 16) && decide (h.session < 2 ^ 16) && decide (h.seq < 2 ^ 32) && decide (0 < h.frames) &&
    decide (h.ackSeq < 2 ^ 32) && decide (h.limit < 2 ^ 32) && decide (h.lens.length = h.frames) &&
    h.lens.all fun n => decide (n ≤ 8224)

/-- The header of a request, and the widths of its payload fields (R375). -/
def AstpReq.wf : AstpReq → Bool
  | .csrRd h _ count => h.wf && decide (count < 2 ^ 16)
  | .csrWr h _ vals => h.wf && decide (vals.length < 2 ^ 16)
  | .write h _ data => h.wf && decide (data.length < 2 ^ 32)
  | .peek h _ bytes => h.wf && decide (bytes < 2 ^ 32)
  | .take h _ bytes => h.wf && decide (bytes < 2 ^ 32)
  | .launch h _ => h.wf
  | .bind h _ words => h.wf && decide (words.length < 2 ^ 10)
  | .close h => h.wf

/-- The field widths of the tensor subheader and the payload of a frame (R377, R371). -/
def TensorFrame.wf (t : TensorFrame) : Bool :=
  decide (t.frames < 2 ^ 16) && decide (t.fidx < 2 ^ 16) && decide (t.offset < 2 ^ 32) && decide (t.total < 2 ^ 32) &&
    decide (t.stotal < 2 ^ 32) && decide (t.data.length ≤ 8192)

/-- The field widths of an Announce (R391). -/
def Announce.wf (a : Announce) : Bool :=
  decide (a.priority1 < 256) && decide (a.clockClass < 256) && decide (a.accuracy < 256) && decide (a.variance < 65536) &&
    decide (a.priority2 < 256) && decide (a.steps < 65536) && decide (a.senderPort < 65536) && decide (-32768 ≤ a.utc) &&
    decide (a.utc < 32768)

/-- A well-formed command. -/
def Instr.wf : Instr → Bool
  | .verdictRecordReceive _ rec => rec.wf
  | .moveSwitch page => decide (page < 2 ^ 26)
  | .moveCommit page => decide (page < 2 ^ 26)
  | .moveDone page => decide (page < 2 ^ 26)
  | .takeFrameRelease frame => decide (frame < 2 ^ 32)
  | .portBCollide _ word _ _ => decide (word < 48 * 256 * 64)
  | .eccWriteback _ word => decide (word < 48 * 256 * 64)
  | .stkScrub _ line _ => decide (line < 2 ^ 30)
  | .spanFlitReceive _ fl => fl.wf
  | .spanCreditReturn _ fl => fl.wf
  | .spanNakReceive _ fl => fl.wf
  | .spanRetrain _ badTx badRx => decide badTx.Nodup && decide badRx.Nodup
  | .spanSyncReceive _ fl => fl.wf
  | .arpRequest _ target sender _ => !target.v6 && target.wf && !sender.v6 && sender.wf
  | .neighbourSolicitation _ target sender _ => target.v6 && sender.v6
  | .echoRequest _ dst src data => dst.wf && src.wf && decide (dst.v6 = src.v6) && decide (data.length < 2 ^ 16)
  | .peerMacExpire _ ip => ip.wf
  | .astpFrameBad _ udpLen bytes => decide (udpLen < 2 ^ 16) && decide (bytes.length < 2 ^ 16)
  | .astpOpen h => h.wf
  | .astpClose h => (AstpReq.close h).wf
  | .astpAck h => h.wf
  | .astpCsrRd h addr count => (AstpReq.csrRd h addr count).wf
  | .astpCsrWr h addr vals => (AstpReq.csrWr h addr vals).wf
  | .astpWrite h addr data => (AstpReq.write h addr data).wf
  | .astpPeek h addr bytes => (AstpReq.peek h addr bytes).wf
  | .astpTake h addr bytes => (AstpReq.take h addr bytes).wf
  | .astpLaunch h l => (AstpReq.launch h l).wf
  | .astpBind h entry words => (AstpReq.bind h entry words).wf
  | .astpNoSession f => f.hdr.wf
  | .astpRetxTimeout session seq => decide (session < 2 ^ 16) && decide (seq < 2 ^ 32)
  | .astpSessionTimeout session => decide (session < 2 ^ 16)
  | .messageTimeEnd msgs _ => msgs.all AstpReq.wf
  | .astpTensor h t => h.wf && t.wf
  | .astpVerdict h _ rec => h.wf && rec.wf
  | .astpFarewell h _ _ => h.wf
  | .roceRead _ _ psn _ _ len => decide (psn < 2 ^ 24) && decide (len < 2 ^ 32)
  | .roceWrite _ _ psn _ _ data _ => decide (psn < 2 ^ 24) && decide (data.length < 2 ^ 32)
  | .roceSend _ _ psn data _ => decide (psn < 2 ^ 24) && decide (data.length < 2 ^ 16)
  | .roceInvalidRequest _ _ psn _ => decide (psn < 2 ^ 24)
  | .ptpAnnounce a => a.wf
  | .ptpSync _ _ _ logInt _ => decide (-128 ≤ logInt) && decide (logInt < 128)
  | .startupStacks failed => decide failed.Nodup
  | .startupLinks up => decide up.Nodup
  | .csrWrite _ _ width _ => decide (0 < width)
  | .peerMacResolved _ ip _ => ip.wf
  | .configurationUpdate settings _ => settings.all fun x => decide (x.1 < 2 ^ 32)
  | .ctlNop .. | .ctlBr .. | .ctlCall .. | .ctlJr .. | .ctlFence .. | .ctlArrive .. | .ctlWbar .. | .ctlWtime ..
  | .ctlHalt .. | .scalLi .. | .scalAdd .. | .scalSub .. | .scalMul .. | .scalAnd .. | .scalOr .. | .scalXor ..
  | .scalShl .. | .scalShr .. | .scalSra .. | .scalMin .. | .scalMax .. | .scalCmpEq .. | .scalCmpNe ..
  | .scalCmpLt .. | .scalCmpLe .. | .scalCmpLtu .. | .scalCmpLeu .. | .scalPmov .. | .scalPnot .. | .scalPand ..
  | .scalPor .. | .scalDget .. | .scalDset .. | .scalRdtime .. | .scalRdbar .. | .scalFadd .. | .scalFsub ..
  | .scalFmul .. | .scalFfma .. | .scalFdiv .. | .scalFsqrt .. | .scalFmax .. | .scalFmin .. | .scalFcmpEq ..
  | .scalFcmpLt .. | .scalFcmpLe .. | .scalI2f .. | .scalF2i .. | .scalFcvt .. | .movCopy .. | .movLds .. | .movSts ..
  | .movAadd32 .. | .movAadd64 .. | .movAaddfx .. | .movSwap .. | .movGadd .. | .movTake .. | .movSpill ..
  | .movFill .. | .movHint .. | .duskMm .. | .dawnMm .. | .dawnMmt .. | .vecAdd .. | .vecSub .. | .vecMul ..
  | .vecFma .. | .vecMax .. | .vecMin .. | .vecAbs .. | .vecNeg .. | .vecLdexp .. | .vecCmp .. | .vecSel ..
  | .vecRnd .. | .vecMov .. | .vecDiv .. | .vecSqrt .. | .vecRsqrt .. | .vecExp2 .. | .vecLog2 .. | .vecRsum ..
  | .vecCsum .. | .vecRmax .. | .vecCmax .. | .vecAcc .. | .vecLd .. | .vecSt .. | .rowSoftmax .. | .rowSmbwd ..
  | .rowNorm .. | .rowRms .. | .rowNormbwd .. | .rowLse .. | .rowStst .. | .rowStld .. | .zenLd .. | .zenSt ..
  | .zenSetsc .. | .zenNsq .. | .zenAmax .. | .zenSgn .. | .zenLdlt .. | .zenNext .. | .collSlot .. | .collCancel ..
  | .chkVerdict .. | .chkRetract .. | .chkSample .. | .chkVlast .. | .instructionFetch .. | .unitAccept ..
  | .instructionRetire .. | .duskPassAccept .. | .columnGate .. | .prescanDone .. | .passAbandon ..
  | .duskPassRetire .. | .dawnPassAccept .. | .dawnPassRetire .. | .cellStop .. | .cellHaltComplete ..
  | .barrierWaitEnd .. | .timeWaitEnd .. | .collActionComplete .. | .parallaxCheckCompare .. | .parallaxReplay ..
  | .parallaxOtherCell .. | .slotFence .. | .servicePoint .. | .almanacClose .. | .almanacStepEnd ..
  | .almSlotConfWrite .. | .almRangeWrite .. | .almCkptSave .. | .almCkptRestore .. | .almCkptPerform ..
  | .almSlotUe .. | .zenSliceStart .. | .zenPassOneStart .. | .zenPassOneDone .. | .zenPassTwoStart ..
  | .zenPassTwoDone .. | .zenClearDone .. | .zenDirWrite .. | .zenBind .. | .zenRangeWrite .. | .verdictSeal ..
  | .finalVerdict .. | .vrdRetr .. | .vrdUncClear .. | .runCtlStop .. | .runCtlResume .. | .runCtlAbort ..
  | .nanTrapClear .. | .numModeWrite .. | .barCfgWrite .. | .rfenceWrite .. | .rfencePass .. | .placementWindowEnd ..
  | .moveStart .. | .bistRowStart .. | .bistRowDone .. | .bistEscalate .. | .arbEscalate .. | .bistFull ..
  | .stkRemapGo .. | .stkRemapSwitch .. | .stkRemapAbort .. | .ethCfgWrite .. | .linkUp .. | .subportReset ..
  | .ethFrameDrop .. | .roceCnp .. | .qpWrite .. | .mrWrite .. | .ephSlotStart .. | .ephSlotEnd .. | .vdeadline ..
  | .ephLaunch .. | .ephBarrier .. | .ephPrewake .. | .peerWrite .. | .ephRangeWrite .. | .ttCommit ..
  | .ttCommitDone .. | .ttSwitch .. | .timetableSwitch .. | .ptpDelayResp .. | .ptpDelayReq .. | .syncTimeout ..
  | .holdoverExpire .. | .powerSample .. | .thermalTrip .. | .inputLoss .. | .inputRestore .. | .pwrEnRise ..
  | .pwrEnFall .. | .pwrCfgWrite .. | .startupRom .. | .startupRails .. | .startupFuses .. | .startupConfig ..
  | .startupCells .. | .startupTime .. | .startupReady .. | .fwBootTimeout .. | .cellClockStop .. | .cellWake ..
  | .resetModule .. | .resetModuleAbrupt .. | .resetCell .. | .resetStackCtl .. | .resetComet .. | .resetSpanPort ..
  | .resetEthSub .. | .resetHznMac .. | .svcFence .. | .svcRejoin .. | .svcRetire .. | .svcFuseCommit ..
  | .rejoinBacking .. | .fsrWrite .. | .fsrExport .. | .fsrPushRetry .. | .fwVerify .. | .fwActivate ..
  | .fwCommitSvn .. | .fwUpdate .. | .configWrite .. | .quote .. | .dbgDataAccess .. | .cellmapWrite .. | .capWrite ..
  | .spanLinkTrained .. | .sourceDisappears .. => true

end Sys2Proof
end

