-- ==== Sys2Proof/Tests/Slice0.lean ====
section
/-! SUPPORT. The model's own tests: ill-formed commands are refused by the well-formedness checks, results that the spec works
out come out of the model, and for each statement a state and operands that meet its hypotheses. -/

namespace Sys2Proof.Tests

set_option Elab.async false

open Sys2Proof Sys2Proof.Machine Sys2Proof.Claim

/-! Small states. -/

/-- The state that an outcome answers. -/
def nx (o : Host.Outcome State Fault Refusal) : State :=
  match o with
  | .next s => s
  | _ => State.reset

/-- Cell 0.0 and the predicate that is always true. -/
def k0 : CellId := ⟨0, 0⟩
def c0 : Ctx := .cell k0
def pT : Pred := ⟨false, 7⟩
/-- The Zenith unit of die 0 for partition 1. -/
def z0 : Ctx := .zen 0 1

/-- A register set to a number, and a field of one. -/
def put (s : State) (a v : Nat) : State := s.wr a (BitVec.ofNat 64 v)

/-- A page homed in a frame that is in use. -/
def home (s : State) (pg owner l : Nat) : State :=
  { s.setEnt pg ⟨.homed, owner, false, false, 0, l, 0⟩ with frames := insertNat l s.frames }

/-- Cell 0.0 backs logical cell 0, which partition 1 owns, and runs at address 0; Lodestar runs. -/
def sRun : State :=
  (((put { State.reset with lode := { Lode.reset with up := true } } (R.PART_CELLMAPj 1 0) 1).setBacking 0 (some k0)).setSlot k0
    slotActive 0 (some 1)).setRun k0 stRun 0 0

/-- Partition 1 has rights to 1,024 pages, 8 counters and tokens of both tiers; page 1 is homed in frame 0 of cell 0.0, page 2 in
frame 1, page 3 in stack 0; every other page is FREE. -/
def sMem : State :=
  home (home (home (put (put (put sRun (R.PART_CAP3 1) (1024 * 2 ^ 32)) (R.PART_TIER_QUOTA 1) (64 * 2 ^ 32 + 64))
    (R.PART_BAR_CFG 1) 8) 1 1 (locCell k0 0)) 2 1 (locCell k0 1)) 3 1 (locStack 0 0)

/-- A descriptor: base, format, scale descriptor, extents, group and row stride. -/
def mkD (base fmt sdi e0 e1 grp s1 : Nat) : Desc :=
  BitVec.ofNat 256 (base + fmt * 2 ^ 48 + sdi * 2 ^ 58 + e0 * 2 ^ 64 + e1 * 2 ^ 84 + 2 ^ 104 + 2 ^ 128 + grp * 2 ^ 148 + s1 * 2 ^ 160)

/-- Registers of cell 0.0. -/
def withD (s : State) (n : Nat) (d : Desc) : State := s.setCell k0 { s.cell k0 with regs := (s.cell k0).regs.setD n d }
def withS (s : State) (n v : Nat) : State :=
  s.setCell k0 { s.cell k0 with regs := (s.cell k0).regs.setS n (BitVec.ofNat 64 v) }

/-- Descriptors: d0 two rows of eight FP32 elements on page 1, d1 the same on page 2, d2 on FREE page 4, d3 on page 3 in the
stack; s1 the address 65,544 on page 1. -/
def sDesc : State :=
  withS (withD (withD (withD (withD sMem 0 (mkD 0x10000 fmtFP32 0 8 2 0 32)) 1 (mkD 0x20000 fmtFP32 0 8 2 0 32))
    2 (mkD 0x40000 fmtFP32 0 8 2 0 32)) 3 (mkD 0x30000 fmtFP32 0 8 2 0 32)) 1 0x10008

/-- Any instruction of a class that a cell performs issues at these states, whatever registers it names. -/
theorem issues_with (s : State) (i : Instr) (ss ps : List Nat) (hr : s.running c0 = true) (hp : ∀ n ∈ ss, n ∉ (s.cell k0).pendS)
    (hq : (s.cell k0).pendP = [] ∧ (s.cell k0).held = none) (h7 : ((s.cell k0).regs.getP 7 != false) = true)
    (h : performed c0 i = true) : Issues s c0 pT i ss ps :=
  ⟨hr, fun j hj => by simp [c0, State.ctx, hq.2] at hj, by simp [c0, State.ctx, hq.1], h7, h,
    fun n hn => by simpa [c0, State.ctx] using hp n hn, fun n _ => by simp [c0, State.ctx, hq.1]⟩

theorem issues_of (s : State) (i : Instr) (ss ps : List Nat) (hr : s.running c0 = true) (hp : (s.cell k0).pendS = [])
    (hq : (s.cell k0).pendP = [] ∧ (s.cell k0).held = none) (h7 : ((s.cell k0).regs.getP 7 != false) = true)
    (h : performed c0 i = true) : Issues s c0 pT i ss ps := issues_with s i ss ps hr (by simp [hp]) hq h7 h

/-- What `Calm` and `Sound` ask of the pages and links, as checks. -/
def soundB (s : State) : Bool :=
  s.ue.isEmpty && s.ce.isEmpty && (List.finRange 16).all (fun d => (List.finRange 4).all fun p => !s.portLost (.die d p)) &&
    (List.finRange 4).all fun h => (List.finRange 4).all fun p => !s.portLost (.hzn h p)

def unmovedB (s : State) : Bool := s.dir.all fun e => e.2.st != .switch

theorem sound_of (s : State) (h : soundB s = true) : Sound s := by
  simp only [soundB, Bool.and_eq_true, List.isEmpty_iff, List.all_eq_true, List.mem_finRange, forall_const,
    Bool.not_eq_true'] at h
  obtain ⟨⟨⟨hu, hc⟩, hl⟩, hh⟩ := h
  refine ⟨hu, hc, fun sp => ?_⟩
  cases sp with
  | die d p => exact hl d p
  | hzn h p => exact hh h p

theorem get_of {α : Type} (m : SMap α) (d : α) (k : Nat) : SMap.get m d k = d ∨ ∃ x ∈ m, x.2 = SMap.get m d k := by
  induction m with
  | nil => exact .inl rfl
  | cons x rest ih =>
    simp only [SMap.get]
    split
    · exact .inr ⟨x, by simp, rfl⟩
    · rcases ih with h | ⟨y, hy, h⟩
      · exact .inl h
      · exact .inr ⟨y, by simp [hy], h⟩

theorem unmoved_of (s : State) (h : unmovedB s = true) (pg : Nat) : (s.ent pg).st ≠ .switch := by
  simp only [unmovedB, List.all_eq_true, bne_iff_ne] at h
  rcases get_of s.dir DirEntry.free pg with h' | ⟨x, hx, h'⟩
  · simp only [State.ent, h']; decide
  · have := h x hx
    rw [h'] at this
    exact this

def calmB (s : State) (p : Nat) (rs : List Run) : Bool :=
  soundB s && unmovedB s && rs.all fun r => (s.sealedRuns p).all fun v => decide (r.1 + r.2 ≤ v.1 ∨ v.1 + v.2 ≤ r.1)

theorem calm_of (s : State) (p : Nat) (rs : List Run) (h : calmB s p rs = true) : Calm s p rs := by
  simp only [calmB, Bool.and_eq_true, List.all_eq_true, decide_eq_true_eq] at h
  have q := sound_of s h.1.1
  exact ⟨q.1, q.2.1, unmoved_of s h.1.2, q.2.2, h.2⟩

/-! ## Instructions: sequencer, scalar and control -/

theorem sRun_issues (i : Instr) (ss ps : List Nat) (h : performed c0 i = true) : Issues sRun c0 pT i ss ps :=
  issues_of _ _ _ _ (by decide +kernel) (by decide +kernel) (by decide +kernel) (by decide +kernel) h

theorem sMem_issues (i : Instr) (ss ps : List Nat) (h : performed c0 i = true) : Issues sMem c0 pT i ss ps :=
  issues_of _ _ _ _ (by decide +kernel) (by decide +kernel) (by decide +kernel) (by decide +kernel) h

theorem sDesc_issues (i : Instr) (ss ps : List Nat) (h : performed c0 i = true) : Issues sDesc c0 pT i ss ps :=
  issues_of _ _ _ _ (by decide +kernel) (by decide +kernel) (by decide +kernel) (by decide +kernel) h

theorem wit_StepRunsFrontCommand :
    ({ State.reset with pending := [.inputLoss, .pwrEnRise] } : State).pending = [.inputLoss, .pwrEnRise] := rfl

/-- p0 is 0 at reset. -/
theorem wit_FalsePredicateRetires : IsInsn c0 ⟨false, 0⟩ (.ctlNop c0 ⟨false, 0⟩ fmtS0) ∧ sRun.running c0 = true ∧
    (sRun.ctx c0).held = none ∧ (0 : Nat) ∉ (sRun.ctx c0).pendP ∧ ((sRun.ctx c0).regs.getP 0 != false) = false :=
  ⟨.s .ctlNop (by simp [insnsS]) _ _ _, by decide +kernel, by decide +kernel, by decide +kernel, by decide +kernel⟩

/-- A cell performs no class 8, the Zenith unit's. -/
theorem wit_ForeignClassRefused : IsInsn c0 pT (.zenNext c0 pT fmtV0) ∧ sRun.running c0 = true ∧ (7 : Nat) ∉ (sRun.ctx c0).pendP ∧
    ((sRun.ctx c0).regs.getP 7 != false) = true ∧ performed c0 (.zenNext c0 pT fmtV0) = false :=
  ⟨.v .zenNext (by simp [insnsV]) _ _ _, by decide +kernel, by decide +kernel, by decide +kernel, by decide +kernel⟩

/-- A cell that holds a ctl.nop, and one at which the predicate p1 is pending. -/
def sHeldI : State := sRun.setCell k0 { sRun.cell k0 with held := some (.ctlNop c0 pT fmtS0) }
def sPendP : State :=
  sRun.setCell k0 { sRun.cell k0 with flight := [{ Flight.plain (sRun.newJob c0 .mov (.ctlNop c0 pT fmtS0)) with pd := [(1, true)] }] }

theorem wit_WaitsAndTicks : IsInsn c0 pT (.ctlNop c0 pT fmtS0) ∧ State.reset.running c0 = false ∧ State.reset.pending = [] ∧
    State.reset.pwr.ok = false ∧ ({ State.reset with pwr := { Pwr.reset with ok := true } } : State).pwr.ok = true ∧
    ¬ HoldsNoOther sHeldI c0 (.ctlHalt c0 pT fmtS0) :=
  ⟨.s .ctlNop (by simp [insnsS]) _ _ _, by decide +kernel, rfl, rfl, rfl, fun h => by
    have := h (.ctlNop c0 pT fmtS0) (by decide +kernel)
    exact absurd this (by decide)⟩

theorem wit_ScalarIntegerResults :
    Issues sRun c0 pT (.scalLi c0 pT { fmtS0 with rd := 31, imm := 5 }) [31] [] ∧
    Issues sRun c0 pT (.scalAdd c0 pT { fmtS0 with rd := 1, ra := 2, rb := 3 }) [1, 2, 3] [] :=
  ⟨sRun_issues _ _ _ (by decide +kernel), sRun_issues _ _ _ (by decide +kernel)⟩

theorem wit_ScalarPredicateResults :
    Issues sRun c0 pT (.scalCmpEq c0 pT { fmtS0 with pd := 7, ra := 2, imm := 4 }) [2, 0] [7] ∧
    Issues sRun c0 pT (.scalPmov c0 pT { fmtS0 with pd := 1, pa := 7 }) [] [1, 7] ∧
    Issues sRun c0 pT (.scalPnot c0 pT { fmtS0 with pd := 1, pa := 7 }) [] [1, 7] ∧
    Issues sRun c0 pT (.scalPand c0 pT { fmtS0 with pd := 1, pa := 7, imm := 7 }) [] [1, 7, 7] ∧
    Issues sRun c0 pT (.scalPor c0 pT { fmtS0 with pd := 1, pa := 7, imm := 0 }) [] [1, 7, 0] :=
  ⟨sRun_issues _ _ _ (by decide +kernel), sRun_issues _ _ _ (by decide +kernel), sRun_issues _ _ _ (by decide +kernel),
    sRun_issues _ _ _ (by decide +kernel), sRun_issues _ _ _ (by decide +kernel)⟩

/-- Selector 0 is a field of a descriptor; counter 7 is the last of eight. -/
theorem wit_ScalarAccessResults : (∃ lo w, descSel 0 = some (lo, w) ∧ (0 : Nat) < 2 ^ w ∧ wordRsvOk (lo, w) 0 = true) ∧
    (7 : Nat) < sMem.nbar (sMem.part c0) ∧ Issues sMem c0 pT (.scalDget c0 pT { fmtS0 with rd := 1, dn := 15 }) [1] [] ∧
    Issues sMem c0 pT (.scalDset c0 pT { fmtS0 with dn := 15, ra := 1 }) [1] [] ∧
    Issues sMem c0 pT (.scalRdtime c0 pT { fmtS0 with rd := 1 }) [1] [] ∧
    Issues sMem c0 pT (.scalRdbar c0 pT { fmtS0 with rd := 1, bar := 7 }) [1] [] :=
  ⟨⟨_, _, rfl, by decide, by decide +kernel⟩, by decide +kernel, sMem_issues _ _ _ (by decide +kernel),
    sMem_issues _ _ _ (by decide +kernel), sMem_issues _ _ _ (by decide +kernel), sMem_issues _ _ _ (by decide +kernel)⟩

/-- 0 + 0 is no NaN; the square root of −1 is one. -/
def sNeg : State := withS sMem 2 0xBF800000
def sTrap : State := put sNeg (R.PART_NAN_TRAP0 1) (2 ^ 63)
def sNan : State := put (withS sMem 2 0x7FC00000) (R.PART_NAN_TRAP0 1) (2 ^ 63)
def fSqrt : FmtS := { fmtS0 with rd := 1, ra := 2, fmt := 21 }
def fAdd : FmtS := { fmtS0 with rd := 1, ra := 2, rb := 3, fmt := 21 }
def fCmp : FmtS := { fmtS0 with pd := 1, ra := 2, rb := 3, fmt := 21 }

theorem wit_ScalarFloatResults : FpFields fAdd true ∧ FpFields fSqrt false ∧
    Issues sMem c0 pT (.scalFadd c0 pT fAdd) (fpNames fAdd true) [] ∧
    isNanX ((fpVal (sMem.ctx c0).regs fAdd 2).add (fpVal (sMem.ctx c0).regs fAdd 3)).toXR = false ∧
    Issues sMem c0 pT (.scalF2i c0 pT fSqrt) (fpNames fSqrt false) [] ∧ (fpVal (sMem.ctx c0).regs fSqrt 2).isNan = false ∧
    Issues sMem c0 pT (.scalFcmpEq c0 pT fCmp) [2, 3] [1] ∧ (fpVal (sMem.ctx c0).regs fCmp 3).isNan = false := by
  refine ⟨?_, ?_, sMem_issues _ _ _ (by decide +kernel), by decide +kernel, sMem_issues _ _ _ (by decide +kernel),
    by decide +kernel, sMem_issues _ _ _ (by decide +kernel), by decide +kernel⟩ <;> unfold FpFields <;> decide +kernel

theorem wit_ScalarNanEvents : isNanX (fpVal (sTrap.ctx c0).regs fSqrt 2).sqrtX = true ∧
    flag (sTrap.rd (R.PART_NAN_TRAP0 (sTrap.part c0))) 63 = true ∧
    Issues sTrap c0 pT (.scalFsqrt c0 pT fSqrt) (fpNames fSqrt false) [] ∧
    (fpVal (sNan.ctx c0).regs fSqrt 2).isNan = true ∧ flag (sNan.rd (R.PART_NAN_TRAP0 (sNan.part c0))) 63 = true ∧
    Issues sNan c0 pT (.scalF2i c0 pT fSqrt) (fpNames fSqrt false) [] ∧ Issues sNan c0 pT (.scalFcmpLt c0 pT fCmp) [2, 3] [1] := by
  refine ⟨by decide +kernel, by decide +kernel, issues_of _ _ _ _ ?_ ?_ ?_ ?_ ?_, by decide +kernel, by decide +kernel,
    issues_of _ _ _ _ ?_ ?_ ?_ ?_ ?_, issues_of _ _ _ _ ?_ ?_ ?_ ?_ ?_⟩ <;> decide +kernel

theorem wit_NanTrapCaptures : isNanX (fpVal (sNeg.cell k0).regs fSqrt 2).sqrtX = true ∧
    flag (sNeg.rd (R.PART_NAN_TRAP0 (sNeg.part c0))) 63 = false ∧
    Issues sNeg c0 pT (.scalFsqrt c0 pT fSqrt) (fpNames fSqrt false) [] := by
  refine ⟨by decide +kernel, by decide +kernel, issues_of _ _ _ _ ?_ ?_ ?_ ?_ ?_⟩ <;> decide +kernel

/-- Tile operands at the last index, a scalar operand, and every format that vec.rnd takes has a code below 32. -/
theorem wit_VectorElementResults : srcOk 0 7 = true ∧ srcOk 3 31 = true ∧ UnitFree sRun c0 (vecUnit c0) ∧
    Issues sRun c0 pT (.vecFma c0 pT { fmtV0 with td := 7, ta := 1, bsrc := 3, bidx := 31, csrc := 0, cidx := 7 }) [31] [] :=
  ⟨by decide +kernel, by decide +kernel, by unfold UnitFree; decide +kernel, sRun_issues _ _ _ (by decide +kernel)⟩

theorem wit_VectorSelectReduceResults : fmtAssigned fmtBF16 = true ∧ fmtBF16 ≠ fmtE8M0 ∧ UnitFree sRun c0 (vecUnit c0) ∧
    Issues sRun c0 pT (.vecRnd c0 pT { fmtV0 with td := 7, fmt := 19 }) [] [] ∧ srcOk 1 7 = true ∧
    Issues sRun c0 pT (.vecSel c0 pT { fmtV0 with td := 7, bsrc := 1, bidx := 7 }) (srcReads 1 7 ++ srcReads 0 0) [] :=
  ⟨by decide +kernel, by decide, by unfold UnitFree; decide +kernel, sRun_issues _ _ _ (by decide +kernel), by decide +kernel,
    sRun_issues _ _ _ (by decide +kernel)⟩

/-- A cell with an instruction left to retire, one that waits for a counter and one that halts. -/
def jMov : Job := sMem.newJob c0 .mov (.movCopy c0 pT (fmtM0 ⟨0, 0, 0, 0, 0, 0, 0, false, 0, 0⟩))
def sBusy : State := sMem.setCell k0 { sMem.cell k0 with waiting := [jMov], seqno := 1 }
def sHalt : State := (sMem.setCell k0 { sMem.cell k0 with haltBar := some 7 }).setRun k0 stHalting 0 0
def sWait : State := (sMem.setCell k0 { sMem.cell k0 with wait := some (.bar 7 0), stopReq := 7 }).setRun k0 stWaitBar 0 7
def sTime : State := (sMem.setCell k0 { sMem.cell k0 with wait := some (.time 0) }).setRun k0 stWaitTime 0 0

/-- A fence mask at its largest; a fence that is open and one that is closed. -/
theorem wit_ControlFlowResults : FenceMask c0 127 ∧ FenceOpen sRun c0 127 ∧ ¬ FenceOpen sBusy c0 1 ∧
    Issues sRun c0 pT (.ctlFence c0 pT { fmtS0 with imm := 127 }) [] [] ∧
    Issues sBusy c0 pT (.ctlFence c0 pT { fmtS0 with imm := 1 }) [] [] := by
  refine ⟨?_, ?_, ?_, sRun_issues _ _ _ (by decide +kernel), issues_of _ _ _ _ ?_ ?_ ?_ ?_ ?_⟩
  · simp only [FenceMask, c0]; decide
  · simp only [FenceOpen, c0]; decide +kernel
  · simp only [FenceOpen, c0]; decide +kernel
  all_goals decide +kernel

theorem wit_ArriveAdvances : (7 : Nat) < sMem.nbar (sMem.part c0) ∧ (sMem.ctx c0).unretired = [] ∧ (sMem.ctx c0).arrives = [] ∧
    Issues sMem c0 pT (.ctlArrive c0 pT { fmtS0 with bar := 7 }) [] [] :=
  ⟨by decide +kernel, by decide +kernel, by decide +kernel, sMem_issues _ _ _ (by decide +kernel)⟩

/-- The arrival waits behind an instruction; a time in the past, now and to come. -/
theorem wit_WaitAndHaltResults : (sBusy.ctx c0).unretired ≠ [] ∧
    (∀ a ∈ (sBusy.ctx c0).arrives ++ [((sBusy.ctx c0).seqno, 7)], ∃ j ∈ (sBusy.ctx c0).unretired, j.seq ≤ a.1) ∧
    (7 : Nat) < sBusy.nbar (sBusy.part c0) ∧ Issues sBusy c0 pT (.ctlArrive c0 pT { fmtS0 with bar := 7 }) [] [] ∧
    Issues sMem c0 pT (.ctlWbar c0 pT { fmtS0 with bar := 7 }) [0] [] ∧
    Issues sMem c0 pT (.ctlWtime c0 pT { fmtS0 with imm := 1 }) [0] [] ∧
    Issues sMem c0 pT (.ctlHalt c0 pT { fmtS0 with bar := 7, bare := true }) [] [] := by
  refine ⟨by decide +kernel, by decide +kernel, by decide +kernel, issues_of _ _ _ _ ?_ ?_ ?_ ?_ ?_,
    sMem_issues _ _ _ (by decide +kernel), sMem_issues _ _ _ (by decide +kernel), sMem_issues _ _ _ (by decide +kernel)⟩ <;>
  decide +kernel

/-- Counter 8 is the first that is not present. -/
theorem wit_AbsentCounterRefused : sMem.nbar (sMem.part c0) ≤ 8 ∧
    Issues sMem c0 pT (.ctlArrive c0 pT { fmtS0 with bar := 8 }) [] [] ∧
    Issues sMem c0 pT (.ctlWbar c0 pT { fmtS0 with bar := 8 }) [0] [] ∧
    Issues sMem c0 pT (.ctlHalt c0 pT { fmtS0 with bar := 8, bare := true }) [] [] ∧
    Issues sMem c0 pT (.scalRdbar c0 pT { fmtS0 with rd := 1, bar := 8 }) [1] [] :=
  ⟨by decide +kernel, sMem_issues _ _ _ (by decide +kernel), sMem_issues _ _ _ (by decide +kernel),
    sMem_issues _ _ _ (by decide +kernel), sMem_issues _ _ _ (by decide +kernel)⟩

theorem wit_RunStateEvents : sHalt.runState k0 = stHalting ∧ (sHalt.cell k0).unretired = [] ∧ (sHalt.cell k0).haltBar = some 7 ∧
    ((sMem.setRun k0 stHalting 0 0).cell k0).haltBar = none ∧ (7 : Nat) < sHalt.nbar (sHalt.part c0) ∧
    ({ sMem.cell k0 with stopReq := 1 } : CellCtx).stopReq ≠ 0 ∧ sMem.runState k0 = stRun ∧
    sWait.runState k0 = stWaitBar ∧ (sWait.cell k0).stopReq = 7 ∧ (sWait.cell k0).wait = some (.bar 7 0) ∧
    0 ≤ sWait.barVal (sWait.part c0) 7 ∧ sTime.runState k0 = stWaitTime ∧ (sTime.cell k0).wait = some (.time 0) := by
  decide +kernel

/-- The PC on page 1, in the cell's own SRAM. -/
def sOwn : State := sMem.issuedAt c0 0x10000

/-- A line that holds a listed word (ctl.nop), and one that holds an unlisted class. -/
def sLine : State := sMem.setCell k0 { sMem.cell k0 with line := some ⟨0, List.replicate 64 0, []⟩ }
def sBad : State := sMem.setCell k0 { sMem.cell k0 with line := some ⟨0, List.replicate 14 255 ++ 7 :: List.replicate 49 255, [48]⟩ }

def wBad : Nat := ((sBad.ctx c0).lineWord (sBad.pc c0)).getD 0

theorem wit_InstructionFetches :
    (sOwn.running c0 = true ∧ sOwn.pc c0 = 0x10000 ∧ (sOwn.ctx c0).lineWord (sOwn.pc c0) = none ∧
      sOwn.pageOk (sOwn.part c0) 1 = true ∧ sOwn.isFree 1 = false ∧ Calm sOwn (sOwn.part c0) []) ∧
    (sLine.ctx c0).lineWord (sLine.pc c0) = some 0 ∧ (sLine.ctx c0).lineBad (sLine.pc c0) = false ∧ minorListed 0 0 = true ∧
    (sBad.ctx c0).lineWord (sBad.pc c0) = some wBad ∧ (sBad.ctx c0).lineBad (sBad.pc c0) = false ∧ (sBad.ctx c0).held = none ∧
    minorListed (bitsOf wBad 127 124) (bitsOf wBad 123 116) = false ∧
    bitsOf wBad 114 112 ∉ (sBad.ctx c0).pendP ∧ ((sBad.ctx c0).regs.getP (bitsOf wBad 114 112) != wBad.testBit 115) = true ∧
    sMem.isFree (sMem.pc c0 / pageSize) = true ∧ (sMem.cell k0).lineWord (sMem.pc c0) = none ∧
    sMem.runState k0 = stRun ∧ (sMem.issuedAt c0 0x10008).pc c0 % 16 ≠ 0 := by
  refine ⟨?_, ?_, ?_, ?_, ?_, ?_, ?_, ?_, ?_, ?_, ?_, ?_, ?_, ?_⟩ <;> try decide +kernel
  exact ⟨by decide +kernel, by decide +kernel, by decide +kernel, by decide +kernel, by decide +kernel,
    calm_of _ _ _ (by decide +kernel)⟩

/-! ## Instructions: mov, vec and row -/

def fM : FmtM := ⟨0, 0, 0, 0, 0, 0, 0, false, 0, 0⟩

theorem sDesc_ready (u : UnitId) (i : Instr) (ss ps : List Nat) (h : performed c0 i = true) (hu : (sDesc.ctx c0).queue u = []) :
    Ready sDesc c0 pT u i ss ps := ⟨sDesc_issues i ss ps h, hu⟩

theorem ready_of (s : State) (u : UnitId) (i : Instr) (ss ps : List Nat) (hr : s.running c0 = true) (hp : (s.cell k0).pendS = [])
    (hq : (s.cell k0).pendP = [] ∧ (s.cell k0).held = none) (h7 : ((s.cell k0).regs.getP 7 != false) = true)
    (h : performed c0 i = true) (hu : (s.ctx c0).queue u = []) : Ready s c0 pT u i ss ps := ⟨issues_of s i ss ps hr hp hq h7 h, hu⟩

/-- Seven and eight instructions wait for the move engine. -/
def iCopy : Instr := .movCopy c0 pT { fM with dd := 2 }
def sQueue (n : Nat) : State := sDesc.setCell k0 { sDesc.cell k0 with waiting := List.replicate n (sDesc.newJob c0 .mov iCopy) }

theorem wit_QueueEntry : (((sQueue 7).cell k0).queue .mov).length = 7 ∧ (((sQueue 8).cell k0).queue .mov).length = 8 ∧
    Issues (sQueue 7) c0 pT iCopy [] [] ∧ Issues (sQueue 8) c0 pT iCopy [] [] := by
  refine ⟨?_, ?_, issues_of _ _ _ _ ?_ ?_ ?_ ?_ ?_, issues_of _ _ _ _ ?_ ?_ ?_ ?_ ?_⟩ <;> decide +kernel

/-- A copy from page 1 to FREE page 4, and a take of the whole of page 1. -/
def sTake : State := withD (withD sDesc 4 (mkD 0x10000 fmtFP32 0 16384 1 0 0)) 5 (mkD 0x40000 fmtFP32 0 16384 1 0 0)
def fTake : FmtM := { fM with dd := 5, ds := 4 }

theorem wit_MovCopyResults : Ready sDesc c0 pT .mov iCopy [] [] ∧
    Calm (entered sDesc c0 .mov iCopy) 1 ((dsc sDesc c0 2).runs (sDesc.tabs c0)) ∧ (entered sDesc c0 .mov iCopy).part c0 = 1 ∧
    (entered sDesc c0 .mov iCopy).copyFail c0 (sDesc.newJob c0 .mov iCopy) { fM with dd := 2 } false = none ∧
    ((entered sDesc c0 .mov iCopy).allocateAll (writerOf c0) 1 (pagesOf ((dsc sDesc c0 2).runs (sDesc.tabs c0)))).isSome = true := by
  refine ⟨sDesc_ready _ _ _ _ ?_ ?_, calm_of _ _ _ ?_, ?_, ?_, ?_⟩ <;> decide +kernel

theorem wit_MovCopyResults_take :
    Ready sTake c0 pT .mov (.movTake c0 pT fTake) [] [] ∧
    (entered sTake c0 .mov (.movTake c0 pT fTake)).copyFail c0 (sTake.newJob c0 .mov (.movTake c0 pT fTake)) fTake true = none ∧
    (∀ pg ∈ pagesOf ((dsc sTake c0 4).runs (sTake.tabs c0)), (entered sTake c0 .mov (.movTake c0 pT fTake)).inMove pg = false) ∧
    ((entered sTake c0 .mov (.movTake c0 pT fTake)).allocateAll (writerOf c0) 1
      (pagesOf ((dsc sTake c0 5).runs (sTake.tabs c0)))).isSome = true := by
  refine ⟨ready_of _ _ _ _ _ ?_ ?_ ?_ ?_ ?_ ?_, ?_, ?_, ?_⟩ <;> decide +kernel

/-- Address 0x10008 lies on page 1, homed in the cell; address 0x40008 on FREE page 4; page 1,023 is the last with rights. -/
def iLds : Instr := .movLds c0 pT { fM with rd := 2, pd := 1, ra := 1 }
def iSts : Instr := .movSts c0 pT { fM with ra := 1, rb := 2, imm := 0x30000 }

theorem wit_MovWordResults : Ready sDesc c0 pT .mov iLds [2, 1] [1] ∧ Calm (entered sDesc c0 .mov iLds) 1 [] ∧
    movAddr (sDesc.ctx c0).regs 1 0 % 8 = 0 ∧ (entered sDesc c0 .mov iLds).pageOk 1 (movAddr (sDesc.ctx c0).regs 1 0 / 65536) = true ∧
    Ready sDesc c0 pT .mov iSts [1, 2] [] ∧ Calm (entered sDesc c0 .mov iSts) 1 [(0x40008, 8)] ∧
    (entered sDesc c0 .mov iSts).isFree 4 = true ∧ (entered sDesc c0 .mov iSts).pageOk 1 1023 = true ∧
    (entered sDesc c0 .mov iSts).pageOk 1 1024 = false ∧
    ((entered sDesc c0 .mov iSts).allocateAll (writerOf c0) 1 [4]).isSome = true := by
  refine ⟨sDesc_ready _ _ _ _ ?_ ?_, calm_of _ _ _ ?_, ?_, ?_, sDesc_ready _ _ _ _ ?_ ?_, calm_of _ _ _ ?_, ?_, ?_, ?_, ?_⟩ <;>
    decide +kernel

def iAadd : Instr := .movAadd64 c0 pT { fM with rd := 2, ra := 1, rb := 3 }

theorem wit_MovAtomicResults : Ready sDesc c0 pT .mov iAadd [2, 1, 3] [] ∧ Calm (entered sDesc c0 .mov iAadd) 1 [(0x10008, 8)] ∧
    (entered sDesc c0 .mov iAadd).pageOk 1 1 = true ∧ (entered sDesc c0 .mov iAadd).isFree 1 = false ∧
    placed ((entered sDesc c0 .mov iAadd).resolve c0 [1]) (writerOf c0) 1 1 ((entered sDesc c0 .mov iAadd).resolve c0 [1]) ∧
    ((entered sDesc c0 .mov iAadd).resolve c0 [1]).atomCell (ctxDie c0) 1 = some k0 := by
  refine ⟨sDesc_ready _ _ _ _ ?_ ?_, calm_of _ _ _ ?_, ?_, ?_, ?_, ?_⟩
  case refine_6 => unfold placed; rw [if_neg]; decide +kernel
  all_goals decide +kernel

/-- Page 3 is homed in a stack, which is no cell's SRAM. -/
theorem wit_AtomicElsewhereRefused : (sDesc.ent 3).st ≠ .switch ∧
    Ready sDesc c0 pT .mov (.movSwap c0 pT { fM with rd := 2, ra := 1, rb := 3, imm := 0x20000 }) [2, 1, 3] [] ∧
    movAddr (sDesc.ctx c0).regs 1 0x20000 = 0x30008 ∧ sDesc.pageOk 1 3 = true ∧ sDesc.isFree 3 = false ∧
    sDesc.atomCell (ctxDie c0) 3 = none ∧ (sDesc.ctx c0).arrives = [] := by
  refine ⟨?_, sDesc_ready _ _ _ _ ?_ ?_, ?_, ?_, ?_, ?_, ?_⟩ <;> decide +kernel

/-- A gradient tile on page 1 added to words of the same extents on page 2. -/
def sGadd : State := withD sDesc 6 (mkD 0x20000 fmtFP64 0 8 2 0 64)
def fGadd : FmtM := { fM with dd := 6, ds := 0 }

theorem wit_MovGaddResults : Ready sGadd c0 pT .mov (.movGadd c0 pT fGadd) [] [] ∧
    (entered sGadd c0 .mov (.movGadd c0 pT fGadd)).gaddFail c0 (sGadd.newJob c0 .mov (.movGadd c0 pT fGadd)) fGadd = none ∧
    (entered sGadd c0 .mov (.movGadd c0 pT fGadd)).isFree 2 = false ∧
    ((entered sGadd c0 .mov (.movGadd c0 pT fGadd)).atomCell (ctxDie c0) 2).isSome = true ∧
    (∀ x ∈ (dsc sGadd c0 6).rows, (((dsc sGadd c0 6).rowPart x 56 8).headD (0, 0)).1 / 65536 = 2) := by
  refine ⟨ready_of _ _ _ _ _ ?_ ?_ ?_ ?_ ?_ ?_, ?_, ?_, ?_, ?_⟩ <;> decide +kernel

/-- A spill of page 1 into page 3, which is homed in a stack. -/
def sSpill : State := withD sDesc 7 (mkD 0x30000 7 0 4096 1 0 0)
def iSpill : Instr := .movSpill c0 pT { fM with rd := 1, dd := 7, ds := 0 }

theorem wit_MovSpillResults : Ready sSpill c0 pT .mov iSpill [1] [] ∧
    (entered sSpill c0 .mov iSpill).spillFail c0 (sSpill.newJob c0 .mov iSpill) { fM with rd := 1, dd := 7, ds := 0 } = none := by
  refine ⟨ready_of _ _ _ _ _ ?_ ?_ ?_ ?_ ?_ ?_, ?_⟩ <;> decide +kernel

/-- 64 zero bytes are the stream of two rows of eight FP32 elements. -/
theorem wit_SpillFillRoundTrip : (List.replicate 64 (0 : Byte)).length = (descV (mkD 0x20000 fmtFP32 0 8 2 0 32)).streamLen (sDesc.tabs c0) := by
  decide +kernel

/-- The spill area that those bytes make, on page 1, read back into page 2. -/
def area : List Byte := spillHeader (dsc sDesc c0 1) 64 ++ (blocksOf (List.replicate 64 0)).flatMap (blockBytes fmtFP32)
def sFill : State := { sSpill with bytes := ((List.range area.length).zip area).foldl (fun b x => SMap.set b 0 (locCell k0 0 * 65536 + x.1) x.2) [] }
def iFill : Instr := .movFill c0 pT { fM with dd := 1, ds := 8 }
def sFill' : State := withD sFill 8 (mkD 0x10000 7 0 4096 1 0 0)

theorem wit_MovFillResults : Ready sFill' c0 pT .mov iFill [] [] ∧ (entered sFill' c0 .mov iFill).bareFail c0 iFill = none ∧
    (entered sFill' c0 .mov iFill).movDescFail c0 (sFill'.newJob c0 .mov iFill) 8 (movPermit (fun _ => true) false false) = none ∧
    (entered sFill' c0 .mov iFill).movDescFail c0 (sFill'.newJob c0 .mov iFill) 1 (movPermit (fun _ => true) false true) = none ∧
    (entered sFill' c0 .mov iFill).quotaFail c0 ((dsc sFill' c0 1).runs (sFill'.tabs c0)) = none ∧
    (match fillArea (dsc sFill' c0 1) (sFill'.tabs c0) ((entered sFill' c0 .mov iFill).bytesOf ((dsc sFill' c0 8).runs (sFill'.tabs c0))) with
      | .ok bs n => decide (bs = List.replicate 64 0 ∧ n = area.length)
      | _ => false) = true := by
  refine ⟨ready_of _ _ _ _ _ ?_ ?_ ?_ ?_ ?_ ?_, ?_, ?_, ?_, ?_, ?_⟩ <;> decide +kernel

theorem wit_MovHintResults :
    Ready sDesc c0 pT .mov (.movHint c0 pT { fM with ra := 1, ds := 0, imm := 2 }) [1] [] ∧
    sDesc.bareFail c0 (.movHint c0 pT { fM with ra := 1, ds := 0, imm := 2 }) = none ∧
    sDesc.movDescFail c0 (sDesc.newJob c0 .mov (.movHint c0 pT { fM with ra := 1, ds := 0, imm := 2 })) 0
      (movPermit (fun _ => true) false false) = none := by
  refine ⟨sDesc_ready _ _ _ _ ?_ ?_, ?_, ?_⟩ <;> decide +kernel

/-- A FULL bank fa0. -/
def sBank : State := sDesc.setBankSt k0 0 bFull
def fAcc : FmtV := { fmtV0 with form := 2, td := 5 }

theorem wit_VecAccTileForms : sBank.bankSt k0 0 = bFull ∧ accFields fAcc = true ∧ fAcc.td.val = 5 ∧
    Ready sBank c0 pT .vec (.vecAcc c0 pT fAcc) [] [] ∧
    BankReadable (entered sBank c0 .vec (.vecAcc c0 pT fAcc)) k0 (sBank.newJob c0 .vec (.vecAcc c0 pT fAcc)) 0 := by
  refine ⟨?_, ?_, ?_, ready_of _ _ _ _ _ ?_ ?_ ?_ ?_ ?_ ?_, ?_, ?_, ?_⟩ <;> decide +kernel

/-- 1 is exact in FP32, and nothing is left of it. -/
theorem wit_TripleParts : (toF32 false (Dy.toXR ⟨1, 0⟩)).sat = 0 ∧ (toF32 false (Dy.toXR ⟨1, 0⟩)).ovf = 0 ∧
    (∃ h, f32Val (BitVec.ofNat 32 (toF32 false (Dy.toXR ⟨1, 0⟩)).bits) = .fin h ∧
      ∃ m, f32Val (BitVec.ofNat 32 (toF32 false ((Dy.sub ⟨1, 0⟩ h).toXR)).bits) = .fin m) := by
  refine ⟨by decide +kernel, by decide +kernel, ⟨_, rfl, _, rfl⟩⟩

/-- Form F64 stores a 32 × 32 tile of FP64 at FREE page 4. -/
def sStore : State := withD sBank 9 (mkD 0x40000 fmtFP64 0 32 32 0 256)
def fStore : FmtV := { fmtV0 with form := 3, ds := 9, rel := true }

theorem wit_VecAccStoreForm : accFields fStore = true ∧ Ready sStore c0 pT .vec (.vecAcc c0 pT fStore) [] [] ∧
    BankReadable (entered sStore c0 .vec (.vecAcc c0 pT fStore)) k0 (sStore.newJob c0 .vec (.vecAcc c0 pT fStore)) 0 ∧
    (entered sStore c0 .vec (.vecAcc c0 pT fStore)).accF64Fail c0 (sStore.newJob c0 .vec (.vecAcc c0 pT fStore)) fStore = none ∧
    (((entered sStore c0 .vec (.vecAcc c0 pT fStore)).readBank k0 0).allocateAll (.cell k0) 1
      (pagesOf ((dsc sStore c0 9).runs (sStore.tabs c0)))).isSome = true := by
  refine ⟨?_, ready_of _ _ _ _ _ ?_ ?_ ?_ ?_ ?_ ?_, ⟨?_, ?_, ?_⟩, ?_, ?_⟩ <;> decide +kernel

def iLd : Instr := .vecLd c0 pT { fmtV0 with td := 7, ds := 0 }
def iSt : Instr := .vecSt c0 pT { fmtV0 with ta := 7, ds := 2 }

theorem wit_VecLoadStoreResults : Ready sDesc c0 pT .vec iLd [] [] ∧
    ((entered sDesc c0 .vec iLd).cell k0).engineHold (sDesc.newJob c0 .vec iLd) .row = false ∧
    (entered sDesc c0 .vec iLd).engineFail c0 (sDesc.newJob c0 .vec iLd) ldPermit 0 = none ∧
    Ready sDesc c0 pT .vec iSt [] [] ∧
    (entered sDesc c0 .vec iSt).engineFail c0 (sDesc.newJob c0 .vec iSt) (stPermit (dsc sDesc c0 2)) 2 = none ∧
    (entered sDesc c0 .vec iSt).quotaFail c0 ((dsc sDesc c0 2).runs (sDesc.tabs c0)) = none ∧
    ((entered sDesc c0 .vec iSt).allocateAll (.cell k0) 1 (pagesOf ((dsc sDesc c0 2).runs (sDesc.tabs c0)))).isSome = true := by
  refine ⟨sDesc_ready _ _ _ _ ?_ ?_, ?_, ?_, sDesc_ready _ _ _ _ ?_ ?_, ?_, ?_, ?_⟩ <;> decide +kernel

/-- The scale s4 is 1; the last two entries of the store. -/
def sRow : State := withS sDesc 4 0x3F800000
def fSoft : FmtV := { fmtV0 with ds := 0, du := 2, rs := 4, sbase := 8190 }

theorem wit_RowResults : Ready sRow c0 pT .row (.rowSoftmax c0 pT fSoft) [4] [] ∧
    ((entered sRow c0 .row (.rowSoftmax c0 pT fSoft)).cell k0).engineHold (sRow.newJob c0 .row (.rowSoftmax c0 pT fSoft)) .vec = false ∧
    (entered sRow c0 .row (.rowSoftmax c0 pT fSoft)).rowFail k0 (softmaxOp fSoft (sRow.newJob c0 .row (.rowSoftmax c0 pT fSoft)))
      (sRow.newJob c0 .row (.rowSoftmax c0 pT fSoft)) = none ∧
    ((entered sRow c0 .row (.rowSoftmax c0 pT fSoft)).allocateAll (.cell k0) 1
      (pagesOf ((dsc sRow c0 2).runs (sRow.tabs c0)))).isSome = true := by
  refine ⟨ready_of _ _ _ _ _ ?_ ?_ ?_ ?_ ?_ ?_, ?_, ?_, ?_⟩ <;> decide +kernel

/-- A row of one element −∞, and a row with one +∞. -/
def rowInf (b : F32) : RowIn := ⟨sDesc.newJob c0 .row (.rowSoftmax c0 pT fSoft), fmtFP32, 0, [b], [], 0, 0⟩

theorem wit_SoftmaxSpecialRows : (∀ v ∈ ((rowInf 0xFF800000).zs (.fin ⟨1, 0⟩)).map (·.val), v = .inf true) ∧
    (∀ v ∈ ((rowInf 0x7F800000).zs (.fin ⟨1, 0⟩)).map (·.val), v.isNan = false) ∧
    Val.inf false ∈ ((rowInf 0x7F800000).zs (.fin ⟨1, 0⟩)).map (·.val) := by decide +kernel

/-- Two entries of two FP32 words. -/
def sStat : State := withD (withD sDesc 10 (mkD 0x40000 fmtFP32 0 2 2 0 8)) 11 (mkD 0x10000 fmtFP32 0 2 2 0 8)
def iStst : Instr := .rowStst c0 pT { fmtV0 with du := 10, sbase := 8190 }
def iStld : Instr := .rowStld c0 pT { fmtV0 with ds := 11, sbase := 8190, tag := 3 }

theorem wit_StatisticsTransfers : Ready sStat c0 pT .row iStst [] [] ∧ Ready sStat c0 pT .row iStld [] [] ∧
    ((entered sStat c0 .row iStst).cell k0).engineHold (sStat.newJob c0 .row iStst) .vec = false ∧
    (entered sStat c0 .row iStst).statFail k0 (sStat.newJob c0 .row iStst) 10 8190 true true = none ∧
    ((entered sStat c0 .row iStst).allocateAll (.cell k0) 1 (pagesOf ((dsc sStat c0 10).runs (sStat.tabs c0)))).isSome = true ∧
    ((entered sStat c0 .row iStld).cell k0).engineHold (sStat.newJob c0 .row iStld) .vec = false ∧
    (entered sStat c0 .row iStld).statFail k0 (sStat.newJob c0 .row iStld) 11 8190 false true = none := by
  refine ⟨ready_of _ _ _ _ _ ?_ ?_ ?_ ?_ ?_ ?_, ready_of _ _ _ _ _ ?_ ?_ ?_ ?_ ?_ ?_, ?_, ?_, ?_, ?_, ?_⟩ <;> decide +kernel

/-! ## Arrays, retirement, collectives and checks -/

/-- d12 and d13 name two rows of eight E4M3 elements on page 1; a dusk.mm of them waits at the head of the queue. -/
def fMm : FmtA := { fmtA0 with da := 12, db := 13 }
def sOps : State := withD (withD sDesc 12 (mkD 0x10000 0x10 0 8 2 0 32)) 13 (mkD 0x10100 0x10 0 8 2 0 32)
def sHead : State := nx (exec (.duskMm c0 pT fMm) sOps)
def jMm : Job := sOps.newJob c0 .dusk (.duskMm c0 pT fMm)
/-- The pass accepted, scanned, and scanned with bounds that its data exceeds. -/
def sAcc : State := nx (exec (.duskPassAccept k0) sHead)
def sScan : State := nx (exec (.prescanDone k0 .dusk) sAcc)
def sBreak : State := { sScan with bytes := [(locCell k0 0 * 65536, 0x7E)] }

theorem wit_ArrayInstructionsQueue : fMm.rsv = 0 ∧ fMm.mode.toNat % 1024 = 0 ∧ Issues sOps c0 pT (.duskMm c0 pT fMm) [] [] ∧
    ((sOps.cell k0).queue .dusk).length < 8 := by
  refine ⟨?_, ?_, issues_of _ _ _ _ ?_ ?_ ?_ ?_ ?_, ?_⟩ <;> decide +kernel

theorem wit_PassAcceptance : CanAccept sHead k0 .dusk jMm := by
  unfold CanAccept
  refine ⟨?_, ?_, ?_, ?_, ?_, ?_, ?_⟩ <;> decide +kernel

theorem wit_PrescanResults : ∃ w, ((sAcc.cell k0).passesOn .dusk).find? (·.scanA.isNone) = some w ∧ sAcc.ue = [] ∧ sAcc.ce = [] := by
  refine ⟨((sAcc.cell k0).dusk).headD ⟨jMm, 0, ⟨0, 0, none, none⟩, ⟨0, 0, none, none⟩, false, 0, none, none, false, none, none, 0⟩, ?_⟩
  decide +kernel

theorem wit_PassAbandonment : (((sBreak.cell k0).passesOn .dusk).find? fun w => w.scanA.isSome && !sBreak.passHolds w).isSome = true ∧
    (((sBreak.cell k0).passesOn .dusk).all fun w => w.attempt = 0 && decide (w.bank < 4)) = true := by decide +kernel

theorem wit_PassRetirement : (((sScan.cell k0).dusk).find? (sScan.cell k0).canRetire).isSome = true ∧ sScan.ue = [] ∧
    ((sScan.cell k0).dusk.all fun w => sScan.passHolds w && w.bank / 2 = 0) = true := by decide +kernel

/-- One product 1 · 1 in one interval. -/
def elOne : QEl := ⟨.fin ⟨1, 0⟩, 0, 0, 0, (0, 0), 0, 0, false, false⟩
def psOne : PassSum := ⟨1, false, true, [1], 1⟩

theorem wit_AccumulationExact : psOne.rank ≤ 1 ∧ psOne.fixed = true ∧ psOne.lens.sum = [elOne].length ∧
    [0].length = psOne.lens.length ∧ (∀ x ∈ [elOne] ++ [elOne], ∃ d, x.v = .fin d) ∧
    (∀ x ∈ [elOne].zip [elOne], ∀ u v, x.1.v = .fin u → x.2.v = .fin v → u.m * v.m ≠ 0 →
      psOne.anchor 0 0 - psOne.window ≤ u.e + v.e + (x.1.e + x.2.e)) := by
  refine ⟨by decide, rfl, rfl, rfl, fun x h => ?_, fun x h u v hu hv _ => ?_⟩
  · simp only [List.singleton_append, List.mem_cons, List.not_mem_nil, or_false, or_self] at h
    subst h; exact ⟨⟨1, 0⟩, rfl⟩
  · simp only [List.zip_cons_cons, List.zip_nil_left, List.mem_singleton] at h
    subst h
    simp only [elOne, Val.fin.injEq] at hu hv
    subst hu hv
    decide +kernel

/-- Columns up and idle for 16 cc with gating after 16. -/
def sIdle : State :=
  (put (put sMem (R.CELL_DUSK_CTL k0) 1) (R.CELL_DUSK_STAT k0) 2).setCell k0 { sMem.cell k0 with idleDusk := 16 }

theorem wit_ColumnGating : sIdle.rdF (arrStatReg k0 .dusk) (1, 0) = 2 ∧
    16 * sIdle.rdF (arrCtlReg k0 .dusk) F.CELL_DUSK_CTL_GATE_IDLE ≤ (sIdle.cell k0).arrIdle .dusk ∧
    sIdle.rdF (arrCtlReg k0 .dusk) F.CELL_DUSK_CTL_GATE_IDLE ≠ 0 ∧ (sIdle.cell k0).arrBusy .dusk = false := by decide +kernel

/-- A copy in flight; one that waits with its unit ready. -/
def sFly : State := sDesc.setCell k0 { sDesc.cell k0 with flight := [Flight.plain (sDesc.newJob c0 .mov iCopy)] }
def jRow : Job := sStat.newJob c0 .row iStst
/-- A row instruction at the head of its queue, and one that waits for a store of the vector engine. -/
def sHold : State := sStat.setCell k0 { sStat.cell k0 with waiting := [jRow], seqno := 1 }
def sHold' : State :=
  sStat.setCell k0 { sStat.cell k0 with waiting := [sStat.newJob c0 .vec iSt, { jRow with seq := 1 }], seqno := 2 }

/-- What the head of the row queue of cell 0.0 would do: 0 nothing yet, 1 its work. -/
def perfKind (s : State) (j : Job) : Option Nat :=
  match perfOf j.ins with
  | some w => match w j c0 s with
    | .done _ _ => some 1
    | .wait => some 0
    | _ => none
  | none => none

theorem wit_RetirementResults : (sFly.cell k0).oldest .mov = some (Flight.plain (sDesc.newJob c0 .mov iCopy)) ∧
    sHold.headJob c0 .row = some jRow ∧ perfKind sHold jRow = some 1 ∧
    sHold'.headJob c0 .row = some { jRow with seq := 1 } ∧ perfKind sHold' { jRow with seq := 1 } = some 0 := by
  decide +kernel

/-- Words of an Ephemeris entry of Horizon die 0. -/
def eW (start dur act kind fmt next port sub peer cell rent : Nat) : Nat :=
  start * 2 ^ 96 + dur * 2 ^ 76 + act * 2 ^ 72 + kind * 2 ^ 71 + fmt * 2 ^ 65 + next * 2 ^ 51 + port * 2 ^ 40 + sub * 2 ^ 38 +
    peer * 2 ^ 26 + cell * 2 ^ 16 + rent
def putE (s : State) (i v : Nat) : State := put (put s (ephAddr 0 i 0) v) (ephAddr 0 i 1) (v / 2 ^ 64)

/-- Partition 1 has eight entries of each timetable on Horizon die 0, timetable 0 committed and active with period 100,000, time
is held, the module is READY, sub-port 0 has link up, and the entries are: 0 a send at 4,000 ns with reserve 1, 1 its reserve, 2 a receive without a
reserve, 3 a VXCH, 4 an exact sum, all at the same peer. -/
def sEph : State :=
  putE (putE (putE (putE (putE
    (put (put (put (put (put (put sOps (R.PART_EPH_RANGEh 1 0) (8 * 2 ^ 16)) (R.PART_TT_CTL 1) 16) (R.PART_TT_CFGt 1 0) 100000)
      R.PANEL_MOD_ID 1) R.PANEL_MER_STAT (2 * 2 ^ F.PANEL_MER_STAT_STATE.2)) (R.HZN_ETH_STATq 0 0) 1
      |>.wrF R.MGMT_BOOT_STAT F.MGMT_BOOT_STAT_PHASE 9)
    0 (eW 1000 500 actSend 0 0x10 1 0 0 0 0 0)) 1 (eW 3000 500 actSend 1 0x10 0x3FFF 0 0 0 0 1))
    2 (eW 5000 500 actRecv 0 0x15 0x3FFF 0 0 0 0 2)) 3 (eW 7000 500 actVxch 0 0 0x3FFF 0 0 0 0 3))
    4 (eW 8000 500 actRecv 0 0x15 5 0 0 0 0 4)

def fK : FmtK := fmtK0
def iSend : Instr := .collSlot c0 pT { fK with ds := 12, rd := 5, imm := 1 }
def iRecv : Instr := .collSlot c0 pT { fK with dd := 2, ent := 2, rd := 6, imm := 2 }
/-- The time is `n`. -/
def atNs (s : State) (n : Nat) : State := { s with time := { s.time with ns := BitVec.ofNat 64 n } }

/-- The entry is armed; the slot has begun; the receive's occurrence is past. -/
def sArm : State := nx (exec iSend sEph)
def aSend : Armed := newArmed (entered sEph c0 .coll iSend) k0 (sEph.newJob c0 .coll iSend) 0
def sRecv : State := nx (exec iRecv sEph)
def aRecv : Armed := newArmed (entered sEph c0 .coll iRecv) k0 (sEph.newJob c0 .coll iRecv) 2

theorem wit_CollectiveArming : Ready sEph c0 pT .coll iSend [5] [] ∧ (sEph.cell k0).armed.length < 256 ∧
    (∀ b ∈ (sEph.cell k0).armed, b.ent ≠ 0) ∧
    (entered sEph c0 .coll iSend).collFail c0 (sEph.newJob c0 .coll iSend) { fK with ds := 12, rd := 5, imm := 1 } = none ∧
    ¬ Begun (entered sEph c0 .coll iSend) 1 0 0 ∧
    Begun (entered (atNs sEph 20000) c0 .coll iRecv) 1 0 2 ∧ (sEph.entryT 1 0 2).next = 0x3FFF ∧
    (entered (atNs sEph 20000) c0 .coll iRecv).collFail c0 ((atNs sEph 20000).newJob c0 .coll iRecv)
      { fK with dd := 2, ent := 2, rd := 6, imm := 2 } = none ∧
    Ready sArm c0 pT .coll (.collCancel c0 pT { fK with ent := 0, rd := 7 }) [7] [] := by
  refine ⟨ready_of _ _ _ _ _ ?_ ?_ ?_ ?_ ?_ ?_, ?_, ?_, ?_, ?_, ?_, ?_, ?_, ⟨issues_with _ _ _ _ ?_ ?_ ?_ ?_ ?_, ?_⟩⟩
  case refine_10 => unfold Begun; decide +kernel
  case refine_11 => unfold Begun; decide +kernel
  case refine_19 => unfold UnitFree; decide +kernel
  all_goals decide +kernel

/-- A second present cell of the partition, which has not executed a verdict instruction. -/
def sTwo : State := (put sDesc (R.PART_CELLMAPj 1 0) 3).setBacking 1 (some ⟨0, 1⟩)

theorem wit_CheckInstructions : Ready sDesc c0 pT .chk (.chkRetract c0 pT fK) [] [] ∧
    Ready sDesc c0 pT .chk (.chkSample c0 pT { fK with imm := 1 }) [] [] ∧
    Ready sDesc c0 pT .chk (.chkVlast c0 pT { fK with rd := 31 }) [31] [] ∧
    Ready sDesc c0 pT .chk (.chkVerdict c0 pT fK) [] [] ∧ (sDesc.cell k0).vdone = false ∧ sDesc.present 1 = [k0] ∧
    sDesc.vphase 1 = 0 ∧ sTwo.present 1 = [k0, ⟨0, 1⟩] ∧ (sTwo.cell ⟨0, 1⟩).vdone = false := by
  refine ⟨sDesc_ready _ _ _ _ ?_ ?_, sDesc_ready _ _ _ _ ?_ ?_, sDesc_ready _ _ _ _ ?_ ?_, sDesc_ready _ _ _ _ ?_ ?_,
    ?_, ?_, ?_, ?_, ?_⟩ <;> decide +kernel

theorem wit_TransferSlots_start :
    SlotOf (atNs sArm 4000) 0 0 1 0 k0 aSend ∧
    Served (atNs sArm 4000) 1 ((atNs sArm 4000).eph 0 0) aSend ((atNs sArm 4000).entStart 1 0) ∧
    ((atNs sArm 4000).eph 0 0).action = actSend ∧ Calm (atNs sArm 4000) 1 [] ∧
    SlotOf (atNs sRecv 20000) 0 2 1 2 k0 aRecv ∧
    Served (atNs sRecv 20000) 1 ((atNs sRecv 20000).eph 0 2) aRecv ((atNs sRecv 20000).entStart 1 2) ∧
    ((atNs sRecv 20000).eph 0 2).action = actRecv := by
  refine ⟨?_, ?_, ?_, calm_of _ _ _ ?_, ?_, ?_, ?_⟩ <;> (try simp only [SlotOf, SlotNow, Served]) <;> decide +kernel

/-- Time is lost: the slot of the send is not served. -/
theorem wit_TransferSlots_unserved : 
    SlotOf (put (atNs sArm 4000) R.PANEL_MER_STAT 0) 0 0 1 0 k0 aSend ∧
    ¬ Served (put (atNs sArm 4000) R.PANEL_MER_STAT 0) 1 (sArm.eph 0 0) aSend 4000 := by
  simp only [SlotOf, SlotNow, Served]; decide +kernel

/-- Entry 4, a receive with a reserve, has begun and its transfer has not come; the same action completed. -/
def aGone : Armed := { aRecv with ent := 4, now := 4, began := true, job := { aRecv.job with ins := .collSlot c0 pT { fK with dd := 2, ent := 4, rd := 6, imm := 2 } } }
def sGone : State := atNs (sRecv.setCell k0 { sRecv.cell k0 with armed := [aGone] }) 40000
def sDone : State := sRecv.setCell k0 { sRecv.cell k0 with armed := [{ aRecv with status := some 2 }] }

theorem wit_TransferSlots_end : sGone.ephOwner 0 4 = some (1, sGone.ttActive 1, 4) ∧ sGone.part c0 = 1 ∧
    (sGone.eph 0 4).action ≠ actVxch ∧ aGone.tt = sGone.ttActive 1 ∧ (sGone.entryT 1 aGone.tt aGone.now).next ≠ 0x3FFF ∧
    (sGone.allArmed 1).filter (fun x => x.2.tt = sGone.ttActive 1 && x.2.now = 4 && x.2.status.isNone && !x.2.doneTx &&
      decide ((sGone.eph 0 4).slotEnd (sGone.armedStart 1 x.2) + (if x.2.recv then 40 else 0) ≤ sGone.hnow 0)) = [(k0, aGone)] ∧
    aGone.recv = true ∧ wholeTransfer (sGone.staged 1 aGone.ent) = false ∧
    ((sDone.cell k0).armed.find? (·.ent = 2)).isSome = true ∧ sDone.doneStatus 1 { aRecv with status := some 2 } = some 2 ∧
    ((sDone.cell k0).flight.find? (·.job.seq = aRecv.job.seq)).isSome = true := by decide +kernel

/-! ## Peers, verdicts, timetables, accesses and partitions -/

/-- A write that a register takes, as a check. -/
def canWrite (a : Nat) (v : W64) : Bool :=
  match regAt a with
  | some r => !roTouched r v && (r.rw != 0 || r.w1c != 0 || r.w1s != 0 || r.wo != 0)
  | none => false

theorem writable_of (a : Nat) (v : W64) (h : canWrite a v = true) : Writable a v := by
  unfold canWrite at h
  unfold Writable
  split at h
  · rename_i r hr
    simpa [hr, or_assoc] using h
  · exact absurd h (by decide)

/-- The scale frame of a transfer of 16 E4M3 elements from module 7 to entry 2 of partition 1, whose receive has begun. -/
def sub0 : SubPort := ⟨0, 0, 0⟩
def hdr7 : AstpHdr := ⟨sub0, ⟨false, 0, 5⟩, 5000, 0, 1, 0, 1, 0, 0, 0, 7, [64], 0⟩
def frm : TensorFrame := ⟨2, 0, 0x10, 0, 0, 0, 2, 0, 0, 16, 1, [127]⟩
def sBegun : State :=
  put (nx (exec (.ephSlotStart 0 2) (atNs sRecv 20000))) (R.HZN_PEERi_A 0 0) (7 + 2 ^ F.HZN_PEERi_A_STATE.2)
def aBegun : Armed := { aRecv with began := true }

theorem wit_PeerFrames : frm.kind.toNat < 2 ∧ Heard sBegun sub0 ∧ Heard sEph sub0 ∧ (sMem.linkIs sub0 = false ∧ sMem.ready = false) ∧
    ({ sBegun with net := { sBegun.net with done := [(stageKey 1 2, 0)] } } : State).net.done.contains (stageKey 1 2, 0) = true ∧
    sEph.net.done.contains (stageKey 1 2, 0) = false ∧ (∀ x ∈ sEph.allArmed 1, sEph.matchesRecv 1 hdr7 frm x = false) ∧
    sBegun.net.done.contains (stageKey 1 2, 0) = false ∧
    (sBegun.allArmed 1).find? (sBegun.matchesRecv 1 hdr7 frm) = some (k0, aBegun) ∧
    SMap.get sBegun.net.stage [] (stageKey 1 2) = [] ∧ hdr7.srcMod ≠ 0 := by simp only [Heard]; decide +kernel

theorem wit_PeerFrames_pages (pg : Nat) : (sBegun.ent pg).st ≠ .switch := unmoved_of _ (by decide +kernel) pg

/-- An empty record of the step in work. -/
def recV (step : Nat) : VerdictRec := ⟨0, step, 0, 0, false, false, 1, 0, 0, List.replicate 16 0, List.replicate 16 0⟩
/-- A contribution issued and its step closed; a record held at the primary VXCH entry 3. -/
def sVrd : State :=
  ((sEph.setVphase 1 1).setAlm 1 { sEph.almOf 1 with contrib := 1, closed := 1 }).setVrd 1 { sEph.vrdOf 1 with issued := true }
/-- The verdicts of partition 1 are on, in a group of two modules. -/
def sVgrp : State := put sEph (R.PART_VRD_CFG 1) (2 ^ F.PART_VRD_CFG_EN.2 + 2 * 2 ^ F.PART_VRD_CFG_MEMBERS.2)
def sHeld : State := atNs ((sVgrp.setVphase 1 2).setVrd 1 { sVgrp.vrdOf 1 with own := some (recV 0) }) 28000
def sRound : State := sHeld.setVrd 1 { sHeld.vrdOf 1 with rounds := [3] }
def chn : Chain := ⟨3, 0, 28000, 3, true, false, false⟩
def sChain : State := put (sHeld.setTt 1 { sHeld.ttOf 1 with chains := [chn] }) (R.HZN_PEERi_A 0 0) (7 + 2 ^ F.HZN_PEERi_A_STATE.2)

theorem wit_VerdictRecords : sVrd.sealable 1 = true ∧ sVrd.vphase 1 = 1 ∧ (sVrd.vrdOf 1).late = false ∧ sVrd.localMembers 1 = [] ∧
    (recV 0).step = sVrd.vstep 1 ∧ (recV 0).group = sVrd.vgroup 1 ∧ (recV 1).step ≠ sVrd.vstep 1 := by decide +kernel

/-- Two records of one step, sums below and at the top, a record on an open chain, and a slot that starts. -/
theorem wit_RecordCombination : (recV 0).step = (recV 0).step ∧ (recV 0).group = ({ recV 0 with verdict := 2 } : VerdictRec).group ∧
    ({ recV 0 with nsq := 2 ^ 640 - 1 } : VerdictRec).nsq + (recV 0).nsq < 2 ^ 640 ∧
    2 ^ 640 ≤ ({ recV 0 with nsq := 2 ^ 640 - 1 } : VerdictRec).nsq + ({ recV 0 with nsq := 1 } : VerdictRec).nsq ∧
    Heard sChain hdr7.sub ∧ (sChain.ttOf 1).chains.find? (fun c => c.ent = 3 && !c.got && !c.past) = some chn ∧
    sChain.chainOpen 1 chn = true ∧ sChain.clockOk = true ∧
    sChain.modId ≠ 0 ∧ sChain.rdF (peerAddr 3 (sChain.entryT 1 0 3)) F.HZN_PEERi_A_MODID = hdr7.srcMod.toNat ∧
    sChain.rdF (peerAddr 3 (sChain.entryT 1 0 3)) F.HZN_PEERi_A_STATE = peerLive ∧
    hdr7.sub = (sChain.entryT 1 0 3).subPort ∧ sChain.vphase 1 ≠ 3 ∧ (recV 0).step = sChain.vstep 1 ∧
    (recV 0).group = sChain.vgroup 1 ∧ sChain.localMembers 1 = [] ∧
    SlotNow sHeld 0 3 1 3 ∧ sHeld.lone 1 = false ∧ (sHeld.eph 0 3).action = actVxch ∧ (sHeld.eph 0 3).kind = 0 ∧
    sHeld.rdF (peerAddr 3 (sHeld.eph 0 3)) F.HZN_PEERi_A_STATE ≠ peerLostSt ∧ (sHeld.ttOf 1).chains = [] ∧
    sHeld.linkIs (sHeld.eph 0 3).subPort = true ∧
    sHeld.bumped 1 (sHeld.eph 0 3) (sHeld.entStart 1 3) = false ∧ (sHeld.vrdOf 1).own = some (recV 0) := by
  simp only [Heard, SlotNow]; decide +kernel

/-- Entry 5 a VDEADLINE, entry 6 a BARRIER of counter 7, entry 7 a LAUNCH of one cell by ELAUNCH 0. -/
def sEvt : State :=
  putE (putE (putE (put sHeld (R.PART_ELAUNCHj_0 1 0) (2 ^ F.PART_ELAUNCHj_0_COUNT.2)) 5 (eW 9000 64 actVdeadline 0 0 0x3FFF 0 0 0 0 0))
    6 (eW 9000 64 actBarrier 0 0 0x3FFF 0 0 0 0 7)) 7 (eW 9000 64 actLaunch 0 0 0x3FFF 0 0 0 0 0)
def sEvt' : State := (atNs sEvt 40000).setRun k0 stIdle 0 0

theorem wit_FinalVerdictForms : sRound.vphase 1 = 2 ∧ sRound.roundsDone 1 = true ∧ (sRound.vrdOf 1).comb = some (recV 0) ∧
    EventAlone sEvt' 0 5 1 5 ∧ (sEvt'.eph 0 5).action = actVdeadline ∧ sEvt'.vphase 1 = 2 ∧ sEvt'.lone 1 = false ∧
    (sEvt'.vrdOf 1).comb = some (recV 0) ∧ sEph.vrdEn 1 = false ∧ sHeld.vrdEn 1 = true ∧
    (recV 0).mcount ≠ sHeld.vmembers 1 := by
  simp only [EventAlone]; decide +kernel

/-- The one cell of the partition is IDLE, or runs. -/
theorem wit_EphemerisEvents : EventAlone (putE (putE sEvt' 5 0) 6 0) 0 7 1 7 ∧ EventAlone (putE sEvt' 5 0) 0 6 1 6 ∧
    (atNs sEvt 35000).nextStart 1 ((atNs sEvt 35000).ttActive 1) 0 ((atNs sEvt 35000).eph 0 7) ≤
      (atNs sEvt 35000).hnow 0 + (put sEvt (R.PART_EPH_WAKE 1) 1000).rdF (R.PART_EPH_WAKE 1) F.PART_EPH_WAKE_LEAD ∧
    ((sEvt'.launchCells 1 (sEvt'.elaunch 1 0)).map (·.1)).Nodup ∧ sEvt'.dueEntry 0 7 = some (1, 7) ∧ (sEvt'.eph 0 7).action = actLaunch ∧ sEvt'.rejoined = [] ∧
    sEvt'.clockOk = true ∧ (sEvt'.elaunch 1 0).first + (sEvt'.elaunch 1 0).count ≤ (sEvt'.owned 1).length ∧
    sEvt'.launchCells 1 (sEvt'.elaunch 1 0) = [(k0, 0)] ∧ sEvt'.runState k0 = stIdle ∧
    (atNs sEvt 40000).dueEntry 0 7 = some (1, 7) ∧ (atNs sEvt 40000).launchCells 1 ((atNs sEvt 40000).elaunch 1 0) = [(k0, 0)] ∧
    (atNs sEvt 40000).runState k0 ≠ stIdle ∧ sEvt'.dueEntry 0 6 = some (1, 6) ∧ (sEvt'.eph 0 6).action = actBarrier ∧
    (sEvt'.eph 0 6).low % 64 = 7 ∧ 7 < sEvt'.nbar 1 ∧ sEvt'.ephOwner 0 7 = some (1, sEvt'.ttActive 1, 7) ∧
    sEvt'.ttValid 1 (sEvt'.ttActive 1) = true := by
  simp only [EventAlone]; decide +kernel

/-- Management has the rights; partition 2 takes the range after partition 1's; a check in work; a switch due at once. -/
def sCap : State := put sEph (R.PART_CAP1 2) (8 * 2 ^ F.PART_CAP1_EPH.2)
def sChk : State := sEph.wrF (R.PART_TT_CTL 1) F.PART_TT_CTL_STATUS ttChecking
def sSw : State := (put sEph (R.PART_TT_CTL 1) 48).setTt 1 { sEph.ttOf 1 with sw := [(0, 0)] }

theorem wit_TimetableControl_peers : sEph.mayAccess .mgmt (R.HZN_PEERi_A 3 4095) true = true ∧
    sEph.mayAccess (.session 1) (R.HZN_PEERi_A 0 0) true = true := by decide +kernel

theorem wit_TimetableControl_writable : Writable (R.HZN_PEERi_A 0 0) 7 ∧ Writable (R.HZN_PEERi_A 0 0) 0 ∧
    Writable (R.HZN_PEERi_A 0 0 + 8) 1 ∧ Writable (R.PART_EPH_RANGEh 2 0) (BitVec.ofNat 64 (16 + 8 * 2 ^ 16)) := by
  refine ⟨writable_of _ _ ?_, writable_of _ _ ?_, writable_of _ _ ?_, writable_of _ _ ?_⟩ <;> decide +kernel

theorem wit_TimetableControl_range :
    (∀ q, q < 64 → q ≠ 2 → rangesMeet 16 16 (sCap.ephBase q 0 0) (2 * sCap.ephN q 0) = false) ∧
    (∀ i ∈ (List.range 16).map (16 + ·), (sCap.eph 0 i).action = actNone) ∧ sCap.ephN 2 0 = 0 ∧
    8 ≤ sCap.rdF (R.PART_CAP1 2) F.PART_CAP1_EPH := by decide +kernel

theorem wit_TimetableControl_switch : sEph.rdF (R.PART_TT_CTL 1) F.PART_TT_CTL_STATUS ≠ ttChecking ∧
    sChk.rdF (R.PART_TT_CTL 1) F.PART_TT_CTL_STATUS = ttChecking ∧ sSw.ttValid 1 (sSw.standby 1) = true ∧
    (0, 0) ∈ (sSw.ttOf 1).sw ∧ (0 : Nat) = sSw.ttActive 1 ∧ sSw.boundary 1 (sSw.standby 1) 0 ≤ sSw.time.ns.toNat := by decide +kernel

/-- A byte address, and a register that does not exist; a session of partition 2 has no right to partition 1's RUN_CTL; the
counter 7 is the last present, and nothing waits on it. -/
theorem wit_RegisterAccess : (BitVec.ofNat 32 R.MGMT_PWR_CFG + 4).toNat % 8 ≠ 0 ∧ regAt (R.MGMT_PWR_CFG + 0x7000) = none ∧
    (R.MGMT_PWR_CFG + 0x7000) % 8 = 0 ∧ sEph.mayAccess (.session 2) (R.PART_RUN_CTL 1) true = false ∧
    sEph.mayAccess (.session 2) (R.PART_ALM_RANGE 1) true = false ∧ (csrBlock R.MGMT_FLT_POLICY).isSome = true ∧
    R.MGMT_FLT_POLICY ∉ [R.MGMT_RST_CMD, R.MGMT_SVC_CMD, R.MGMT_FW_CTL, R.MGMT_PWR_CFG] ∧
    canWrite R.MGMT_FLT_POLICY 1 = true ∧ 7 < sEph.nbar 1 ∧ sEph.mayAccess (.session 1) (R.PART_BARk 1 7) true = true ∧
    canWrite (R.PART_BARk 1 7) 5 = true ∧ (∀ c ∈ sEph.present 1, (sEph.cell c).waitsOn 7 = false) := by decide +kernel

/-- A cell that a host stopped, and a trap that holds an event. -/
def sStop : State := sEph.setRun k0 stStopped causeHost 0

theorem wit_RunControl : sEph.mayAccess (.session 1) (R.PART_RUN_CTL 1) true = true ∧
    flag (sStop.rd (R.PART_NAN_TRAP0 1)) 63 = false ∧ sStop.resumable k0 = true ∧ k0 ∈ sStop.present 1 ∧
    sStop.mayAccess .mgmt (R.PART_RUN_CTL 1) true = true ∧ flag (sTrap.rd (R.PART_NAN_TRAP0 1)) 63 = true ∧
    sTrap.mayAccess .mgmt (R.PART_RUN_CTL 1) true = true := by decide +kernel

/-- Partition 1 may have 64 counters and the overflow mode; all its cells are IDLE; fence 3 waits for counter 7 at 0. -/
def sReg : State :=
  put (put (put (sEph.setRun k0 stIdle 0 0) (R.PART_CAP1 1) (64 * 2 ^ F.PART_CAP1_NBAR.2)) (R.PART_CAP2 1) (2 ^ 8))
    (R.PART_RFENCEk_A 1 3) (2 ^ 63 + 7 * 2 ^ 48)

theorem wit_PartitionRegisters : sReg.mayAccess (.session 1) (R.PART_NUM_MODE 1) true = true ∧
    canWrite (R.PART_NUM_MODE 1) 1 = true ∧ flag (sReg.rd (R.PART_CAP2 1)) 8 = true ∧
    sReg.mayAccess (.session 1) (R.PART_BAR_CFG 1) true = true ∧ canWrite (R.PART_BAR_CFG 1) 64 = true ∧
    fld (64 : W64) 6 0 ≤ sReg.rdF (R.PART_CAP1 1) F.PART_CAP1_NBAR ∧ (∀ k ∈ sReg.present 1, sReg.runState k = stIdle) ∧
    canWrite (R.PART_RFENCEk_A 1 15) (BitVec.ofNat 64 (2 ^ 63 + 7 * 2 ^ 48)) = true ∧ canWrite (R.PART_RFENCEk_B 1 15) 0 = true ∧
    sReg.mayAccess (.session 1) (R.PART_RFENCEk_A 1 15) true = true ∧ sReg.mayAccess (.session 1) (R.PART_RFENCEk_B 1 15) true = true ∧
    flag (sReg.rd (R.PART_RFENCEk_A 1 3)) 63 = true ∧ fld (sReg.rd (R.PART_RFENCEk_A 1 3)) 53 48 < sReg.nbar 1 ∧
    fld (sReg.rd (R.PART_RFENCEk_A 1 3)) 47 0 ≤ sReg.barVal 1 7 ∧ 16 * 1 + 3 ∉ sReg.tiers.dead := by decide +kernel

/-- Caps of partition 2 beside those of partition 1; logical cell 1 given to partition 2; register s1 of an idle cell. -/
def sMap : State := put (sReg.setRun k0 stIdle 0 0) (R.PART_CAP0 2) (2 ^ F.PART_CAP0_CELLS.2)

theorem wit_CapsAndCells : sReg.mayAccess .mgmt (capAddr 2 0) true = true ∧
    ((put sReg (R.PART_CAP2 2) 0x11).wr (capAddr 2 0) (capVal (capAddr 2 0) 1)).capsOk 2 = true ∧
    (sReg.wr (capAddr 2 0) (capVal (capAddr 2 0) 1)).capsOk 2 = false ∧
    (sReg.wr (capAddr 2 2) (capVal (capAddr 2 2) 0x11)).capsOk 2 = true ∧ fld (capVal (capAddr 2 2) 0x11) 7 4 ≠ 0 ∧
    fld (capVal (capAddr 2 2) 0x11) 2 0 ≠ 0 ∧ sMap.mayAccess .mgmt (R.PART_CELLMAPj 2 0) true = true ∧
    (∀ q, q < 64 → q ≠ 2 → sMap.rd (R.PART_CELLMAPj q 0) &&& 2 = 0) ∧
    ((sMap.wr (R.PART_CELLMAPj 2 0) 2).owned 2).length ≤ sMap.rdF (R.PART_CAP0 2) F.PART_CAP0_CELLS ∧
    (∀ k ∈ sMap.present 2 ++ (sMap.wr (R.PART_CELLMAPj 2 0) 2).present 2, sMap.runState k = stIdle) ∧
    sMap.runState k0 = stIdle ∧
    dbgSelOk (sMap.rdF (R.CELL_DBG_SEL k0) F.CELL_DBG_SEL_FILE) (sMap.rdF (R.CELL_DBG_SEL k0) F.CELL_DBG_SEL_INDEX) = true := by
  decide +kernel

/-! ## The Almanac and the Zenith units -/

/-- Partition 1 has slots 0 to 3; slot 0 is valid in E4M3 with no step open, slot 1 is not. -/
def vSlot : W64 := BitVec.ofNat 64 (2 ^ 63 + 0x10 * 2 ^ 56 + 2 ^ 44)
def sAlm : State := (put sDesc (R.PART_ALM_RANGE 1) (4 * 2 ^ 16)).wr (almAddr 0 8) vSlot
/-- The step has been contributed to and every pass of it has retired; it is closed with a verdict to come, clean or not. -/
def sOpen : State :=
  (put sAlm (R.PART_ALM_STEP 1) (2 ^ F.PART_ALM_STEP_OPEN.2)).setAlm 1
    { sAlm.almOf 1 with contrib := 1, held := [⟨0, 1, 0x3F800000, 4, 3, 2, 1⟩, ⟨0, 2, 0x40000000, 4, 3, 2, 1⟩] }
def sPend (w : W64) : State :=
  (put sAlm (R.PART_ALM_STEP 1) (2 ^ F.PART_ALM_STEP_PEND.2)).setAlm 1
    { sAlm.almOf 1 with contrib := 1, closed := 1, verdict := some w }

theorem wit_AlmanacSlotWrites : sAlm.mayAccess (.session 1) (almAddr 1 8) true = true ∧ slotFmtOk (fld vSlot 61 56) = true ∧
    fld vSlot 43 36 ≠ 0x80 ∧ sAlm.slotOwner 1 = some 1 ∧ flag (sAlm.confOf 1 1) 63 = false ∧
    flag (BitVec.ofNat 64 (vSlot.toNat &&& confMask)) 63 = true ∧
    flag (sOpen.confOf 1 0) 63 = true ∧ sOpen.almIdle 1 = false ∧ sOpen.slotOwner 0 = some 1 ∧
    sOpen.mayAccess (.session 1) (almAddr 0 8) true = true ∧ sAlm.almIdle 1 = true ∧ sAlm.slotOwner 0 = some 1 ∧
    slotFmtOk (fld (BitVec.ofNat 64 (0x10 * 2 ^ 56)) 61 56) = true ∧ sAlm.slotOwner 3 = some 1 ∧ sAlm.slotOwner 4 = none := by
  decide +kernel

/-- Partition 2 takes the slots from 4 to the last. -/
theorem wit_AlmanacSlotWrites_range : sAlm.mayAccess .mgmt (R.PART_ALM_RANGE 2) true = true ∧
    canWrite (R.PART_ALM_RANGE 2) (BitVec.ofNat 64 (4 + 16380 * 2 ^ 16)) = true ∧ 4 + 16380 ≤ 16384 ∧
    (∀ q, q < 64 → q ≠ 2 → sAlm.almCount q ≠ 0 → 16380 ≠ 0 → 4 + 16380 ≤ sAlm.almBase q ∨ sAlm.almBase q + sAlm.almCount q ≤ 4) ∧
    sAlm.almCount 2 = 0 ∧ (∀ x ∈ sAlm.csr, x.1 < almAddr 4 0 ∨ almAddr 16383 15 < x.1 ∨ x.2 = 0) := by decide +kernel

theorem wit_AlmanacClose : (sOpen.almOf 1).closed < (sOpen.almOf 1).contrib ∧ (sOpen.almOf 1).closed = (sOpen.almOf 1).ended ∧
    sOpen.passesIn 1 = true ∧ (∀ r ∈ (sOpen.almOf 1).held, r.slot < 16384) ∧
    sOpen.almBase 1 + sOpen.almCount 1 ≤ 16384 ∧ sOpen.validSlots 1 = [0] := by
  decide +kernel

/-- The close gives the counts the reports held for the next step, and keeps those of a later one (R171, R172). -/
theorem test_almanac_close_held : let t := nx (exec (.almanacClose 1) sOpen)
    (fld (t.slotW 0 10) 63 32, fld (t.slotW 0 12) 63 24, (t.almOf 1).held.length, (t.almOf 1).closed) =
    (0x3F800000, 4, 1, 1) := by decide +kernel

theorem wit_AlmanacStepEnd : ((sPend 8).almOf 1).verdict = some 8 ∧ ((sPend 8).almOf 1).ended < ((sPend 8).almOf 1).closed ∧
    ((sPend 8).almOf 1).op = 0 ∧ wordDiscard 8 = true ∧ ((sPend 1).almOf 1).conf = [] ∧ wordDiscard 1 = false ∧
    (sPend 1).rdF (R.PART_ALM_STEP 1) F.PART_ALM_STEP_STORM = 0 ∧ (sPend 1).almBase 1 + (sPend 1).almCount 1 ≤ 16384 := by
  decide +kernel

/-- An image of one slot at the start of page 1, and no image; a save asked for, and a restore. -/
def imgBytes : List Byte := leBytes 4 0x4E4D4C41 ++ leBytes 2 1 ++ leBytes 2 1 ++ leBytes 4 (crc32c (List.replicate 128 0))
def sCkpt (op : Nat) (bs : List Byte) : State :=
  let s := (put sAlm (R.PART_ALM_CKPT_ADDR 1) 0x10000).setAlm 1 { sAlm.almOf 1 with op := op }
  { s with bytes := ((List.range bs.length).zip bs).foldl (fun b x => SMap.set b 0 (locCell k0 0 * 65536 + x.1) x.2) [] }

theorem wit_AlmanacCheckpoints_save : sAlm.mayAccess (.session 1) (R.PART_ALM_CKPT 1) true = true ∧
    sAlm.rdF (R.PART_ALM_CKPT 1) F.PART_ALM_CKPT_STATUS ≠ 1 ∧
    (put sAlm (R.PART_ALM_CKPT 1) (2 ^ F.PART_ALM_CKPT_STATUS.2)).rdF (R.PART_ALM_CKPT 1) F.PART_ALM_CKPT_STATUS = 1 ∧
    (sCkpt 1 []).almIdle 1 = true ∧ ((sCkpt 1 []).almOf 1).op = 1 ∧ ((sCkpt 1 []).almImage 1).length = 640 ∧
    (sCkpt 1 []).runsOk 1 [(0x10000, 640)] = true ∧ (sCkpt 1 []).ckptAddr 1 = 0x10000 ∧
    (((sCkpt 1 []).setAlm 1 { (sCkpt 1 []).almOf 1 with op := 0 }).allocateAll .host 1 (runPages (0x10000, 640))).isSome = true := by
  decide +kernel

theorem wit_AlmanacCheckpoints_calm : Calm (sCkpt 1 []) 1 [(0x10000, 640)] ∧ Calm (sCkpt 2 []) 1 [] := by
  refine ⟨calm_of _ _ _ ?_, calm_of _ _ _ ?_⟩ <;> decide +kernel

theorem wit_AlmanacCheckpoints_restore : ImageGood (sCkpt 2 imgBytes) 1 ∧ (sCkpt 2 imgBytes).almIdle 1 = true ∧
    ((sCkpt 2 imgBytes).almOf 1).op = 2 ∧ (sCkpt 2 imgBytes).almBase 1 + (sCkpt 2 imgBytes).almCount 1 ≤ 16384 ∧
    leNat ((imageHead (sCkpt 2 []) 1).take 4) ≠ 0x4E4D4C41 := by
  refine ⟨⟨?_, ?_, ?_, ?_, ?_, ?_⟩, ?_, ?_, ?_, ?_⟩ <;> decide +kernel

/-- Entry 0 of partition 1 is valid with FP32 streams of 1,024 elements on page 1; it is in work in pass one, in a slice of the
partition. -/
def zEnt (valid : Nat) : Nat :=
  valid * 2 ^ 63 + fmtFP32 * 2 ^ 54 + fmtFP32 * 2 ^ 48 + fmtFP32 * 2 ^ 42 + 0x3F * 2 ^ 36 + 1024
def sDir (valid : Nat) : State :=
  put (put (put (put (put (put sDesc (R.PART_ZEN_RANGE 1) (4 * 2 ^ 16)) (zdirAddr 0 0) (zEnt valid)) (zdirAddr 0 1) 0x10000)
    (zdirAddr 0 2) 0x11000) (zdirAddr 0 3) 0x12000) (zdirAddr 0 4) 0x13000
def blk0 : ZBlk := ⟨0, 0, none, none⟩
def sZen : State :=
  { (sDir 1).setZr 0 1 { ZRun.idle with pass := 1, blk := some blk0, done := false } with
    zslice := [(0, { ZSlice.reset with cur := some 1 })] }
def withZ (s : State) (r : RegFile) : State := s.setCtx z0 { s.ctx z0 with regs := r }

theorem z_ready (s : State) (i : Instr) (ss ps : List Nat) (hr : s.running z0 = true) (hp : (s.ctx z0).pendS = [])
    (hq : (s.ctx z0).pendP = [] ∧ (s.ctx z0).held = none) (h7 : ((s.ctx z0).regs.getP 7 != false) = true)
    (h : performed z0 i = true) (hu : (s.ctx z0).queue .zen = []) : Ready s z0 pT .zen i ss ps :=
  ⟨⟨hr, fun j hj => by simp [hq.2] at hj, by simp [hq.1], h7, h, fun n _ => by simp [hp], fun n _ => by simp [hq.1]⟩, hu⟩

theorem sZen_ready (i : Instr) (ss ps : List Nat) (h : performed z0 i = true) : Ready sZen z0 pT .zen i ss ps :=
  z_ready _ _ _ _ (by decide +kernel) (by decide +kernel) (by decide +kernel) (by decide +kernel) h (by decide +kernel)

def iZld : Instr := .zenLd z0 pT { fmtV0 with td := 7, strm := 3 }
def iZst : Instr := .zenSt z0 pT { fmtV0 with ta := 7, strm := 2 }

theorem wit_ZenithLoadStore : Ready sZen z0 pT .zen iZld [0] [] ∧ sZen.zcur z0 = some blk0 ∧ sZen.zhas 0 3 = true ∧
    sZen.runsOk 1 [zruns sZen (sZen.tabs z0) blk0 3 0] = true ∧ Ready sZen z0 pT .zen iZst [0] [] ∧ sZen.zhas 0 2 = true ∧
    zscales sZen blk0 2 0 (zn sZen blk0 0) = [] ∧
    ((entered sZen z0 .zen iZst).allocateAll (writerOf z0) 1 (pagesOf [zruns sZen (sZen.tabs z0) blk0 2 0])).isSome = true ∧
    sZen.runsOk 1 [zruns sZen (sZen.tabs z0) blk0 2 0] = true := by
  refine ⟨sZen_ready _ _ _ ?_, ?_, ?_, ?_, sZen_ready _ _ _ ?_, ?_, ?_, ?_, ?_⟩ <;> decide +kernel

theorem wit_ZenithLoadStore_calm : Calm (entered sZen z0 .zen iZld) 1 [] ∧
    Calm (entered sZen z0 .zen iZst) 1 [zruns sZen (sZen.tabs z0) blk0 2 0] ∧ zwhole sZen blk0 2 0 1024 := by
  refine ⟨calm_of _ _ _ ?_, calm_of _ _ _ ?_, Or.inl ?_⟩ <;> decide +kernel

theorem wit_ZenithBlockInstructions : sZen.zfrozen blk0.entry = false ∧ (sZen.ctx z0).queue .zen = [] ∧
    (put sZen (zdirAddr 0 0) (zEnt 1 + 2 ^ 62)).zfrozen blk0.entry = true ∧ Ready sZen z0 pT .zen (.zenSetsc z0 pT { fmtV0 with strm := 1 }) [0] [] ∧ sZen.zhas 0 1 = true ∧
    Ready sZen z0 pT .zen (.zenNsq z0 pT { fmtV0 with ta := 7 }) [] [] ∧ (sZen.zr 0 1).pass ≠ 2 ∧
    Ready sZen z0 pT .zen (.zenAmax z0 pT { fmtV0 with ta := 7, rs := 5 }) [5] [] ∧
    Ready sZen z0 pT .zen (.zenSgn z0 pT { fmtV0 with td := 7 }) [] [] ∧
    Ready sZen z0 pT .zen (.zenNext z0 pT fmtV0) [] [] ∧ blk0.entry < 32768 ∧ (sZen.ctx z0).flight = [] := by
  refine ⟨?_, ?_, ?_, sZen_ready _ _ _ ?_, ?_, sZen_ready _ _ _ ?_, ?_, sZen_ready _ _ _ ?_, sZen_ready _ _ _ ?_, sZen_ready _ _ _ ?_, ?_, ?_⟩ <;>
    decide +kernel

/-- One 4 × 4 matrix on page 1, its factors on page 2, and the lift 1. -/
def sLdl : State :=
  withZ sZen (((RegFile.reset.setD 0 (mkD 0x14000 fmtFP32 0 4 4 0 16)).setD 1 (mkD 0x20000 fmtFP32 0 4 4 0 16)).setS 5 0x3F800000)
def fLdl : FmtV := { fmtV0 with ds := 0, dt := 1, rs := 5, tx := 7, pd := 1 }
def iLdl : Instr := .zenLdlt z0 pT fLdl

theorem wit_ZenithFactorisation : Ready sLdl z0 pT .zen iLdl [5] [1, 6] ∧
    (entered sLdl z0 .zen iLdl).ldltFail z0 (sLdl.newJob z0 .zen iLdl) fLdl = none ∧
    ((((entered sLdl z0 .zen iLdl).unitRead z0 ((dsc sLdl z0 0).runs (sLdl.tabs z0))).1).allocateAll (writerOf z0) 1
      (pagesOf ((dsc sLdl z0 1).runs (sLdl.tabs z0)))).isSome = true := by
  refine ⟨z_ready _ _ _ _ ?_ ?_ ?_ ?_ ?_ ?_, ?_, ?_⟩ <;> decide +kernel

/-- Partition 1's passes: one to start, one to end, the final verdict clean and not, and the clearing. -/
def sZph (z v : Nat) : State := (put (sDir 1) (R.PART_ZEN_CTL 1) (2 ^ F.PART_ZEN_CTL_EN.2)).wrF (R.PART_ZEN_STAT 1) F.PART_ZEN_STAT_PHASE z
  |>.setVphase 1 v

def sZiss : State := (sZph 0 1).setVrd 1 { VrdSt.reset with issued := true }

theorem wit_ZenithPhases_calm : Calm (sZph 4 3) 1 [] := calm_of _ _ _ (by decide +kernel)

theorem wit_ZenithPhases : sZen.zpending 0 1 = true ∧ (sZen.slice 0).idx = 0 ∧
    sZiss.zenEn 1 = true ∧ sZiss.zphase 1 = 0 ∧ (sZiss.vrdOf 1).issued = true ∧ (sZiss.vrdOf 1).oneDone = false ∧
    (sZiss.vrdOf 1).sealed = false ∧
    (sZph 1 1).zphase 1 = 1 ∧ (sZph 1 1).zallDone 1 = true ∧ (sZph 2 3).zphase 1 = 2 ∧ (sZph 2 3).vphase 1 = 3 ∧
    ((sZph 2 3).vrdOf 1).clean = false ∧ (((sZph 2 3).setVrd 1 { VrdSt.reset with clean := true }).vrdOf 1).clean = true ∧
    (sZph 3 3).zphase 1 = 3 ∧ (sZph 3 3).zallDone 1 = true ∧ (sZph 4 3).zphase 1 = 4 ∧ (sZph 4 3).zValid 1 = [0] ∧
    (∀ pg ∈ runPages ((sZph 4 3).gStream 0), (sZph 4 3).isFree pg = false) ∧
    (sZph 4 3).rdF (R.PART_ZEN_CTL 1) F.PART_ZEN_CTL_DONE_BAR < (sZph 4 3).nbar 1 := by decide +kernel

/-- A bind asked for, of an entry that is not valid yet. -/
def sBind : State := put (sDir 0) (R.PART_ZEN_BIND 1) (2 ^ 62)

theorem wit_ZenithDirectory : (sDir 1).mayAccess .mgmt (R.PART_ZEN_RANGE 2) true = true ∧
    canWrite (R.PART_ZEN_RANGE 2) (BitVec.ofNat 64 (4 + 32764 * 2 ^ 16)) = true ∧ (sDir 1).zphase 2 = 0 ∧
    (∀ q, q < 64 → q ≠ 2 → numsMeet 4 32764 (fld ((sDir 1).rd (R.PART_ZEN_RANGE q)) 14 0) (fld ((sDir 1).rd (R.PART_ZEN_RANGE q)) 31 16) = false) ∧
    (sDir 0).mayAccess (.session 1) (zdirAddr 0 0) true = true ∧ (sDir 0).entryOwner 0 = some 1 ∧ (sDir 0).entryOwner 4 = none ∧
    (sDir 0).bindState 1 ≠ 1 ∧ flag ((sDir 0).zconf 0) 63 = false ∧ (sDir 0).zphase 1 = 0 ∧
    sBind.bindState 1 = 1 ∧ (∀ x ∈ sBind.net.sess, x.2.all (·.bind.isNone) = true) ∧
    sBind.mayAccess (.session 1) (R.PART_VRD_OWN 1) true = true ∧ sBind.mayAccess (.session 1) (R.PART_VRD_UNC 1) true = true := by
  decide +kernel

/-! ## Pages, SRAM, stacks, Span links and Ethernet ports -/

/-- Page 1 is to follow logical cell 1, which cell 0.1 backs; the same without a token. -/
def rq : MoveReq := ⟨1, 1, false⟩
def sReq : State := { sTwo with tiers := { sTwo.tiers with reqs := [(0, [rq])] } }
def sNoTok : State := put sReq (R.PART_TIER_QUOTA 1) 0
/-- Page 1 in COPY and in SWITCH to frame 0 of cell 0.1; its old frame forwarding; a claimed frame. -/
def sMove (st : PageState) : State := sTwo.setEnt 1 ⟨st, 1, false, false, 65535, locCell k0 0, locCell ⟨0, 1⟩ 0⟩
def sFwd : State := { sTwo with tiers := { sTwo.tiers with fwds := [⟨1, locCell k0 5, 1, 0⟩], claims := [⟨locCell k0 6, 1⟩] } }

theorem wit_PageMoves : SMap.get sReq.tiers.reqs [] 0 = [rq] ∧ sReq.movesOf 0 < 16 ∧ (sReq.ent 1).st = .homed ∧
    (sReq.ent 1).pin = false ∧ sReq.homedAt 1 1 = false ∧ sReq.inMove 1 = false ∧ locDie (sReq.ent 1).home = 0 ∧
    sReq.moveDest 1 1 = some (locCell ⟨0, 1⟩ 0) ∧ locDie (locCell ⟨0, 1⟩ 0) = 0 ∧ sNoTok.moveDest 1 1 = none ∧
    ((sMove .copy).ent 1).st = .copy ∧ ((sMove .switch).ent 1).st = .switch ∧
    ((sMove .switch).ent 1).home ≠ ((sMove .switch).ent 1).dest ∧ Memory.wf (sMove .switch).bytes = true ∧
    (sFwd.tiers.fwds.find? fun f => f.page = 1) = some ⟨1, locCell k0 5, 1, 0⟩ ∧
    (sFwd.tiers.claims.find? fun f => f.frame = locCell k0 6) = some ⟨locCell k0 6, 1⟩ := by decide +kernel

theorem wit_PageMoves_sound : Sound sReq ∧ Memory.wf sReq.bytes = true ∧ Sound (sMove .copy) ∧ Memory.wf (sMove .copy).bytes = true ∧
    Sound (sMove .switch) := by
  refine ⟨sound_of _ ?_, ?_, sound_of _ ?_, ?_, sound_of _ ?_⟩ <;> decide +kernel

/-- Logical cell 1 has written all of page 1 in this window. -/
def sWin : State := { sTwo with tiers := { sTwo.tiers with wbytes := [(1, [(1, 65536)])], hcache := [(1, [1])] } }

theorem wit_PageMoves_place : fld (sWin.tierCfg 1) 1 0 = 0 ∧ sWin.windowOf 0 1 1 = true ∧ sWin.inHomeCache 0 1 = true ∧ PageHere sWin 0 1 1 = true ∧
    sWin.placeMove (sWin.tierCfg 1) 1 [(1, 65536)] = true ∧ sWin.inMove 1 = false := by decide +kernel

/-- A tester that waits, one at the last row of the last bank's rows, one at a spare. -/
def sPwr : State := { put sTwo (R.CELL_BIST_CTL k0) (2 ^ F.CELL_BIST_CTL_EN.2) with pwr := { Pwr.reset with ok := true } }
def sTest (row : Nat) : State := sTwo.setCell k0 { sTwo.cell k0 with tester := ⟨true, 47, row, true, true, 0xFF⟩ }

theorem wit_SramTester : (sPwr.cell k0).tester.busy = false ∧ sPwr.rdF (R.CELL_BIST_CTL k0) F.CELL_BIST_CTL_EN = 1 ∧
    sPwr.pwr.ok = true ∧ ((sTest 255).cell k0).tester.busy = true ∧ (sTest 255).ue = [] ∧ (sTest 255).ce = [] ∧
    (sTest 255).replacing k0 47 255 = none ∧ (sTest 255).freeSpare k0 47 = some 0 ∧ (sTest 254).testNext k0 47 254 = some (47, 255) ∧
    ((sTest 263).cell k0).tester.row = 263 ∧ dualPort 0xBFFFF = true ∧ dualPort 0xC0000 = false := by decide +kernel

/-- The first row of bank 0 holds a word with one wrong bit and one that cannot be corrected: the save phase counts one of each (R346,
R349). -/
def kRow (w : Nat) : Nat := locCell k0 0 * 8192 + w
def sRowErr : State := { sPwr with ce := [(kRow 0, 0)], ue := [kRow 1] }

theorem test_bist_errors : keyInRow k0 0 0 (kRow 0) = true ∧ keyInRow k0 0 0 (kRow 1) = true ∧ keyInRow k0 0 1 (kRow 1) = false ∧
    let t := nx (exec (.bistRowStart k0) sRowErr)
    t.rd (R.CELL_ECC_CE_CNT k0) = 1 ∧ t.rd (R.CELL_ECC_UE_CNT k0) = 1 ∧ t.ce = [] ∧ t.fsrPend.length = 1 := by decide +kernel

/-- A stack whose logical channels are its first 128; a remap of channel 127 that copies. -/
def sMapped : State := (List.range 16).foldl
  (fun s j => put s (R.STK_CHMAPj 31 j) ((List.range 8).map fun i => (8 * j + i) * 2 ^ (8 * i)).sum) sTwo
def sCopy : State := nx (exec (.stkRemapGo .mgmt 31 127) sMapped)

theorem wit_StackRepair : sTwo.remapSt 31 ≠ remapCopying ∧ sTwo.spareIn 31 0 = some 0 ∧ sCopy.remapSt 31 = remapCopying ∧
    sCopy.spareIn 31 2 = some 0 := by decide +kernel

/-- A line that is known to hold an error that a read can correct, and one that cannot be corrected. -/
def sLines : State := { sTwo with ce := [(stackLineKey 31 0, 3)], ue := [stackLineKey 31 1] }

theorem wit_StackRepair_scrub : (∃ x ∈ sLines.ce, markKey x.1 = stackLineKey 31 0) ∧ (∀ k ∈ sLines.ue, markKey k ≠ stackLineKey 31 0) ∧
    (∃ k ∈ sLines.ue, markKey k = stackLineKey 31 1) ∧ (∀ k ∈ sLines.ue, markKey k ≠ stackLineKey 31 2) ∧
    (∀ x ∈ sLines.ce, markKey x.1 ≠ stackLineKey 31 2) ∧ sTwo.mgmtUp = true := by decide +kernel

theorem wit_StackRepair_map : MapGood sCopy 31 := by unfold MapGood; decide +kernel

/-- The link of port 0 of die 0 is up, or trains; a flit of each type, and one with a wrong CRC. -/
def sp0 : SpanPort := .die 0 0
def sUp : State := sTwo.wrF (spanStat sp0) F.DIE_SPAN_STATp_STATE linkUp
def sTrain (bad : List Nat) : State :=
  (sTwo.wrF (spanStat sp0) F.DIE_SPAN_STATp_STATE linkTraining).setSpn sp0 { sTwo.spn sp0 with tx := ⟨bad⟩ }
def flit (ty : Nat) : Flit := stampFlit ⟨BitVec.ofNat 64 (ty * 2 ^ 60), List.replicate 64 0⟩ 0

theorem wit_SpanLinks : sUp.linkSt sp0 = linkUp ∧ flitGood ⟨1, List.replicate 64 0⟩ = false ∧
    (∀ ty ∈ [0, 1, 2, 3], flitGood (flit ty) = true ∧ flitType (flit ty) = ty) ∧ flitSeq (flit 0) = (sUp.spn sp0).rxSeq ∧
    (sTrain []).linkSt sp0 = linkTraining ∧ (sTrain []).lanesUp sp0 true = 64 ∧ (sTrain []).lanesUp sp0 false = 64 ∧
    (sTrain (List.range 33)).lanesUp sp0 true = 31 := by decide +kernel

/-- The sixteenth NAK within 1 µs, and the second. -/
def sNaks (n : Nat) : State := sUp.setSpn sp0 { sUp.spn sp0 with naks := List.replicate n 0 }

theorem wit_SpanLinks_naks : ∀ n ∈ [1, 15], (sNaks n).linkSt sp0 = linkUp ∧
    (((sNaks n).time.ns.toNat :: ((sNaks n).spn sp0).naks.filter fun m => decide ((sNaks n).time.ns.toNat < m + 1000)).length < 16 ↔
      n = 1) := by decide +kernel

/-- The two ports of a link name each other (R358): the die at the west edge of row 1 and port 1 of Horizon die 3. -/
theorem test_span_peers : ∀ d ∈ List.finRange 16, ∀ p ∈ List.finRange 4, spanPeer (spanPeer (.die d p)) = .die d p ∧
    spanPeer (.die d p) ≠ .die d p := by decide +kernel

/-- Sub-port 0 is enabled in a READY module, with addresses and with link up. -/
def sReady : State :=
  put (put (put sEph (R.HZN_ETH_CFGq 0 0) 1) (R.HZN_ETH_IP6Hqk 0 0 0) 1)
    (R.HZN_ETH_IP4qk 0 0 0) 0x0A000001

theorem wit_EthernetPorts : sReady.subEnabled sub0 = true ∧ phCells ≤ sReady.phase ∧ sReady.phase ≤ phReady ∧
    sReady.net.stage = [] ∧ canWrite (R.HZN_ETH_CFGq 0 0) 0 = true ∧ canWrite (R.HZN_ETH_CFGq 0 0) 1 = true ∧
    sReady.linkIs sub0 = true ∧ sReady.ownIp sub0 ⟨false, 0, 0x0A000001⟩ = true ∧ sReady.ownIp sub0 ⟨true, 1, 0⟩ = true ∧
    astpGood 100 (List.replicate 32 0) = false ∧ sReady.phase = 9 ∧ sReady.mgmtUp = true ∧ sReady.net.wait = [] ∧
    sReady.vlanOk sub0 5 = false ∧ sReady.listens 1 = false ∧ sReady.listens 4791 = true := by decide +kernel

/-- The contact HS3-117 carries the positive receive signal of lane 6 of port 13, of sub-port 13.1 in mode 1 and 13.3 in mode 2 (R488). -/
theorem test_contact : hsContact 3 117 = (some (13, 6), .rxPos) ∧ laneSub 1 6 = 1 ∧ laneSub 2 6 = 3 := by decide +kernel

/-! ## ASTP, RoCEv2 and PTP -/

/-- Sessions 5 and 6 of partition 1 in a READY module; the next request of each. -/
def ipH : IpAddr := ⟨false, 0, 0x0A000002⟩
def ses (q : List TxFrame) : Session := ⟨1, ipH, 5000, sub0, 0, 0, 0, 1, 16, q, [], false, 0, none, []⟩
def sSess : State :=
  ((put (put sReady (R.PART_ZEN_RANGE 1) (4 * 2 ^ 16)) (R.PART_HOSTk_A 1 3) (2 ^ 63 + 32 * 2 ^ 32 + 0x0A000002)).setSession 5
    (some (ses []))).setSession 6 (some (ses []))
def hd (n : Nat) : AstpHdr := ⟨sub0, ipH, 5000, n, 1, 1, 1, 0, 16, 7, 0, [8], 0⟩
/-- A RESP frame not acknowledged, sent for the `k`th time. -/
def txf (k : Nat) : TxFrame := ⟨1, 7, true, true, 0, 0, false, 0, [], 0, some k⟩
def sTx (k : Nat) : State := sSess.setSession 5 (some (ses [txf k]))

/-- The header of a request whose frames carry `n` payload bytes, or bytes that must be 0 and are not. -/
def hdL (n : Nat) : AstpHdr := { hd 5 with lens := [n] }

theorem wit_AstpSessions_lengths : (∀ n ∈ [0, 8, 16, 17, 32, 104], hdrLenOk (hdL n) n = true ∧ hdrLenOk { hdL n with mbz := 1 } n = false) ∧
    (∀ c ∈ astpCmds, hdrLenOk (hdL 7) c.2 = false) ∧ (sSess.ent 0).st ≠ .switch ∧ NamesSession sSess (hdL 0) (ses []) ∧
    NamesSession sSess { hdL 0 with part := 2 } (ses []) ∧ (ses []).part ≠ ({ hdL 0 with part := 2 } : AstpHdr).part := by
  refine ⟨?_, ?_, ?_, ⟨⟨?_, ?_⟩, ?_, ?_, ?_⟩, ⟨⟨?_, ?_⟩, ?_, ?_, ?_⟩, ?_⟩ <;> decide +kernel

theorem wit_InSession : InSession sSess (hd 5) (ses []) := by
  refine ⟨⟨⟨?_, ?_⟩, ?_, ?_, ?_⟩, ?_, ?_, ?_, ?_, ?_, ?_⟩ <;> decide +kernel

theorem wit_AstpSessions : sSess.session 5 = some (ses []) ∧ (ses []).queue = [] ∧ sSess.linkIs sub0 = true ∧ sSess.phase = 9 ∧
    sSess.session 65535 = none ∧ sSess.net.sess.length < 256 ∧ (hd 65535).seq = 1 ∧
    (∃ k, k < 4 ∧ sSess.hostMatch 1 k ipH = true) ∧ (sTx 15).session 5 = some (ses [txf 15]) ∧
    (sTx 16).session 5 = some (ses [txf 16]) ∧ ((ses [txf 15]).queue.find? fun f => f.seq = 1) = some (txf 15) ∧
    sSess.time.ns.toNat < (txf 15).at_ + sSess.rto 15 ∧
    (txf 16).at_ + (sTx 16).rto 16 ≤ (atNs sSess 10000000000000).time.ns.toNat ∧
    (ses []).heard + (atNs sSess 10000000000000).rdF R.PANEL_ASTP_CFG F.PANEL_ASTP_CFG_STMO * 10 ^ 9 ≤
      (atNs sSess 10000000000000).time.ns.toNat := by decide +kernel

/-- A request of partition 2 in a session of partition 1. -/
theorem wit_AstpSessions_rights : InSession sSess { ({ hd 5 with part := 2 } : AstpHdr) with part := 1 } (ses []) ∧
    ({ hd 5 with part := 2 } : AstpHdr).part ≠ 1 := by
  refine ⟨⟨⟨⟨?_, ?_⟩, ?_, ?_, ?_⟩, ?_, ?_, ?_, ?_, ?_, ?_⟩, ?_⟩ <;> decide +kernel

def eS : State := enter sSess (hd 5) (ses [])
/-- A fence over page 2 that has not passed. -/
def sGate : State := put (put sSess (R.PART_RFENCEk_A 1 0) (2 ^ 63 + 5)) (R.PART_RFENCEk_B 1 0) (2 + 2 ^ 32)

theorem wit_AstpRequests : R.PANEL_ID % 8 = 0 ∧ eS.mayAccess (.session 1) R.PANEL_ID false = true ∧
    canWrite (R.PART_ZEN_SEED 1) 9 = true ∧ sSess.zphase 1 = 0 ∧
    eS.hostRights 1 0x3FFFFFF 1 = true ∧ eS.hostRights 1 0x4000000 1 = false ∧
    (eS.allocateAll .host 1 (runPages (0x40000, 3))).isSome = true ∧ peekOk 0x10000 65536 = true ∧
    runPages (0x10000, 65536) = [1] ∧ eS.gated 1 1 = false ∧ sSess.isFree 1 = false ∧ sSess.inMove 1 = false ∧
    (enter sGate (hd 5) (ses [])).gated 1 2 = true ∧ sSess.isFree 4 = true ∧ eS.gated 1 4 = false := by decide +kernel

theorem wit_AstpRequests_calm : Calm eS 1 [(0x40000, 3)] := calm_of _ _ _ (by decide +kernel)

/-- A launch of the one cell, IDLE or running; a bind of an entry; two writes of one byte in one message time. -/
def lMsg : LaunchMsg := ⟨0, 1, 0x10000, 16, 5⟩
def bindW : List W64 := BitVec.ofNat 64 (zEnt 1) :: [0x10000, 0x11000, 0x12000, 0x13000] ++ List.replicate 7 0

theorem wit_AstpRequests_launch : lMsg.pcstride.toNat % 16 = 0 ∧ lMsg.pc.toNat < 2 ^ 48 ∧
    (launchOf lMsg).first + (launchOf lMsg).count ≤ (sSess.owned 1).length ∧
    sSess.launchCells 1 (launchOf lMsg) = [(k0, 0)] ∧ sSess.runState k0 ≠ stIdle ∧
    (sSess.setRun k0 stIdle 0 0).runState k0 = stIdle ∧ bindW.length = 12 ∧ (eS.bindWrites 1 3 bindW).2 = 0 ∧
    (eS.bindWrites 1 3 bindW).1.bindState 1 = 1 ∧ namesReserved (zdirAddr 3 0) (bindW.getD 11 0) = false ∧
    ((sSess.launchCells 1 (launchOf lMsg)).map (·.1)).Nodup ∧ (sSess.takeIn (hd 5)).2 = true ∧
    namesReserved (zdirAddr 3 0) (BitVec.ofNat 64 (0x30 * 2 ^ 54)) = true := by decide +kernel

theorem wit_AstpRequests_conflict : (hd 5).session < (hd 6).session ∧
    InSession (sSess.performReq (.write (hd 5) 0x40000 [1])) (hd 6) (ses []) := by
  refine ⟨?_, ⟨⟨?_, ?_⟩, ?_, ?_, ?_⟩, ?_, ?_, ?_, ?_, ?_, ?_⟩ <;> decide +kernel

/-- Queue pair 1,023 of partition 1 in RTS with a ring of one slot at page 3, and a region of pages 1 to 3 with both rights. -/
def sRoce : State :=
  put (put (put (put (put (put (put sSess (R.HZN_ETH_CFGq 0 0) (1 + 2 ^ F.HZN_ETH_CFGq_ROCE.2)) (qpAddr 1023 0) (2 ^ 62 + 2 ^ 56))
    (qpAddr 1023 3) 0x30000) (qpAddr 1023 4) 1) (mrAddr 4095 0) (2 ^ 62 + 2 ^ 56 + 3 * 2 ^ 54)) (mrAddr 4095 1) 0x10000)
    (mrAddr 4095 2) 0x30000

theorem wit_RoceResults : RoceReaches sRoce sub0 1023 ∧ sRoce.psnPlace 1023 0 = 0 ∧ sRoce.psnPlace 1023 0xFFFFFF = 1 ∧
    sRoce.keyOk 1023 4095 0x3FFFF 1 0 = true ∧ sRoce.keyOk 1023 4095 0x3FFFF 1 1 = true ∧ sRoce.keyOk 1023 4095 0x40000 1 0 = false ∧
    sRoce.hostCheck 1 0x3FFFF 1 = 0 ∧ sRoce.qpPart 1023 = 1 ∧ sRoce.ringFree 1023 = 1 ∧ sRoce.qpMtu 1023 = 1024 := by
  refine ⟨⟨?_, ?_, ?_, ?_⟩, ?_, ?_, ?_, ?_, ?_, ?_, ?_, ?_, ?_⟩ <;> decide +kernel

theorem wit_RoceResults_homed : HomedRange sRoce 1 0x3FFFF 1 ∧ HomedRange sRoce 1 0x30000 1024 ∧ Calm sRoce 1 [(0x30000, 1024)] := by
  refine ⟨?_, ?_, calm_of _ _ _ (by decide +kernel)⟩
  · unfold HomedRange; decide +kernel
  · unfold HomedRange; decide +kernel

theorem wit_RoceResults_free : QpFree sRoce 1023 := ⟨by decide +kernel, unmoved_of _ (by decide +kernel)⟩

/-- The page of a read moves. -/
theorem wit_RoceResults_held : (sRoce.setEnt 3 { sRoce.ent 3 with st := .switch }).hostHeld 0x30000 16 = true := by decide +kernel

theorem wit_RoceResults_tables : sRoce.mayAccess .mgmt (qpAddr 5 4) true = true ∧ canWrite (qpAddr 5 4) 1 = true ∧
    (put sRoce (R.PART_CAP1 1) (8 * 2 ^ F.PART_CAP1_QP.2 + 8 * 2 ^ F.PART_CAP1_MR.2)).mayAccess (.session 1) (qpAddr 5 0) true = true ∧
    canWrite (qpAddr 5 0) (BitVec.ofNat 64 (2 ^ 62)) = true ∧ fld (sRoce.rd (qpAddr 5 0)) 63 62 = 0 ∧
    fld (putVal (qpAddr 5 0) 0 (BitVec.ofNat 64 (2 ^ 62))) 63 62 ≠ 0 ∧ sRoce.rocOwned (fun k => qpAddr k 0) 1024 1 = 1 ∧
    canWrite (mrAddr 7 1) 0x10000 = true ∧ fld (sRoce.rd (mrAddr 7 0)) 63 62 ≠ 1 ∧
    canWrite (mrAddr 7 0) (BitVec.ofNat 64 (2 ^ 62 + 2 ^ 54)) = true ∧ sRoce.regionOk 1 0 0 = true ∧
    fld (putVal (mrAddr 7 0) 0 (BitVec.ofNat 64 (2 ^ 62 + 2 ^ 54))) 63 62 = 1 ∧ sRoce.rocOwned (fun k => mrAddr k 0) 4096 1 = 1 := by
  decide +kernel

/-! ## The clock and the Parallax check -/

/-- The sub-port 0 of port 0 is a PTP port; a source of it is selected or not; the clock has a state. -/
def ann (g : Nat) (st : Nat) : Announce := ⟨sub0, 0, 0, 128, 248, 0xFE, 0xFFFF, 128, BitVec.ofNat 64 g, st, 5, 1, 0⟩
def annB : Announce := { ann 9 0 with sub := ⟨3, 7, 0⟩ }
def sMer (src : Option Announce) (m : Nat) : State :=
  let s := put (put (put sReady (R.HZN_ETH_CFGq 0 0) 1) (R.HZN_ETH_CFGq 3 7) 1) R.PANEL_PTP_CFG (2 ^ 31 + 1)
  { s.setMer m with ptp := { PtpSt.reset with source := src } }
def sMerN (m g b : Nat) : State := (sMer (some (ann 7 0)) m).setOffs g b

theorem wit_MeridianClock : (sMer none 0).ptpPort sub0 = true ∧ (sMer none 0).ptpPort ⟨3, 7, 0⟩ = true ∧
    (sMer none 0).ptpMine 0 0 = true ∧ (ann 7 254).steps < 255 ∧ (sMer none 0).ptp.source = none ∧
    (∃ b, (sMer (some (ann 7 0)) merFreerun).ptp.source = some b ∧ annB.sub ≠ b.sub ∧ Better annB b = false ∧
      Better { ann 6 9 with sub := annB.sub } b = true ∧ (ann 9 3).sub = b.sub) ∧
    (sMer none merFreerun).merState = merFreerun ∧ (sMer none merLocked).merState = merLocked ∧
    (sMer none 0).linkIs sub0 = true := by
  refine ⟨?_, ?_, ?_, ?_, ?_, ⟨ann 7 0, ?_⟩, ?_, ?_, ?_⟩ <;> decide +kernel

/-- A second master, and the best of the two, which takes over when the other goes. -/
theorem wit_MeridianClock_masters : bestOf ([ann 7 0, annB].filter fun x => (sMer none 0).ptpPort x.sub) = some (ann 7 0) ∧
    bestOf ([annB, ann 7 0].filter fun x => (sMer none 0).ptpPort x.sub) = some (ann 7 0) ∧
    bestOf ([ann 7 0, annB].filter fun b => !sameMaster (ann 7 0) b) = some annB := by decide +kernel

/-- Every state of the clock and both sides of the limits of an offset. -/
theorem wit_MeridianClock_sync : 
    (sMerN merLocking 15 3).merState = merLocking ∧ 16 ≤ (sMerN merLocking 15 3).ptp.good + 1 ∧
    ¬ 16 ≤ (sMerN merLocking 14 2).ptp.good + 1 ∧ 1000 < (1001 : Int).natAbs ∧ ¬ 1000 < (-1000 : Int).natAbs ∧
    (-20 : Int).natAbs ≤ 20 ∧ 20 < (21 : Int).natAbs ∧ (sMerN merLocked 0 3).merState = merLocked ∧
    4 ≤ (sMerN merLocked 0 3).ptp.bad + 1 ∧ (sMerN merLocked 0 2).ptp.bad + 1 < 4 ∧
    (sMerN merHoldover 3 0).merState = merHoldover ∧ 4 ≤ (sMerN merHoldover 3 0).ptp.good + 1 := by
  decide +kernel

theorem wit_MeridianClock_mine (m : Nat) (h : m ∈ [merLocking, merLocked, merHoldover]) :
    SyncMine (sMerN m 15 3) sub0 0 0 (-7) ∧ SyncMine (sMerN m 14 2) sub0 0 0 0 := by
  simp only [List.mem_cons, List.not_mem_nil, or_false] at h
  obtain rfl | rfl | rfl := h <;>
    refine ⟨⟨⟨ann 7 0, ?_⟩, ?_⟩, ⟨ann 7 0, ?_⟩, ?_⟩ <;> decide +kernel

theorem wit_MeridianClock_holdover : (sMer none merHoldover).merState = merHoldover ∧
    (sMer none merHoldover).ptp.since + 1000000 * (sMer none merHoldover).rdF R.PANEL_PTP_CFG F.PANEL_PTP_CFG_HOLD_MAX ≤
      (sMer none merHoldover).time.ns.toNat := by decide +kernel

/-- The scanned pass, its result, and a sample record of it that waits for the check, a replay or another cell. -/
def w0 : Pass := ((sScan.cell k0).dusk).headD ⟨jMm, 0, ⟨0, 0, none, none⟩, ⟨0, 0, none, none⟩, false, 0, none, none, false, none, none, 0⟩
def bExact : Bank := (sScan.recompute w0).1
def bNan : Bank := { bExact with ents := SMap.set bExact.ents AccEnt.zero 0 { AccEnt.zero with nanf := true } }
def smp (w : Pass) (b : Bank) (ph : Nat) (drift : Bool) : Sample :=
  ⟨w, 1, b, sScan.lineCrcs w.job false, sScan.lineCrcs w.job true, drift, ph, 0, 0, 0, 0, 0⟩
def sPlx (t : Sample) : State := sScan.setSample k0 0 (some t)
/-- The same pass as a wide one, which has no row. -/
def wWide : Pass := { w0 with wide := true }
def bWide : Bank := ((sScan.count (R.PART_PLX_SAMPLE_CNT 1) 1).passOut wWide).bank
/-- HARD of row 0 at the largest score. -/
def sSoft (t : Sample) : State := put (sPlx t) R.PANEL_PLX_TOL0 ((2 ^ 32 - 1) * 2 ^ 32)

/-- The score of a sample's record against its recomputation. -/
def topOf (s : State) (t : Sample) : Nat :=
  let e := ((s.checkWork k0 t.pass).recheck k0 t).1
  (topScore t.pass fun n => scoreEnt t.result.form (SMap.get t.result.ents AccEnt.zero n)
    (SMap.get (e.recompute t.pass).1.ents AccEnt.zero n)).1

theorem wit_ParallaxChecks_samples (t : Sample) (h : t ∈ [smp w0 bExact 1 false, smp w0 bNan 1 false, smp w0 bNan 1 true,
      smp wWide bNan 1 false, smp w0 bExact 2 false, smp w0 bExact 3 false]) : Sampled1 (sPlx t) k0 0 t.phase t := by
  refine ⟨?_, rfl, ?_, ?_⟩ <;> (simp only [List.mem_cons, List.not_mem_nil, or_false] at h; obtain rfl | rfl | rfl | rfl | rfl | rfl := h) <;>
    decide +kernel

/-- Scores on each side of SOFT and HARD, a drift, a changed operand, and both sides of a bitwise comparison. -/
theorem wit_ParallaxChecks_check : ((sPlx (smp w0 bExact 1 false)).checkWork k0 w0).passRow w0 = some 0 ∧
    (((sPlx (smp w0 bNan 1 false)).checkWork k0 w0).recheck k0 (smp w0 bNan 1 false)).2 = true ∧
    topOf (sPlx (smp w0 bExact 1 false)) (smp w0 bExact 1 false) ≤ (sPlx (smp w0 bExact 1 false)).tolSoft 0 ∧
    (sSoft (smp w0 bNan 1 false)).tolSoft 0 < topOf (sSoft (smp w0 bNan 1 false)) (smp w0 bNan 1 false) ∧
    topOf (sSoft (smp w0 bNan 1 false)) (smp w0 bNan 1 false) ≤ (sSoft (smp w0 bNan 1 false)).tolHard 0 ∧
    (sPlx (smp w0 bNan 1 false)).tolHard 0 < topOf (sPlx (smp w0 bNan 1 false)) (smp w0 bNan 1 false) ∧
    (let t := smp w0 bNan 1 false
     (t.drift || ((((sPlx t).checkWork k0 w0).recheck k0 t).1.recompute w0).2) = false) ∧
    (({ sPlx (smp w0 bNan 1 false) with bytes := sBreak.bytes }.checkWork k0 w0).recheck k0 (smp w0 bNan 1 false)).2 = false := by
  refine ⟨?_, ?_, ?_, ?_, ?_, ?_, ?_, ?_⟩ <;> decide +kernel

theorem wit_ParallaxChecks_bitwise : (sPlx (smp wWide bWide 1 false)).passRow wWide = none ∧
    (((sPlx (smp wWide bWide 1 false)).checkWork k0 wWide).recheck k0 (smp wWide bWide 1 false)).2 = true ∧
    (let t := smp wWide bWide 1 false
     let e := (((sPlx t).checkWork k0 wWide).recheck k0 t).1
     ∀ n ∈ workedEnts wWide, SMap.get bWide.ents AccEnt.zero n =
       SMap.get (e.count (R.PART_PLX_SAMPLE_CNT 1) 1 |>.passOut wWide).bank.ents AccEnt.zero n) ∧
    (let t := smp wWide bNan 1 false
     let e := (((sPlx t).checkWork k0 wWide).recheck k0 t).1
     ∃ n ∈ workedEnts wWide, SMap.get bNan.ents AccEnt.zero n ≠
       SMap.get (e.count (R.PART_PLX_SAMPLE_CNT 1) 1 |>.passOut wWide).bank.ents AccEnt.zero n) := by
  refine ⟨?_, ?_, ?_, ?_⟩ <;> decide +kernel

/-- A replay with and without another cell, at and below the limit, and a pass that another cell repeats. -/
def sSpare (t : Sample) : State := (sPlx t).setSlot ⟨0, 1⟩ 1 127 none

theorem wit_ParallaxChecks_classing : let t := smp w0 bExact 2 false
    ((sPlx t).recheck k0 t).2 = true ∧ ({ sPlx t with bytes := sBreak.bytes }.recheck k0 t).2 = false ∧ (sPlx t).ue = [] ∧ (sPlx t).ce = [] ∧
    ((sPlx t).otherCell k0).isNone = true ∧ ((sSpare t).otherCell k0).isSome = true ∧
    (sPlx t).rdF R.MGMT_FLT_POLICY F.MGMT_FLT_POLICY_TRANS_LIMIT = 4 ∧
    (put (sPlx t) R.MGMT_FLT_POLICY (2 ^ F.MGMT_FLT_POLICY_TRANS_LIMIT.2)).rdF R.MGMT_FLT_POLICY
      F.MGMT_FLT_POLICY_TRANS_LIMIT = 1 := by
  refine ⟨?_, ?_, ?_, ?_, ?_, ?_, ?_, ?_⟩ <;> decide +kernel

theorem wit_ParallaxChecks_other : let t := smp w0 bExact 3 false
    (sSpare t).otherCell k0 = some ⟨0, 1⟩ ∧ (((sSpare t).checkWork ⟨0, 1⟩ w0).recheck k0 t).2 = true ∧
    Sampled1 (sSpare t) k0 0 3 t := by
  refine ⟨?_, ?_, ?_, ?_, ?_, ?_⟩ <;> decide +kernel

/-- Nothing is wrong with memory or the links; and an operand's page is in SWITCH, so that the check waits. -/
theorem wit_ParallaxChecks_held : let t := smp w0 bExact 2 false
    Sound (sPlx t) ∧ Sound (sSpare t) ∧
    ((sPlx t).setEnt 1 { (sPlx t).ent 1 with st := .switch }).checkHeld t = true := by
  refine ⟨sound_of _ ?_, sound_of _ ?_, ?_⟩ <;> decide +kernel

/-! ## Fences, service and fault records -/

/-- A fence of cell 0.0 that waits or has started; spare 0.1 beside it, with and without AUTOSPARE; the cell stands idle. -/
def sFence (st : Bool) : State := { sTwo with fencing := [⟨k0, [], st⟩] }
def sPoint (n : Nat) : State :=
  put ({ (sEph.setRun k0 stIdle 0 0).setSlot ⟨0, 1⟩ slotSpare noLogical none with fencing := [⟨k0, [], true⟩] }) R.MGMT_FLT_POLICY n

theorem wit_FencesAndService_start : (sFence false).fencing.find? (·.cell = k0) = some ⟨k0, [], false⟩ ∧
    (sFence false).slotState k0 = slotActive ∧ (sFence false).cellPart k0 = some 1 ∧
    (∀ g ∈ (sFence false).fencing, g.started = true → (sFence false).cellPart g.cell ≠ some 1) := by decide +kernel

theorem wit_FencesAndService_point : (sPoint 3).fencing.find? (fun f => f.started && (sPoint 3).cellPart f.cell = some (1 : Fin 64).val)
      = some ⟨k0, [], true⟩ ∧ (sPoint 3).servicePoint (1 : Fin 64).val = true ∧ (sPoint 3).slotState k0 = slotActive ∧
    (sPoint 3).logical k0 / 64 = k0.die.val ∧ (sPoint 3).autospare = true ∧ ((sPoint 3).spares 0).head? = some ⟨0, 1⟩ ∧
    (sPoint 1).autospare = false ∧ (sPoint 1).servicePoint (1 : Fin 64).val = true := by decide +kernel

theorem wit_FencesAndService_sound : Sound (sPoint 3) := sound_of _ (by decide +kernel)

/-- Slots in every state. -/
def sSlot (st : Nat) : State := sTwo.setSlot k0 st noLogical none

theorem wit_FencesAndService_service : (∀ st ∈ [slotActive, slotSpare, slotFenced, slotRetired], SvcFree (sSlot st) ∧
    (sSlot st).slotState k0 = st) ∧ (sSlot slotFenced).absent 0 ≠ [] := by unfold SvcFree; decide +kernel

/-- A rejoined slot and an absent cell of partition 1, no cell of which is present. -/
def sRejoin : State :=
  { (put State.reset (R.PART_CELLMAPj 1 0) 1).setSlot k0 slotSpare noLogical none with rejoined := [k0] }

theorem wit_FencesAndService_backing : k0 ∈ sRejoin.rejoined ∧ (sRejoin.absent 0).head? = some 0 ∧ sRejoin.ownerOf 0 = some 1 ∧
    sRejoin.slotState k0 = slotSpare ∧ flag (sRejoin.rd (R.PART_TT_CTL 1)) (4 + sRejoin.ttActive 1) = false ∧
    (∀ k ∈ sRejoin.present 1, sRejoin.runState k = stIdle) := by decide +kernel

/-- The LAUNCH of the partition starts now. -/
def sRejoinAt : State :=
  { ((atNs sEvt 36000).setBacking 0 none).setSlot k0 slotSpare noLogical none with rejoined := [k0] }

theorem wit_FencesAndService_launch : k0 ∈ sRejoinAt.rejoined ∧ (sRejoinAt.absent 0).head? = some 0 ∧ sRejoinAt.ownerOf 0 = some 1 ∧
    sRejoinAt.slotState k0 = slotSpare ∧ flag (sRejoinAt.rd (R.PART_TT_CTL 1)) (4 + sRejoinAt.ttActive 1) = true ∧
    7 ∈ sRejoinAt.ents 1 ∧ (sRejoinAt.entry 1 7).action = actLaunch ∧
    sRejoinAt.occStart 1 (sRejoinAt.entry 1 7) = sRejoinAt.time.ns.toNat := by decide +kernel

/-- A record that waits, a log of `n` records, and subscriber 3. -/
def fsr0 : Fsr := ⟨1, 1, 2, 1, 63, 0, [0], 3, 0, 0, 0, none, 0, 0, 0, 0⟩
def logN (n : Nat) : List Fsr := (List.range n).map fun i => { fsr0 with recId := i + 1 }
def sRec (n : Nat) (since : Option Nat) : State :=
  { atNs sTwo (3600 * 10 ^ 9) with
    fsrPend := [fsr0]
    lode := { sTwo.lode with
      up := true, log := logN n, records := n, flash := [], subs := SMap.set [] (⟨0, none⟩ : Subscriber) 3 ⟨0, since⟩ } }

theorem wit_FaultRecords : (sRec 0 none).fsrPend = fsr0 :: [] ∧ (sRec 0 none).lode.up = true ∧ (sRec 4095 none).lode.log.length < 4096 ∧
    (sRec 4096 none).lode.log.length = 4096 ∧ fsr0.part < 64 ∧ State.reset.fsrPend = [] ∧ State.reset.lode.up = false ∧
    ((sRec 1 none).nextRecord 3).isSome = true ∧
    (SMap.get (sRec 1 (some 0)).lode.subs ⟨0, none⟩ 3).since = some 0 ∧ 0 + 3600 * 10 ^ 9 ≤ (sRec 1 (some 0)).time.ns.toNat := by
  decide +kernel

/-! ## Start-up, resets, power and Lodestar -/

/-- A module in a phase, with its input, PWR_EN and Lodestar up. -/
def sPhase (ph : Nat) : State :=
  { State.reset.wrF R.MGMT_BOOT_STAT F.MGMT_BOOT_STAT_PHASE ph with
    pwr := { Pwr.reset with en := true }, lode := { Lode.reset with up := true } }
def badImg : FwImage := { shippedImage with sigOk := false }
def sImg (a b : Option FwImage) : State := { State.reset with lode := { Lode.reset with imgA := a, imgB := b } }

theorem wit_StartUpPhases_cmd : PhaseCmd .startupReady phTime ∧ (sPhase phRom).phase ≠ phTime ∧
    (sPhase phStacks).phase = phStacks ∧ FusesGood (sPhase phStacks) ∧ (sPhase phLinks).phase = phLinks := by
  refine ⟨?_, by decide +kernel, by decide +kernel, by unfold FusesGood; decide +kernel, by decide +kernel⟩
  simp [PhaseCmd]

theorem wit_StartUpPhases_rom : State.reset.pwr.input = true ∧ State.reset.lode.up = false ∧ State.reset.phase = phOff ∧
    State.reset.lode.img State.reset.bootSlot = some shippedImage ∧ State.reset.verifies shippedImage = true ∧
    (sImg none (some shippedImage)).slotOk false = false ∧ (sImg none (some shippedImage)).bootSlot = false ∧
    (sImg none (some shippedImage)).lode.img true = some shippedImage ∧
    (sImg none (some shippedImage)).verifies shippedImage = true ∧ (sImg none (some badImg)).slotOk false = false ∧
    (sImg none (some badImg)).slotOk true = false ∧ imgSvn shippedImage ≤ 64 ∧ headerOk shippedImage = true := by decide +kernel

/-- The fuses of a die burned, or none; a copy of the configuration, or none that verifies; a stack channel that a spare
replaces. -/
def sStacks : State := sMapped.wrF R.MGMT_BOOT_STAT F.MGMT_BOOT_STAT_PHASE phConfig

theorem wit_StartUpPhases_load : (sPhase phRails).phase = phRails ∧ (sPhase phRom).phase = phRom ∧ (sPhase phRom).lode.up = true ∧
    (sPhase phRom).pwr.en = true ∧ (sPhase phRom).pwr.input = true ∧
    (∀ x ∈ (sPhase phRails).lode.fuses, 0x10000000 ≤ x.1 → x.1 < 0x20000000 → 0xA00 ≤ x.1 % 0x10000) ∧
    (sPhase phRails).fuseState k0 = slotActive ∧ (sPhase phRails).fuseRank k0 = some 0 ∧
    (sPhase phFuses).phase = phFuses ∧ (sPhase phFuses).lode.newest.isSome = true ∧
    { Lode.reset with cfg0 := ⟨1, false, []⟩, cfg1 := ⟨0, false, []⟩ }.newest = none := by decide +kernel

theorem wit_StartUpPhases_stacks : sStacks.phase = phConfig ∧ sStacks.physChan (31 : Fin 32).val (127 : Fin 128).val = 127 ∧
    sStacks.spareIn 31 0 = some 0 ∧ (sStacks.spareChans 31)[0]? = some 128 ∧
    (put sStacks (R.STK_SPARE 31) 0xFFFF).spareIn 31 0 = none := by decide +kernel

theorem wit_StartUpPhases_map : MapGood sStacks 31 := by unfold MapGood; decide +kernel

theorem wit_StartUpPhases_end : (sPhase phCells).phase = phCells ∧ (sPhase phTime).phase = phTime ∧
    (sPhase phTime).merState ≠ merLocked := by decide +kernel

/-- A cell idle for 4,096 cc, a module whose rails are up, one that has failed, and slots in service. -/
def sStill : State := (sTwo.setRun k0 stIdle 0 0).setCell k0 { (sTwo.setRun k0 stIdle 0 0).cell k0 with idle := 4096 }

theorem wit_ResetsAndClocks : 4096 ≤ (sStill.cell k0).idle ∧ sStill.clockIdle k0 = true ∧ RstFree sPwr ∧ sPwr.pwr.ok = true ∧
    RstFree (sPhase phFailed) ∧ (sPhase phFailed).pwr.ok = false ∧ (sPhase phFailed).phase = phFailed ∧
    (∀ st ∈ [slotActive, slotSpare, slotFenced, slotRetired], RstFree (sSlot st) ∧ (sSlot st).slotState k0 = st) ∧
    sPwr.net.stage = [] ∧ sPwr.net.wait = [] := by unfold RstFree; decide +kernel

/-- A move to or from stack 31 that copies or switches, and its controller; a remap that copies. -/
def sStk (h d : Nat) : State :=
  { sTwo.setEnt 1 ⟨.switch, 1, false, false, 65535, h, d⟩ with tiers := { sTwo.tiers with moves := [(1, ⟨0, []⟩)] } }

theorem wit_ResetsAndClocks_moves : RstFree sCopy ∧ sCopy.remapSt 31 = remapCopying ∧ State.reset.tiers.moves = [] ∧
    RstFree (sStk 0 (locStack 31 0)) ∧ ((sStk 0 (locStack 31 0)).ent 1).st = .switch ∧
    locIsStack ((sStk 0 (locStack 31 0)).ent 1).dest = true ∧ locStackNo ((sStk 0 (locStack 31 0)).ent 1).dest = 31 ∧
    locIsStack ((sStk (locStack 31 0) 5).ent 1).dest = false ∧ locIsStack ((sStk (locStack 31 0) 5).ent 1).home = true ∧
    locStackNo ((sStk (locStack 31 0) 5).ent 1).home = 31 ∧ (sStk 0 5).tiers.moves = [(1, ⟨0, []⟩)] := by
  unfold RstFree; decide +kernel

/-- Lodestar runs, with the signing state at the start, at the end and in the middle of a chunk, and uncertain. -/
def sId (st leaf chunk burned : Nat) : State :=
  { ((State.reset.wrF R.MGMT_ID_STAT F.MGMT_ID_STAT_STATE st).wrF R.MGMT_ID_STAT F.MGMT_ID_STAT_LEAF leaf).wrF R.MGMT_ID_STAT
      F.MGMT_ID_STAT_CHUNK chunk with
    lode := { Lode.reset with up := true, burned := List.range burned } }

theorem wit_FirmwareAndIdentity : (sPhase 9).rdF R.MGMT_FW_STAT F.MGMT_FW_STAT_BUSY = 0 ∧ (sPhase 9).lode.up = true ∧
    (sPhase 9).runSlot = false ∧ (sPhase 9).lode.img true = some shippedImage ∧ (sPhase 9).verifies shippedImage = true ∧
    { sPhase 9 with lode := { (sPhase 9).lode with imgB := some badImg } }.slotOk true = false ∧
    (sPhase 9).lode.cfg1.gen < (sPhase 9).lode.cfg0.gen := by decide +kernel

/-- The registers give a map in canonical form, so a copy that is not in that form differs from them. -/
theorem cfgNow_wf (s : State) : SMap.wf s.cfgNow (fun _ => 0) = true := by
  unfold State.cfgNow
  generalize cfgRegs = l
  suffices h : ∀ m : SMap W64, SMap.wf m (fun _ => 0) = true →
      SMap.wf (l.foldl (fun m r => SMap.set m 0 r.1 (s.rd r.1 &&& BitVec.ofNat 64 r.2)) m) (fun _ => 0) = true from h [] rfl
  induction l with
  | nil => exact fun _ h => h
  | cons r rest ih => exact fun m h => ih _ (SMap.wf_set h r.1 _)

/-- The newest copy lists a register at 0, which no map in canonical form does. -/
def sCfg : State := { sPhase 9 with lode := { (sPhase 9).lode with cfg0 := ⟨5, true, [(0, 0)]⟩ } }

theorem wit_FirmwareAndIdentity_config : sCfg.lode.up = true ∧ ∃ c, sCfg.lode.newest = some c ∧ c.vals ≠ sCfg.cfgNow := by
  refine ⟨by decide +kernel, ⟨5, true, [(0, 0)]⟩, by decide +kernel, fun h => ?_⟩
  have := cfgNow_wf sCfg
  rw [← h] at this
  exact absurd this (by decide)

theorem wit_FirmwareAndIdentity_quote : (sId 0 1023 36 37).idState ≠ idUncertain ∧
    (sId 0 1023 36 37).rdF R.MGMT_ID_STAT F.MGMT_ID_STAT_LEAF < 1024 ∧
    1024 ≤ (sId 0 1024 36 37).rdF R.MGMT_ID_STAT F.MGMT_ID_STAT_LEAF ∧ (sId 0 1024 36 37).lode.burned.length < 1024 ∧
    (sId idUncertain 0 0 0).idState = idUncertain := by decide +kernel

theorem wit_FirmwareAndIdentity_last : 1024 ≤ (sId 0 1024 1023 1024).lode.burned.length := by simp [sId]

/-- A sample on each side of the fast and slow limits, and caps at both ends of their range. -/
def sOn (low step : Nat) : State :=
  { State.reset.wrF R.PANEL_PWR_STAT F.PANEL_PWR_STAT_FSTEP step with pwr := { Pwr.reset with ok := true, low := low } }

theorem wit_PowerSupply : (sOn 9 5).pwr.ok = true ∧ (sOn 9 5).pwr.input = true ∧ (sOn 9 5).pwr.low + 1 = 10 ∧
    (sOn 9 5).rdF R.PANEL_PWR_STAT F.PANEL_PWR_STAT_FSTEP = 5 ∧ fld (4000 : W64) 15 0 = 4000 ∧ canWrite R.MGMT_PWR_CFG 4000 = true ∧
    canWrite R.MGMT_PWR_CFG 17500 = true ∧ fld (3999 : W64) 15 0 < 4000 ∧ 17500 < fld (17501 : W64) 15 0 ∧
    { sOn 0 0 with pwr := { Pwr.reset with input := false } }.pwr.input = false ∧ State.reset.pwr.en = false ∧
    (sPhase phReady).pwr.en = true ∧ (sPhase phReady).phase = phReady ∧ (sPhase phFailed).phase ≠ phReady ∧
    (sPhase phLinks).phase ≠ phFailed := by decide +kernel

/-! ## The whole machine -/

theorem wit_CommandsCompleteInOrder : { State.reset with pending := [.inputLoss] }.pending = .inputLoss :: [] ∧
    State.reset.pending = [] := by decide +kernel

theorem step_idle (s : State) (h : s.pending = []) : step s = .next s.cc := by simp [step, h]

theorem wit_MemoryStaysCanonical : MemoryCanonical sBreak ∧ sBreak.bytes ≠ [] ∧ step sBreak = .next sBreak.cc := by
  refine ⟨?_, by decide +kernel, step_idle _ (by decide +kernel)⟩
  unfold MemoryCanonical; decide +kernel

theorem wit_HistoryNeverRollsBack : HistoryKept (sRec 3 none) ∧ step (sRec 3 none) = .next (sRec 3 none).cc := by
  refine ⟨?_, step_idle _ (by decide +kernel)⟩
  unfold HistoryKept; decide +kernel

theorem wit_InstructionWordsDistinct : (insnWord iCopy).isSome = true ∧
    ∃ a b, insnWord iCopy = some a ∧ insnWord iSpill = some b ∧ a.ctx = b.ctx ∧ a.word ≠ b.word :=
  ⟨by decide +kernel, _, _, rfl, rfl, by decide +kernel, by decide +kernel⟩

/-! ## Results that the spec works out -/

/-- The tables of cell 0.0 as reset leaves them. -/
def tab0 : Tabs := (sRun.newJob c0 .mov iCopy).tabs
def c32 (b : Nat) (f : Nat) (ovf : Bool) : Nat × Nat × Nat :=
  let c := convert tab0 ovf f (f32Val (BitVec.ofNat 32 b)).toXR
  (c.bits, c.sat, c.ovf)

/-- Table: Conversion examples (02_formats.md). -/
theorem test_conversions : c32 0x43960000 0x10 false = (0x79, 0, 0) ∧ c32 0x43E60000 0x10 false = (0x7E, 0, 0) ∧
    c32 0x43EB0000 0x10 false = (0x7E, 1, 0) ∧ c32 0x3F808000 fmtBF16 false = (0x3F81, 0, 0) ∧
    c32 0x447A0000 0x12 false = (0x51F, 0, 0) ∧ c32 0x4788B800 fmtFP16 false = (0x7BFF, 1, 0) ∧
    c32 0x4788B800 fmtFP16 true = (0x7C00, 0, 1) ∧ c32 0x2D800000 0x12 false = (1, 0, 0) ∧ c32 0xAD000000 0x12 false = (0, 0, 0) ∧
    c32 0x7F800000 0x10 false = (0x7E, 1, 0) ∧ c32 0x7F800000 0x12 false = (0x7E0, 0, 0) ∧
    c32 0x80000000 fmtFP32 false = (0, 0, 0) ∧ c32 0xC0200000 3 false = (0xD, 0, 0) ∧ c32 0x41100000 3 false = (7, 1, 0) := by
  decide +kernel

/-- The row scale of a line whose largest magnitude is 1,000 in E4M3, and the block scale of 3.0 (03_quantising.md, 08_vector_row.md);
the tensor scale of a slot whose largest entry is 1,000.0 with H = 1, and with H + XH = 3 at 3,000 (07_almanac.md). -/
theorem test_scales : chooseScale (Dy.ofInt 1000) (maxfinite tab0 0x10) = 2 ∧ chooseScale (Dy.ofInt 3) (maxfinite tab0 0x10) = -7 ∧
    tensorScale tab0 0x10 1 (some (Dy.ofInt 1000)) 0 = 3 ∧ tensorScale tab0 0x10 3 (some (Dy.ofInt 3000)) 3 = 6 := by decide +kernel

/-- One FP32 line into Halo-4 (03_quantising.md): codes 13, 6, 14, the outlier 4.0 as BF16 0x4080, and code 9; E_line = -1. -/
def ctlHalo (on : Bool) : OpCtl := ⟨tab0, false, fmtFP32, 0x18, false, false, on, 0, false, false, false⟩
def lineHalo : List (Nat × Nat) :=
  ([0x3D800000, 0xBC800000, 0x3DC00000, 0x3F000000, 0x3B200000] ++ List.replicate 123 0).map fun b => (b, 127)

theorem test_halo : let c := ctlHalo true
    let sc := c.scan [128] (-3) none [lineHalo]
    let l := (c.lines sc [lineHalo]).headD []
    (l.take 5).map (fun q => (q.bits, q.outl)) = [(13, false), (6, false), (14, false), (0x4080, true), (9, false)] ∧
    sc.eline = [-1] ∧ sc.entries = 1 := by decide +kernel

theorem test_halo_off : let c := ctlHalo false
    let sc := c.scan [128] (-3) none [lineHalo]
    let l := (c.lines sc [lineHalo]).headD []
    (l.take 5).map (fun q => q.bits) = [13, 6, 14, 15, 9] ∧ sc.eline = [-4] ∧ linesSat [l] = 1 := by decide +kernel

/-- 16,384 · 2¹⁸ in the INT32-compatible mode, clamped and wrapped (04_dusk.md). -/
theorem test_int32 : int32Entry false (16384 * 2 ^ 18) = (0x7FFFFFFF, true) ∧ int32Entry true (16384 * 2 ^ 18) = (0, true) := by decide

/-- One FP32 product in three passes: 1 + 2⁻¹⁷ (05_dawn.md). -/
theorem test_three_passes : ((prodTerms 2 false ⟨0x800001, -23⟩ ⟨0x80003F, -23⟩ 0).map fun t => t.1 * 2 ^ (t.2 + 46).toNat).sum =
    2 ^ 46 + 2 ^ 29 := by decide

/-- An interval that falls below the window (06_accumulation.md): T = 136, N = 7 · 2¹⁸¹, one shed product. -/
theorem test_window : let q := fun (m e g : Int) => (⟨.fin ⟨m, e⟩, g, 0, 0, (0, 0), 0, 0, false, false⟩ : QEl)
    let z := q 0 0 0
    let la := q 448 0 100 :: List.replicate 31 z ++ q 3 (-1) (-100) :: List.replicate 31 z
    let lb := q 1 0 20 :: List.replicate 31 z ++ q 1 0 (-27) :: List.replicate 31 z
    let r := (⟨0, false, true, [32, 32], 64⟩ : PassSum).entry la lb 108 20 [108, -100] [20, -27]
    r.ent = ⟨7 * 2 ^ 181, 136, false, false, false, false⟩ ∧ r.shed = 1 := by decide +kernel

/-- An exact triple (08_vector_row.md): 1 + 2⁻²³ + 2⁻²⁴ + 2⁻⁶⁰. -/
theorem test_triple : let t := accTriple jMm (.fin ⟨2 ^ 60 + 2 ^ 37 + 2 ^ 36 + 1, -60⟩)
    (t.1.bits, t.2.1.bits, t.2.2.1.bits, t.2.2.2) = (0x3F800002, 0xB3800000, 0x21800000, false) := by decide +kernel

/-- Three rows of the soft maximum, and row.lse of the first entry (08_vector_row.md). -/
def rowOf' (l : List Nat) : RowIn :=
  ⟨sDesc.newJob c0 .row (.rowSoftmax c0 pT fSoft), fmtFP32, 0, l.map (BitVec.ofNat 32), [], 0, 0⟩
def soft (l : List Nat) : List Nat × Option (F32 × F32) :=
  let r := rowSoftmaxRes (f32Val 0x3F800000) (rowOf' l)
  (r.ys, r.ent)

theorem test_softmax : soft [0, 0, 0xFF800000, 0] = ([0x3EAAAAAB, 0x3EAAAAAB, 0, 0x3EAAAAAB], some (0, 0x40400000)) ∧
    soft [0x7F800000, 0x40A00000, 0x7F800000, 0xFF800000] = ([0x3F000000, 0, 0x3F000000, 0], some (0x7F800000, 0x40000000)) ∧
    soft [0xFF800000, 0xFF800000, 0xFF800000, 0xFF800000] = ([0, 0, 0, 0], some (0xFF800000, 0)) := by decide +kernel

/-- A slot in a storm (07_almanac.md): word 9 after the close flags and the step end with overflow. -/
def sStorm : State :=
  let s := sAlm.wr (almAddr 0 8) (BitVec.ofNat 64 (2 ^ 63 + 0x10 * 2 ^ 56 + 2 ^ 49))
  let s := s.policyIn 1
  let s := put (put (put (put (put s (almAddr 0 9) 0x5003000000056828) (almAddr 0 3) 0x447A0000) (almAddr 0 10) (0x453B8000 * 2 ^ 32))
    (almAddr 0 11) (40 * 2 ^ 32)) (almAddr 0 12) (1048576 * 2 ^ 24)
  (s.closeSlot 1 0).wrF (R.PART_ALM_STEP 1) F.PART_ALM_STEP_STORM 1

theorem test_storm : getF (sStorm.slotW 0 9) fREQ = 1 ∧ getF (sStorm.slotW 0 9) fSATF = 1 ∧ getF (sStorm.slotW 0 9) fQUIETF = 0 ∧
    ((sStorm.endUpdate 1 (BitVec.ofNat 64 (2 ^ vOVF))).slotW 0 9) = 0x5006400000007870 ∧
    (sStorm.endUpdate 1 (BitVec.ofNat 64 (2 ^ vOVF))).rdF (R.PART_ALM_STEP 1) F.PART_ALM_STEP_FHOLD = 8 := by decide +kernel

/-- Stochastic rounding of 0x3F80_A000 into BF16 around its threshold (09_zenith.md). -/
theorem test_stochastic : (srEl jMm fmtBF16 0x3F80A000 0 0x9FFFFFFF 0).bits = 0x3F81 ∧
    (srEl jMm fmtBF16 0x3F80A000 0 0xA0000000 0).bits = 0x3F80 := by decide +kernel

/-- Combining four records (10_step_verdict.md): NSQ 1.75 + 2⁻²⁰, stream sums, and the final word 0x08 with its norm. -/
def recM (nsq rc0 : Nat) : VerdictRec := ⟨0, 0, 0, nsq, false, false, 1, 500, 500, 3 :: 1 :: List.replicate 14 0, rc0 :: 1 :: List.replicate 14 0⟩
def recAll : VerdictRec := [recM (2 ^ 296) 3, recM 0 3, recM (2 ^ 278) 2].foldl combineRec (recM (3 * 2 ^ 297) 3)
def sGrp : State :=
  put (put sEph (R.PART_VRD_CFG 1) (2 ^ F.PART_VRD_CFG_EN.2 + 4 * 2 ^ F.PART_VRD_CFG_MEMBERS.2 + 2 * 2 ^ F.PART_VRD_CFG_NSTREAM.2)) (R.PART_VRD_EXPECTj 1 0)
    (12 + 4 * 2 ^ 32)

theorem test_verdict : recAll.mcount = 4 ∧ recAll.appMin = 500 ∧ recAll.appMax = 500 ∧ recAll.sent.take 2 = [12, 4] ∧
    recAll.recv.take 2 = [11, 4] ∧ sGrp.finalWord 1 recAll = 8 ∧ finalNsq 8 recAll = 0x3FFC000100000000 := by decide +kernel

/-- The word of dusk.mm with DA = 2, DB = 3, SLOTA = 0x4005 and MODE = 0x003800 (11_isa_model.md). -/
theorem test_encoding : ((insnWord (.duskMm c0 pT ⟨2, 3, 0x4005, 0, 0x003800, 0⟩)).map InsnWord.word) =
    some 0x301723800A000000E000000000000000 := by decide +kernel

/-- A weight tile's descriptor (11_isa_model.md). -/
theorem test_descriptor : let d := descV (BitVec.ofNat 256 (0x1003000000040000 + 0x0000010002001000 * 2 ^ 64 + 0x0000080000200001 * 2 ^ 128))
    (d.base, d.fmt, d.trn, d.swz, d.sdi) = (0x40000, 3, false, 0, 4) ∧ (d.e0, d.e1, d.e2, d.e3) = (4096, 32, 1, 1) ∧
    (d.grp, d.s1, d.s2, d.s3) = (2, 2048, 0, 0) := by decide +kernel

/-- The spill coding of two elements of 1.0 (13_tiers.md). -/
theorem test_spill : let bs : List Byte := [0, 0, 0x80, 0x3F, 0, 0, 0x80, 0x3F]
    xplane 4 bs = [0x3F, 0x3F, 0x80, 0x80, 0, 0, 0, 0] ∧ zrun 8 (xplane 4 bs) = [3, 0x3F, 0x3F, 0x80, 0x80, 0x83] ∧
    zrun 8 bs = [0x81, 1, 0x80, 0x3F, 0x81, 1, 0x80, 0x3F] := by decide +kernel

/-- The bank and row of an SRAM offset, and a dual-port bank (14_sram.md). -/
theorem test_bank : bankOf 0x4123C0 = 47 ∧ rowOf 0x4123C0 = 9 ∧ 0x4123C0 / 65536 = 65 ∧
    bankOf 0x400380 = 46 := by decide

/-- 1.25 · 2⁻¹⁶, -0.75 · 2⁻⁴⁰ and 2⁻⁴¹ as FX64 (14_sram.md). -/
theorem test_fx64 : fxOf (scaledVal tab0 0x11 0x3D 0x6F) = (0x1400000, 0) ∧ fxOf (.fin ⟨-3, -42⟩) = (2 ^ 64 - 1, 0) ∧
    fxOf (.fin ⟨1, -41⟩) = (1, 0) := by decide +kernel

/-- The address of an Ephemeris entry and its fields (17_meridian.md, 18_partitions.md). -/
theorem test_addresses : R.PART_NAN_TRAP0 5 = 0x38050200 ∧ R.PART_CAP1 5 = 0x38050018 ∧ ephAddr 1 2058 0 = 0x214080A0 := by decide

/-- At 45.0 V with both pairs carrying and CAP = 16,000 W, PEFF reads 0x3E80 and ILIM 0 (20_bringup.md). -/
def sCapped : State := { put State.reset R.MGMT_PWR_CFG (2 ^ 16 + 16000) with pwr := { Pwr.reset with ok := true } }

theorem test_power : let t := nx (exec (.powerSample ⟨15000000, 160000, 160000, 45000, 600⟩) sCapped)
    t.rdF R.PANEL_PWR_STAT F.PANEL_PWR_STAT_PEFF = 0x3E80 ∧ t.rdF R.PANEL_PWR_STAT F.PANEL_PWR_STAT_VIN = 0xB4 ∧
    t.rdF R.PANEL_PWR_STAT F.PANEL_PWR_STAT_ILIM = 0 := by decide +kernel

/-- Power lost mid-chunk (21_security.md): bits 0 to 36 burned, and the quote after the restart, the fuses loaded. -/
def sRom : State := nx (exec .startupRom { State.reset with lode := { Lode.reset with burned := List.range 37 } })
def sLost : State := { sRom with lode := { sRom.lode with loaded := true } }.showFuses

theorem test_quote : let t := nx (exec (.quote [] true) sLost)
    t.rd R.MGMT_ID_STAT = 0x00009400800003DA ∧ t.lode.quotes.map (·.index) = [0x9400] := by decide +kernel

/-! ## Well-formedness: an ill-formed term for each check, which the check refuses -/

def ip4 : IpAddr := ⟨false, 0, 0x0A000001⟩
def ip6 : IpAddr := ⟨true, 1, 2⟩
def ipBad : IpAddr := ⟨false, 1, 0⟩
def ipBig : IpAddr := ⟨false, 0, 0x100000000⟩
def flBad : Flit := ⟨0, List.replicate 63 0⟩
def recW : VerdictRec := recV 0
def hW : AstpHdr := hd 5
def annW : Announce := ann 1 0

theorem wf_address : ip4.wf = true ∧ ip6.wf = true ∧ ipBad.wf = false ∧ ipBig.wf = false := by decide

theorem wf_record : recW.wf = true ∧ { recW with step := 2 ^ 48 }.wf = false ∧ { recW with group := 2 ^ 16 }.wf = false ∧
    { recW with nsq := 2 ^ 640 }.wf = false ∧ { recW with mcount := 2 ^ 32 }.wf = false ∧ { recW with appMin := 2 ^ 64 }.wf = false ∧
    { recW with appMax := 2 ^ 64 }.wf = false ∧ { recW with sent := [] }.wf = false ∧ { recW with recv := [] }.wf = false ∧
    { recW with sent := 2 ^ 32 :: List.replicate 15 0 }.wf = false ∧
    (Instr.verdictRecordReceive 0 { recW with recv := [] }).wf = false := by decide +kernel

theorem wf_header : hW.wf = true ∧ { hW with src := ipBad }.wf = false ∧ { hW with srcPort := 2 ^ 16 }.wf = false ∧
    { hW with session := 2 ^ 16 }.wf = false ∧ { hW with seq := 2 ^ 32 }.wf = false ∧ { hW with frames := 0 }.wf = false ∧
    { hW with ackSeq := 2 ^ 32 }.wf = false ∧ { hW with limit := 2 ^ 32 }.wf = false ∧ { hW with lens := [] }.wf = false ∧
    { hW with lens := [8225] }.wf = false := by decide

theorem wf_header_messages : ∀ i ∈ [Instr.astpOpen { hW with frames := 0 }, .astpClose { hW with frames := 0 },
      .astpAck { hW with frames := 0 }, .astpCsrRd { hW with frames := 0 } 0 1, .astpCsrWr { hW with frames := 0 } 0 [],
      .astpWrite { hW with frames := 0 } 0 [], .astpPeek { hW with frames := 0 } 0 1, .astpTake { hW with frames := 0 } 0 1,
      .astpLaunch { hW with frames := 0 } lMsg, .astpBind { hW with frames := 0 } 0 [], .astpNoSession ⟨{ hW with frames := 0 }, false⟩,
      .astpTensor { hW with frames := 0 } frm, .astpVerdict { hW with frames := 0 } 0 recW, .astpVerdict hW 0 { recW with sent := [] },
      .astpFarewell { hW with frames := 0 } 0 0, .messageTimeEnd [.launch { hW with frames := 0 } lMsg] []], i.wf = false := by
  decide +kernel

theorem wf_requests : (Instr.astpCsrRd hW 0 (2 ^ 16)).wf = false ∧ (Instr.astpPeek hW 0 (2 ^ 32)).wf = false ∧
    (Instr.astpTake hW 0 (2 ^ 32)).wf = false ∧ (Instr.astpLaunch hW lMsg).wf = true ∧
    (Instr.astpRetxTimeout (2 ^ 16) 0).wf = false ∧ (Instr.astpRetxTimeout 0 (2 ^ 32)).wf = false ∧
    (Instr.astpSessionTimeout (2 ^ 16)).wf = false := by decide +kernel

theorem wf_lengths : (Instr.astpCsrWr hW 0 (List.replicate (2 ^ 16) 0)).wf = false ∧
    (Instr.astpBind hW 0 (List.replicate (2 ^ 10) 0)).wf = false ∧ (Instr.astpWrite hW 0 (List.replicate (2 ^ 32) 0)).wf = false ∧
    (Instr.echoRequest sub0 ip4 ip4 (List.replicate (2 ^ 16) 0)).wf = false ∧
    (Instr.astpFrameBad sub0 0 (List.replicate (2 ^ 16) 0)).wf = false ∧
    (Instr.roceWrite sub0 0 0 0 0 (List.replicate (2 ^ 32) 0) none).wf = false ∧
    (Instr.roceSend sub0 0 0 (List.replicate (2 ^ 16) 0) none).wf = false ∧
    { frm with data := List.replicate 8193 0 }.wf = false := by
  simp only [Instr.wf, AstpReq.wf, TensorFrame.wf, List.length_replicate]
  decide +kernel

theorem wf_frames : frm.wf = true ∧ { frm with frames := 2 ^ 16 }.wf = false ∧ { frm with fidx := 2 ^ 16 }.wf = false ∧
    { frm with offset := 2 ^ 32 }.wf = false ∧ { frm with total := 2 ^ 32 }.wf = false ∧ { frm with stotal := 2 ^ 32 }.wf = false ∧
    (Instr.astpTensor hW { frm with fidx := 2 ^ 16 }).wf = false ∧ (Instr.astpFrameBad sub0 (2 ^ 16) []).wf = false := by decide +kernel

theorem wf_announce : annW.wf = true ∧ { annW with priority1 := 256 }.wf = false ∧ { annW with clockClass := 256 }.wf = false ∧
    { annW with accuracy := 256 }.wf = false ∧ { annW with variance := 65536 }.wf = false ∧ { annW with priority2 := 256 }.wf = false ∧
    { annW with steps := 65536 }.wf = false ∧ (Instr.ptpAnnounce { annW with steps := 65536 }).wf = false ∧
    (Instr.ptpSync sub0 0 0 128 0).wf = false ∧ (Instr.ptpSync sub0 0 0 (-129) 0).wf = false := by decide

theorem wf_pages_and_lines : ∀ i ∈ [Instr.moveSwitch (2 ^ 26), .moveCommit (2 ^ 26), .moveDone (2 ^ 26), .takeFrameRelease (2 ^ 32),
      .portBCollide k0 786432 0 0, .eccWriteback k0 786432, .stkScrub 0 (2 ^ 30) .clean, .spanFlitReceive sp0 flBad,
      .spanCreditReturn sp0 flBad, .spanNakReceive sp0 flBad, .spanSyncReceive sp0 flBad, .spanRetrain sp0 [1, 1] [],
      .spanRetrain sp0 [] [1, 1]], i.wf = false := by decide +kernel

theorem wf_network : ∀ i ∈ [Instr.arpRequest sub0 ip6 ip4 0, .arpRequest sub0 ip4 ip6 0, .arpRequest sub0 ipBad ip4 0,
      .arpRequest sub0 ip4 ipBig 0, .neighbourSolicitation sub0 ip4 ip6 0, .neighbourSolicitation sub0 ip6 ip4 0,
      .echoRequest sub0 ip4 ip6 [], .echoRequest sub0 ipBad ip4 [], .echoRequest sub0 ip4 ipBig [], .peerMacExpire sub0 ipBad,
      .peerMacResolved sub0 ipBad 0, .roceRead sub0 0 (2 ^ 24) 0 0 1, .roceRead sub0 0 0 0 0 (2 ^ 32), .roceWrite sub0 0 (2 ^ 24) 0 0 [] none,
      .roceSend sub0 0 (2 ^ 24) [] none, .roceInvalidRequest sub0 0 (2 ^ 24) 0], i.wf = false := by decide +kernel

theorem wf_module : ∀ i ∈ [Instr.startupStacks [(0, 0), (0, 0)], .startupLinks [sub0, sub0], .csrWrite .mgmt 0 0 0,
      .configurationUpdate [(2 ^ 32, 0)] true], i.wf = false := by decide +kernel

theorem wf_good : ∀ i ∈ [Instr.ctlNop c0 pT fmtS0, iCopy, .spanFlitReceive sp0 (flit 0), .arpRequest sub0 ip4 ip4 0,
      .csrWrite .mgmt 0 8 0, .echoRequest sub0 ip6 ip6 [], .roceRead sub0 0 0 0 0 1, .moveSwitch 0], i.wf = true := by decide +kernel
end Sys2Proof.Tests
end

section
/-! Writes of registers alone: what they leave as it is, and how they compose. -/

open Sys2Proof.Claim

namespace Sys2Proof.Machine

/-- The registers of the list are all that differs. -/
def WritesOnly (s t : State) (l : List Nat) : Prop := (∃ m, t = { s with csr := m }) ∧ CsrsBut s t l

theorem WritesOnly.refl (s : State) (l : List Nat) : WritesOnly s s l := ⟨⟨s.csr, rfl⟩, fun _ _ => rfl⟩

theorem WritesOnly.trans {s t u : State} {l : List Nat} (h : WritesOnly s t l) (k : WritesOnly t u l) : WritesOnly s u l := by
  obtain ⟨⟨m, rfl⟩, hr⟩ := h
  obtain ⟨⟨m', rfl⟩, kr⟩ := k
  exact ⟨⟨m', rfl⟩, fun a ha => (kr a ha).trans (hr a ha)⟩

theorem WritesOnly.mono {s t : State} {l l' : List Nat} (h : WritesOnly s t l) (hl : l ⊆ l') : WritesOnly s t l' :=
  ⟨h.1, fun a ha => h.2 a fun hm => ha (hl hm)⟩

theorem WritesOnly.wr {s t : State} {l : List Nat} (h : WritesOnly s t l) {a : Nat} (v : W64) (ha : a ∈ l) :
    WritesOnly s (t.wr a v) l :=
  h.trans ⟨⟨_, rfl⟩, fun _ hb => t.rd_wr_ne v fun e => hb (e ▸ ha)⟩

theorem WritesOnly.count {s t : State} {l : List Nat} (h : WritesOnly s t l) {a : Nat} (n : Nat) (ha : a ∈ l) :
    WritesOnly s (t.count a n) l := by
  unfold State.count
  split
  · exact h
  · exact h.wr _ ha

theorem WritesOnly.each {α : Type} {l : List Nat} {f : State → α → State} (xs : List α) (s : State)
    (h : ∀ t, ∀ x ∈ xs, WritesOnly t (f t x) l) : WritesOnly s (s.each xs f) l := by
  unfold State.each
  induction xs generalizing s with
  | nil => exact .refl _ _
  | cons x xs ih => exact (h s x (by simp)).trans (ih _ fun t y hy => h t y (by simp [hy]))

theorem WritesOnly.alm {s t : State} {l : List Nat} (h : WritesOnly s t l) : t.alm = s.alm := by
  obtain ⟨⟨m, rfl⟩, -⟩ := h; rfl

theorem WritesOnly.almOf {s t : State} {l : List Nat} (h : WritesOnly s t l) (p : Nat) : t.almOf p = s.almOf p := by
  unfold State.almOf; rw [h.alm]

theorem WritesOnly.memSame {s t : State} {l : List Nat} (h : WritesOnly s t l) : MemSame s t := by
  obtain ⟨⟨m, rfl⟩, -⟩ := h; exact ⟨rfl, rfl, rfl, rfl, rfl, rfl⟩

theorem WritesOnly.ctxSame {s t : State} {l : List Nat} (h : WritesOnly s t l) : CtxSame s t := by
  obtain ⟨⟨m, rfl⟩, -⟩ := h; intro c; cases c <;> rfl

end Sys2Proof.Machine
end

section
/-! The words of the Almanac's slots as registers (R164): they lie apart from one another and from the partitions' registers. -/

open Sys2Proof.Claim

namespace Sys2Proof.Machine

theorem almAddr_inj {n m w i : Nat} (hw : w < 16) (hi : i < 16) : almAddr n w = almAddr m i ↔ n = m ∧ w = i := by
  unfold almAddr dieBase
  omega

theorem almAddr_lt {n w : Nat} (hn : n < 16384) (hw : w < 16) : almAddr n w < 0x38000000 := by
  unfold almAddr dieBase
  omega

theorem State.slotW_wr (s : State) {n m w i : Nat} (v : W64) (hw : w < 16) (hi : i < 16) :
    (s.wr (almAddr n w) v).slotW m i = if m = n ∧ i = w then v else s.slotW m i := by
  simp only [State.slotW, State.rd_wr, almAddr_inj hi hw]

/-- The words 9 to 12 of the slots of a list: all that a step's close and its reports write. -/
def stepWords (l : List Nat) : List Nat := l.flatMap fun n => [almAddr n 9, almAddr n 10, almAddr n 11, almAddr n 12]

theorem mem_stepWords {l : List Nat} {n i : Nat} (hi : i < 16) :
    almAddr n i ∈ stepWords l ↔ n ∈ l ∧ 9 ≤ i ∧ i ≤ 12 := by
  simp only [stepWords, List.mem_flatMap, List.mem_cons, List.not_mem_nil, or_false]
  constructor
  · rintro ⟨m, hm, h⟩
    simp only [almAddr_inj hi (show 9 < 16 by decide), almAddr_inj hi (show 10 < 16 by decide),
      almAddr_inj hi (show 11 < 16 by decide), almAddr_inj hi (show 12 < 16 by decide)] at h
    have e : n = m := by omega
    exact ⟨e ▸ hm, by omega⟩
  · rintro ⟨hn, h⟩
    have hi' : i = 9 ∨ i = 10 ∨ i = 11 ∨ i = 12 := by omega
    exact ⟨n, hn, by rcases hi' with rfl | rfl | rfl | rfl <;> simp⟩

theorem almAddr_mem_stepWords {n i : Nat} (h : 9 ≤ i ∧ i ≤ 12) : almAddr n i ∈ stepWords [n] :=
  (mem_stepWords (by omega)).2 ⟨List.mem_singleton_self n, h⟩

theorem lt_of_mem_stepWords {l : List Nat} {a : Nat} (hl : ∀ n ∈ l, n < 16384) (h : a ∈ stepWords l) : a < 0x38000000 := by
  simp only [stepWords, List.mem_flatMap, List.mem_cons, List.not_mem_nil, or_false] at h
  obtain ⟨n, hn, h⟩ := h
  rcases h with rfl | rfl | rfl | rfl <;> exact almAddr_lt (hl n hn) (by decide)

theorem stepWords_subset {l l' : List Nat} (h : l ⊆ l') : stepWords l ⊆ stepWords l' := by
  intro a ha
  simp only [stepWords, List.mem_flatMap] at ha ⊢
  obtain ⟨n, hn, ha⟩ := ha
  exact ⟨n, h hn, ha⟩

section
variable {s t : State} {l : List Nat} (h : WritesOnly s t (stepWords l))
include h

/-- Outside the words 9 to 12 of the slots listed, every word is as before. -/
theorem WritesOnly.slotW {n i : Nat} (hi : i < 16) (d : n ∉ l ∨ i < 9 ∨ 12 < i) : t.slotW n i = s.slotW n i :=
  h.2 _ fun hm => by
    obtain ⟨hn, h1, h2⟩ := (mem_stepWords hi).1 hm
    rcases d with d | d | d
    · exact d hn
    all_goals omega

theorem WritesOnly.confOf (p n : Nat) : t.confOf p n = s.confOf p n := by
  unfold State.confOf
  rw [h.almOf, h.slotW (by decide) (.inr (.inl (by decide)))]

/-- The partitions' registers are as before. -/
theorem WritesOnly.rd_part (hl : ∀ n ∈ l, n < 16384) {a : Nat} (ha : 0x38000000 ≤ a) : t.rd a = s.rd a :=
  h.2 a fun hm => absurd (lt_of_mem_stepWords hl hm) (by omega)

end

theorem State.almSlots_lt {s : State} {p n : Nat} (hr : AlmRangeOk s p) (h : n ∈ s.almSlots p) : n < 16384 := by
  obtain ⟨i, hi, rfl⟩ := List.mem_map.1 h
  have := List.mem_range.1 hi
  unfold AlmRangeOk at hr
  omega

theorem State.validSlots_lt {s : State} {p n : Nat} (hr : AlmRangeOk s p) (h : n ∈ s.validSlots p) : n < 16384 :=
  State.almSlots_lt hr (List.mem_filter.1 h).1

theorem State.validSlots_nodup (s : State) (p : Nat) : (s.validSlots p).Nodup :=
  ((List.nodup_range).map fun _ _ e => Nat.add_right_cancel e).filter _

/-- The valid slots depend on the range and on the words 8 in force alone. -/
theorem State.validSlots_congr {s t : State} {p : Nat} (hr : t.rd (R.PART_ALM_RANGE p) = s.rd (R.PART_ALM_RANGE p))
    (hc : ∀ n ∈ s.almSlots p, t.confOf p n = s.confOf p n) : t.validSlots p = s.validSlots p := by
  have e : t.almSlots p = s.almSlots p := by simp only [State.almSlots, State.almCount, State.almBase, State.rdF, hr]
  rw [State.validSlots, e]
  exact List.filter_congr fun n hn => by rw [hc n hn]

end Sys2Proof.Machine
end

section
/-! The close of the slots (R172): what each slot's words are after it. -/

open Sys2Proof.Claim

namespace Sys2Proof.Machine

/-! Fields of word 9. -/

theorem getF_putF_same (v : W64) (f : Nat × Nat) (x : Nat) (h : f.2 ≤ f.1) (hn : f.1 < 64) :
    getF (putF v f x) f = x % 2 ^ (f.1 + 1 - f.2) := fld_fldPut_same v f.1 f.2 x h hn

theorem getF_putF_ne (v : W64) (f g : Nat × Nat) (x : Nat) (h : f.2 ≤ f.1) (hn : f.1 < 64) (d : g.1 < f.2 ∨ f.1 < g.2) :
    getF (putF v f x) g = getF v g := fld_fldPut_ne v f.1 f.2 x g.1 g.2 h hn d

theorem bnat_mod_two (b : Bool) : bnat b % 2 = bnat b := by cases b <;> rfl
theorem bnat_eq_one (b : Bool) : bnat b = 1 ↔ b = true := by cases b <;> decide

section
variable (pol : Policy) (pin : Bool) (conv sat shed outl : Nat) (w : W64)

theorem getF_closeFlags_used : getF (closeFlags pol pin conv sat shed outl w) fUSED = 1 ↔ 0 < conv := by
  simp only [closeFlags]
  rw [getF_putF_ne _ fQUIETF fUSED _ (by decide) (by decide) (by decide),
    getF_putF_ne _ fSATF fUSED _ (by decide) (by decide) (by decide),
    getF_putF_same _ fUSED _ (by decide) (by decide)]
  simp [fUSED, bnat_mod_two, bnat_eq_one]

theorem getF_closeFlags_satf : getF (closeFlags pol pin conv sat shed outl w) fSATF = 1 ↔ 0 < sat := by
  simp only [closeFlags]
  rw [getF_putF_ne _ fQUIETF fSATF _ (by decide) (by decide) (by decide), getF_putF_same _ fSATF _ (by decide) (by decide)]
  simp [fSATF, bnat_mod_two, bnat_eq_one]

theorem getF_closeFlags_quietf : getF (closeFlags pol pin conv sat shed outl w) fQUIETF = 1 ↔
    0 < conv ∧ sat = 0 ∧ shed = 0 ∧ outl * 2 ^ 20 ≤ pol.downOutl * conv := by
  simp only [closeFlags]
  rw [getF_putF_same _ fQUIETF _ (by decide) (by decide)]
  simp [fQUIETF, bnat_mod_two, bnat_eq_one, and_assoc]

theorem getF_closeFlags_req : getF (closeFlags pol pin conv sat shed outl w) fREQ = 1 ↔
    0 < conv ∧ pin = false ∧
      (pol.upSat * conv < sat * 2 ^ 20 ∨ pol.upOutl * conv < outl * 2 ^ 20 ∨ pol.upShed * conv < shed * 2 ^ 20) := by
  simp only [closeFlags]
  rw [getF_putF_ne _ fQUIETF fREQ _ (by decide) (by decide) (by decide),
    getF_putF_ne _ fSATF fREQ _ (by decide) (by decide) (by decide),
    getF_putF_ne _ fUSED fREQ _ (by decide) (by decide) (by decide), getF_putF_same _ fREQ _ (by decide) (by decide)]
  simp [fREQ, bnat_mod_two, bnat_eq_one, and_assoc, or_assoc]

/-- The close leaves the fields of word 9 outside its four flags. -/
theorem getF_closeFlags_beside {f : Nat × Nat} (h : 7 ≤ f.2) : getF (closeFlags pol pin conv sat shed outl w) f = getF w f := by
  simp only [closeFlags]
  rw [getF_putF_ne _ fQUIETF f _ (by decide) (by decide) (.inr (lt_of_lt_of_le (by decide) h)),
    getF_putF_ne _ fSATF f _ (by decide) (by decide) (.inr (lt_of_lt_of_le (by decide) h)),
    getF_putF_ne _ fUSED f _ (by decide) (by decide) (.inr (lt_of_lt_of_le (by decide) h)),
    getF_putF_ne _ fREQ f _ (by decide) (by decide) (.inr (lt_of_lt_of_le (by decide) h))]

end

/-! One slot. -/

/-- Word 9 of a slot at the close. -/
def State.closedState (s : State) (p n : Nat) : W64 :=
  closeFlags (policyOf (s.almOf p).pol (s.almOf p).polC) (flag (s.confOf p n) 62) (fld (s.slotW n 12) 63 24)
    (fld (s.slotW n 11) 63 32) (fld (s.slotW n 11) 31 0) (fld (s.slotW n 12) 23 0) (s.slotW n 9)

/-- The words of a slot after the close. -/
def State.closedWord (s : State) (p n i : Nat) : W64 :=
  if i = 9 then s.closedState p n
  else if i = 10 then BitVec.ofNat 64 (fld (s.slotW n 10) 63 32)
  else if i = 11 ∨ i = 12 then 0 else s.slotW n i

theorem State.closeSlot_eq (s : State) (p n : Nat) : s.closeSlot p n =
    (((s.wr (almAddr n 9) (s.closedState p n)).wr (almAddr n 10) (BitVec.ofNat 64 (fld (s.slotW n 10) 63 32))).wr
      (almAddr n 11) 0).wr (almAddr n 12) 0 := (rfl)

theorem State.closeSlot_writesOnly (s : State) (p n : Nat) : WritesOnly s (s.closeSlot p n) (stepWords [n]) := by
  rw [State.closeSlot_eq]
  exact ((((WritesOnly.refl s _).wr _ (almAddr_mem_stepWords (by decide))).wr _ (almAddr_mem_stepWords (by decide))).wr _
    (almAddr_mem_stepWords (by decide))).wr _ (almAddr_mem_stepWords (by decide))

theorem State.slotW_closeSlot (s : State) (p n : Nat) {i : Nat} (hi : i < 16) :
    (s.closeSlot p n).slotW n i = s.closedWord p n i := by
  rw [State.closeSlot_eq]
  simp only [State.slotW_wr _ _ (show 9 < 16 by decide) hi, State.slotW_wr _ _ (show 10 < 16 by decide) hi,
    State.slotW_wr _ _ (show 11 < 16 by decide) hi, State.slotW_wr _ _ (show 12 < 16 by decide) hi, true_and, State.closedWord]
  obtain rfl | rfl | rfl | rfl | ⟨h9, h10, h11, h12⟩ :
    i = 9 ∨ i = 10 ∨ i = 11 ∨ i = 12 ∨ (i ≠ 9 ∧ i ≠ 10 ∧ i ≠ 11 ∧ i ≠ 12) := by omega
  · simp
  · simp
  · simp
  · simp
  · simp only [h9, h10, h11, h12, or_self, if_false]

/-- What the close gives a slot depends on the slot's own words, its word 8 in force and the partition's policy alone. -/
theorem State.closedWord_congr {s t : State} {p n i : Nat} (ha : t.almOf p = s.almOf p)
    (hw : ∀ j, j < 16 → t.slotW n j = s.slotW n j) (hi : i < 16) : t.closedWord p n i = s.closedWord p n i := by
  simp only [State.closedWord, State.closedState, State.confOf, ha, hw i hi, hw 8 (by decide), hw 9 (by decide), hw 10 (by decide),
    hw 11 (by decide), hw 12 (by decide)]

/-! Every slot of a list. -/

theorem State.each_cons {α : Type} (s : State) (x : α) (l : List α) (f : State → α → State) :
    s.each (x :: l) f = (f s x).each l f := (rfl)

theorem State.closeSlots_writesOnly (s : State) (p : Nat) (l : List Nat) :
    WritesOnly s (s.each l fun s n => s.closeSlot p n) (stepWords l) :=
  .each l s fun t n hn => (t.closeSlot_writesOnly p n).mono (stepWords_subset (by simpa using hn))

/-- Each slot of a list without repetition is closed once, from its words before. -/
theorem State.slotW_closeSlots {l : List Nat} (hl : l.Nodup) (s : State) (p : Nat) {n i : Nat} (hn : n ∈ l) (hi : i < 16) :
    (s.each l fun s n => s.closeSlot p n).slotW n i = s.closedWord p n i := by
  induction l generalizing s with
  | nil => cases hn
  | cons m r ih =>
    obtain ⟨hm, hr⟩ := List.nodup_cons.1 hl
    have head := s.closeSlot_writesOnly p m
    rw [State.each_cons]
    rcases List.mem_cons.1 hn with rfl | hn'
    · rw [((s.closeSlot p n).closeSlots_writesOnly p r).slotW hi (.inl hm), s.slotW_closeSlot p n hi]
    · have ne : n ∉ [m] := fun e => hm (List.mem_singleton.1 e ▸ hn')
      rw [ih hr _ hn']
      exact State.closedWord_congr (head.almOf p) (fun j hj => head.slotW hj (.inl ne)) hi

end Sys2Proof.Machine
end

section
/-! Reports that enter the words 10 to 12 of their slots (R170). -/

open Sys2Proof.Claim

namespace Sys2Proof.Machine

/-- Word `i` of a slot after a report has entered it. -/
def repWord (i : Nat) (v : W64) (r : AlmRep) : W64 :=
  if i = 10 then maxField v 63 32 (BitVec.ofNat 32 r.amax)
  else if i = 11 then satField (satField v 63 32 r.sat) 31 0 r.shed
  else if i = 12 then satField (satField v 63 24 r.conv) 23 0 r.outl else v

theorem repWord_amax (v : W64) (r : AlmRep) : repWord 10 v r = maxField v 63 32 (BitVec.ofNat 32 r.amax) := by
  simp [repWord]
theorem repWord_sat (v : W64) (r : AlmRep) : repWord 11 v r = satField (satField v 63 32 r.sat) 31 0 r.shed := by
  simp [repWord]
theorem repWord_conv (v : W64) (r : AlmRep) : repWord 12 v r = satField (satField v 63 24 r.conv) 23 0 r.outl := by
  simp [repWord]

theorem State.repNow_eq (s : State) (n : Nat) (r : AlmRep) : s.repNow n r =
    ((s.wr (almAddr n 10) (repWord 10 (s.slotW n 10) r)).wr (almAddr n 11) (repWord 11 (s.slotW n 11) r)).wr
      (almAddr n 12) (repWord 12 (s.slotW n 12) r) := by
  simp only [State.repNow, State.slotW_wr _ _ (show 10 < 16 by decide) (show 11 < 16 by decide),
    State.slotW_wr _ _ (show 10 < 16 by decide) (show 12 < 16 by decide),
    State.slotW_wr _ _ (show 11 < 16 by decide) (show 12 < 16 by decide), repWord_amax, repWord_sat, repWord_conv,
    Nat.reduceEqDiff, and_false, if_false]

theorem State.repNow_writesOnly (s : State) (n : Nat) (r : AlmRep) : WritesOnly s (s.repNow n r) (stepWords [n]) := by
  rw [State.repNow_eq]
  exact (((WritesOnly.refl s _).wr _ (almAddr_mem_stepWords (by decide))).wr _ (almAddr_mem_stepWords (by decide))).wr _
    (almAddr_mem_stepWords (by decide))

theorem State.slotW_repNow (s : State) (n : Nat) (r : AlmRep) {i : Nat} (hi : i < 16) :
    (s.repNow n r).slotW n i = repWord i (s.slotW n i) r := by
  rw [State.repNow_eq]
  simp only [State.slotW_wr _ _ (show 10 < 16 by decide) hi, State.slotW_wr _ _ (show 11 < 16 by decide) hi,
    State.slotW_wr _ _ (show 12 < 16 by decide) hi, true_and]
  split_ifs with h12 h11 h10
  · rw [h12]
  · rw [h11]
  · rw [h10]
  · simp only [repWord, h10, h11, h12, if_false]

theorem State.reports_writesOnly (s : State) (l : List AlmRep) :
    WritesOnly s (s.each l fun s r => s.repNow r.slot r) (stepWords (l.map (·.slot))) :=
  .each l s fun t r hr => (t.repNow_writesOnly r.slot r).mono (stepWords_subset (by simpa using ⟨r, hr, rfl⟩))

/-- A slot's words take the reports for the slot in their order. -/
theorem State.slotW_reports (s : State) (l : List AlmRep) (n : Nat) {i : Nat} (hi : i < 16) :
    (s.each l fun s r => s.repNow r.slot r).slotW n i = (l.filter (·.slot = n)).foldl (repWord i) (s.slotW n i) := by
  induction l generalizing s with
  | nil => rfl
  | cons r l ih =>
    rw [State.each_cons, ih]
    by_cases e : r.slot = n
    · subst e
      simp [s.slotW_repNow r.slot r hi]
    · have ne : n ∉ [r.slot] := fun h => e (List.mem_singleton.1 h).symm
      simp [e, (s.repNow_writesOnly r.slot r).slotW hi (.inl ne)]

/-! Fields of the words. -/

theorem fld_satField_same (v : W64) (hi lo x : Nat) (h : lo ≤ hi) (hn : hi < 64) :
    fld (satField v hi lo x) hi lo = min (fld v hi lo + x) (2 ^ (hi + 1 - lo) - 1) := by
  have : 0 < 2 ^ (hi + 1 - lo) := by positivity
  rw [satField, fld_fldPut_same _ _ _ _ h hn, Nat.mod_eq_of_lt (by omega)]

theorem fld_satField_ne (v : W64) (hi lo x hi' lo' : Nat) (h : lo ≤ hi) (hn : hi < 64) (d : hi' < lo ∨ hi < lo') :
    fld (satField v hi lo x) hi' lo' = fld v hi' lo' := fld_fldPut_ne _ _ _ _ _ _ h hn d

/-- A field that saturates at `m` with each report holds the saturated sum of the reports. -/
theorem fld_foldl_sat {f : W64 → AlmRep → W64} {g : AlmRep → Nat} {hi lo m : Nat}
    (h : ∀ v r, fld (f v r) hi lo = min (fld v hi lo + g r) m) (l : List AlmRep) (v : W64) (hv : fld v hi lo ≤ m) :
    fld (l.foldl f v) hi lo = min (fld v hi lo + (l.map g).sum) m := by
  induction l generalizing v with
  | nil => simp [hv]
  | cons r l ih =>
    rw [List.foldl_cons, ih _ (by rw [h]; omega), h, List.map_cons, List.sum_cons]
    omega

theorem fld_repWord_sat (v : W64) (r : AlmRep) : fld (repWord 11 v r) 63 32 = min (fld v 63 32 + r.sat) (2 ^ 32 - 1) := by
  rw [repWord_sat, fld_satField_ne _ _ _ _ _ _ (by decide) (by decide) (by decide),
    fld_satField_same _ _ _ _ (by decide) (by decide)]

theorem fld_repWord_shed (v : W64) (r : AlmRep) : fld (repWord 11 v r) 31 0 = min (fld v 31 0 + r.shed) (2 ^ 32 - 1) := by
  rw [repWord_sat, fld_satField_same _ _ _ _ (by decide) (by decide),
    fld_satField_ne _ _ _ _ _ _ (by decide) (by decide) (by decide)]

theorem fld_repWord_conv (v : W64) (r : AlmRep) : fld (repWord 12 v r) 63 24 = min (fld v 63 24 + r.conv) (2 ^ 40 - 1) := by
  rw [repWord_conv, fld_satField_ne _ _ _ _ _ _ (by decide) (by decide) (by decide),
    fld_satField_same _ _ _ _ (by decide) (by decide)]

theorem fld_repWord_outl (v : W64) (r : AlmRep) : fld (repWord 12 v r) 23 0 = min (fld v 23 0 + r.outl) (2 ^ 24 - 1) := by
  rw [repWord_conv, fld_satField_same _ _ _ _ (by decide) (by decide),
    fld_satField_ne _ _ _ _ _ _ (by decide) (by decide) (by decide)]

theorem fld_repWord_amax (v : W64) (r : AlmRep) : fld (repWord 10 v r) 63 32 = Claim.amaxOf (fld v 63 32) r := by
  rw [repWord_amax]
  unfold maxField Claim.amaxOf
  split
  · rw [fld_fldPut_same _ _ _ _ (by decide) (by decide), BitVec.toNat_ofNat]; exact Nat.mod_mod _ _
  · rfl

theorem fld_repWord_closed (v : W64) (r : AlmRep) : fld (repWord 10 v r) 31 0 = fld v 31 0 := by
  rw [repWord_amax, maxField]
  split
  · exact fld_fldPut_ne _ _ _ _ _ _ (by decide) (by decide) (by decide)
  · rfl

theorem foldl_repWord_beside {i : Nat} (h : i ≠ 10 ∧ i ≠ 11 ∧ i ≠ 12) (l : List AlmRep) (v : W64) :
    l.foldl (repWord i) v = v := by
  obtain ⟨h10, h11, h12⟩ := h
  induction l generalizing v with
  | nil => rfl
  | cons r l ih => rw [List.foldl_cons, ih]; simp only [repWord, h10, h11, h12, if_false]

theorem fld_foldl_amax (l : List AlmRep) (v : W64) : fld (l.foldl (repWord 10) v) 63 32 = l.foldl Claim.amaxOf (fld v 63 32) :=
  (List.foldl_hom (fun v => fld v 63 32) fun v r => (fld_repWord_amax v r).symm).symm

theorem fld_foldl_closed (l : List AlmRep) (v : W64) : fld (l.foldl (repWord 10) v) 31 0 = fld v 31 0 := by
  induction l generalizing v with
  | nil => rfl
  | cons r l ih => rw [List.foldl_cons, ih, fld_repWord_closed]

end Sys2Proof.Machine
end

section
/-! The close of a step (R171-R173, R182) in four parts: the slots close, the held reports enter, the step is pending, and a
storm is marked. -/

open Sys2Proof.Claim

namespace Sys2Proof.Machine

@[simp] theorem State.rd_setAlm (s : State) (p : Nat) (x : AlmSt) (a : Nat) : (s.setAlm p x).rd a = s.rd a := (rfl)
@[simp] theorem State.slotW_setAlm (s : State) (p : Nat) (x : AlmSt) (n i : Nat) : (s.setAlm p x).slotW n i = s.slotW n i := (rfl)
@[simp] theorem State.almOf_setAlm (s : State) (p : Nat) (x : AlmSt) : (s.setAlm p x).almOf p = x := SMap.get_set_same _ _ _ _

theorem State.confOf_setAlm (s : State) (p n : Nat) {x : AlmSt} (h : x.conf = (s.almOf p).conf) :
    (s.setAlm p x).confOf p n = s.confOf p n := by
  simp only [State.confOf, State.almOf_setAlm, State.slotW_setAlm, h]

theorem State.setAlm_ctxSame (s : State) (p : Nat) (x : AlmSt) : CtxSame s (s.setAlm p x) := by intro c; cases c <;> rfl
theorem State.setAlm_memSame (s : State) (p : Nat) (x : AlmSt) : MemSame s (s.setAlm p x) := ⟨rfl, rfl, rfl, rfl, rfl, rfl⟩

theorem State.almOf_policyIn (s : State) (p : Nat) : (s.policyIn p).almOf p =
    { s.almOf p with pol := s.rd (R.PART_ALM_POLICY p), polC := s.rd (R.PART_ALM_POLICY_C p) } := s.almOf_setAlm p _

theorem State.confOf_policyIn (s : State) (p n : Nat) : (s.policyIn p).confOf p n = s.confOf p n := s.confOf_setAlm p n rfl

theorem State.validSlots_policyIn (s : State) (p : Nat) : (s.policyIn p).validSlots p = s.validSlots p :=
  State.validSlots_congr rfl fun n _ => s.confOf_policyIn p n

/-- The reports held for the step after the one that closes (R171). -/
def State.nextReports (s : State) (p : Nat) : List AlmRep := (s.almOf p).held.filter (·.step = (s.almOf p).closed + 1)

/-- The valid slots closed under the policy in force. -/
def State.slotsClosed (s : State) (p : Nat) : State :=
  (s.policyIn p).each (s.validSlots p) fun s n => s.closeSlot p n

/-- The step is counted as closed, and the reports held for the next step leave the list. -/
def State.heldTaken (s : State) (p : Nat) : State :=
  s.setAlm p { s.almOf p with
    closed := (s.almOf p).closed + 1, held := (s.almOf p).held.filter (·.step != (s.almOf p).closed + 1) }

theorem State.confOf_heldTaken (s : State) (p n : Nat) : (s.heldTaken p).confOf p n = s.confOf p n := s.confOf_setAlm p n rfl

/-- The slots of the Almanac as the close leaves them. -/
def State.slotsDone (s : State) (p : Nat) : State :=
  ((s.slotsClosed p).heldTaken p).each (s.nextReports p) fun s r => s.repNow r.slot r

/-- OPEN and PEND of PART.ALM_STEP at the close. -/
def State.pendStep (s : State) (p : Nat) (opened : Bool) : State :=
  (s.wrF (R.PART_ALM_STEP p) F.PART_ALM_STEP_OPEN (bnat opened)).wrF (R.PART_ALM_STEP p) F.PART_ALM_STEP_PEND 1

/-- The mark of a storm, or of none (R182). -/
def State.markStorm (s : State) (p : Nat) : State :=
  if s.stormy p then
    ((s.wrF (R.PART_ALM_STEP p) F.PART_ALM_STEP_STORM 1).raise p vOVF).count (R.PART_ALM_STORM_CNT p) 1
  else s.wrF (R.PART_ALM_STEP p) F.PART_ALM_STEP_STORM 0

/-! The slots. -/

theorem State.slotsClosed_writesOnly (s : State) (p : Nat) :
    WritesOnly (s.policyIn p) (s.slotsClosed p) (stepWords (s.validSlots p)) := State.closeSlots_writesOnly _ _ _

theorem State.almOf_slotsClosed (s : State) (p : Nat) : (s.slotsClosed p).almOf p =
    { s.almOf p with pol := s.rd (R.PART_ALM_POLICY p), polC := s.rd (R.PART_ALM_POLICY_C p) } :=
  ((s.slotsClosed_writesOnly p).almOf p).trans (s.almOf_policyIn p)

theorem State.slotsDone_writesOnly (s : State) (p : Nat) :
    WritesOnly ((s.slotsClosed p).heldTaken p) (s.slotsDone p) (stepWords ((s.nextReports p).map (·.slot))) :=
  State.reports_writesOnly _ _

theorem State.nextReports_slotsClosed (s : State) (p : Nat) : (s.slotsClosed p).nextReports p = s.nextReports p := by
  rw [State.nextReports, State.almOf_slotsClosed, State.nextReports]

theorem State.almClose_eq (s : State) (p : Nat) :
    s.almClose p = ((s.slotsDone p).pendStep p (!(s.nextReports p).isEmpty)).markStorm p := by
  rw [State.slotsDone, ← State.nextReports_slotsClosed, State.slotsClosed, ← State.validSlots_policyIn]
  unfold State.almClose State.markStorm State.pendStep State.heldTaken State.nextReports
  rfl

theorem State.almOf_slotsDone (s : State) (p : Nat) : (s.slotsDone p).almOf p =
    { s.almOf p with
      closed := (s.almOf p).closed + 1, held := (s.almOf p).held.filter (·.step != (s.almOf p).closed + 1),
      pol := s.rd (R.PART_ALM_POLICY p), polC := s.rd (R.PART_ALM_POLICY_C p) } := by
  rw [(s.slotsDone_writesOnly p).almOf, State.heldTaken, State.almOf_setAlm, State.almOf_slotsClosed]

theorem State.confOf_slotsDone (s : State) (p n : Nat) : (s.slotsDone p).confOf p n = s.confOf p n := by
  rw [(s.slotsDone_writesOnly p).confOf, State.confOf_heldTaken, (s.slotsClosed_writesOnly p).confOf,
    State.confOf_policyIn]

theorem State.slotsDone_ctxSame (s : State) (p : Nat) : CtxSame s (s.slotsDone p) := fun c =>
  ((s.slotsDone_writesOnly p).ctxSame c).trans <| (State.setAlm_ctxSame _ _ _ c).trans <|
    ((s.slotsClosed_writesOnly p).ctxSame c).trans (State.setAlm_ctxSame _ _ _ c)

theorem memSame_trans {s t u : State} (h : MemSame s t) (k : MemSame t u) : MemSame s u := by
  obtain ⟨h1, h2, h3, h4, h5, h6⟩ := h
  obtain ⟨k1, k2, k3, k4, k5, k6⟩ := k
  exact ⟨k1.trans h1, k2.trans h2, k3.trans h3, k4.trans h4, k5.trans h5, k6.trans h6⟩

theorem State.slotsDone_memSame (s : State) (p : Nat) : MemSame s (s.slotsDone p) :=
  memSame_trans (State.setAlm_memSame _ _ _) <| memSame_trans (s.slotsClosed_writesOnly p).memSame <|
    memSame_trans (State.setAlm_memSame _ _ _) (s.slotsDone_writesOnly p).memSame

/-- Words other than 9 to 12, and slots that neither close nor take a report, are as before. -/
theorem State.slotW_slotsDone_ne (s : State) (p : Nat) {n i : Nat} (hi : i < 16)
    (d : n ∉ s.validSlots p ++ (s.nextReports p).map (·.slot) ∨ i < 9 ∨ 12 < i) :
    (s.slotsDone p).slotW n i = s.slotW n i := by
  rw [List.mem_append, not_or] at d
  rw [(s.slotsDone_writesOnly p).slotW hi (d.imp_left And.right), State.heldTaken, State.slotW_setAlm,
    (s.slotsClosed_writesOnly p).slotW hi (d.imp_left And.left)]
  rfl

/-- A valid slot is closed, and then takes the reports held for the next step. -/
theorem State.slotW_slotsDone (s : State) (p : Nat) {n i : Nat} (hn : n ∈ s.validSlots p) (hi : i < 16) :
    (s.slotsDone p).slotW n i =
      ((s.nextReports p).filter (·.slot = n)).foldl (repWord i) ((s.policyIn p).closedWord p n i) := by
  rw [State.slotsDone, State.slotW_reports _ _ _ hi, State.heldTaken, State.slotW_setAlm, State.slotsClosed,
    State.slotW_closeSlots (s.validSlots_nodup p) _ _ hn hi]

section
variable {s : State} {p : Nat} (hr : AlmRangeOk s p) (hh : ∀ r ∈ (s.almOf p).held, r.slot < 16384)
include hr hh

theorem State.rd_slotsDone {a : Nat} (ha : 0x38000000 ≤ a) : (s.slotsDone p).rd a = s.rd a := by
  have hs : ∀ n ∈ (s.nextReports p).map (·.slot), n < 16384 := by
    intro n hn
    obtain ⟨r, hm, rfl⟩ := List.mem_map.1 hn
    exact hh r (List.mem_filter.1 hm).1
  rw [(s.slotsDone_writesOnly p).rd_part hs ha, State.heldTaken, State.rd_setAlm,
    (s.slotsClosed_writesOnly p).rd_part (fun n hn => State.validSlots_lt hr hn) ha]
  rfl

theorem State.almRangeOk_slotsDone : AlmRangeOk (s.slotsDone p) p := by
  unfold AlmRangeOk State.almBase State.almCount State.rdF at *
  rwa [State.rd_slotsDone hr hh (by unfold R.PART_ALM_RANGE partBase; omega)]

theorem State.validSlots_slotsDone : (s.slotsDone p).validSlots p = s.validSlots p :=
  State.validSlots_congr (State.rd_slotsDone hr hh (by unfold R.PART_ALM_RANGE partBase; omega)) fun n _ => s.confOf_slotsDone p n

end

/-! Words 9 to 12 of a valid slot. -/

section
variable (s : State) {p n : Nat} (hn : n ∈ s.validSlots p)
include hn

theorem State.slotW_slotsDone_state : (s.slotsDone p).slotW n 9 =
    closeFlags (policyOf (s.rd (R.PART_ALM_POLICY p)) (s.rd (R.PART_ALM_POLICY_C p))) (flag (s.confOf p n) 62)
      (fld (s.slotW n 12) 63 24) (fld (s.slotW n 11) 63 32) (fld (s.slotW n 11) 31 0) (fld (s.slotW n 12) 23 0) (s.slotW n 9) := by
  rw [s.slotW_slotsDone p hn (by decide), foldl_repWord_beside (by decide), State.closedWord, if_pos rfl, State.closedState,
    State.almOf_policyIn, State.confOf_policyIn]
  rfl

theorem State.slotW_slotsDone_amax : (s.slotsDone p).slotW n 10 =
    ((s.nextReports p).filter (·.slot = n)).foldl (repWord 10) (BitVec.ofNat 64 (fld (s.slotW n 10) 63 32)) :=
  s.slotW_slotsDone p hn (by decide)

theorem State.slotW_slotsDone_counts {i : Nat} (h : i = 11 ∨ i = 12) : (s.slotsDone p).slotW n i =
    ((s.nextReports p).filter (·.slot = n)).foldl (repWord i) 0 := by
  rw [s.slotW_slotsDone p hn (by omega), State.closedWord, if_neg (by omega), if_neg (by omega), if_pos h]

end

/-- What a field of a closed count holds: the saturated sum of the reports. -/
theorem fld_foldl_sat_zero {f : W64 → AlmRep → W64} {g : AlmRep → Nat} {hi lo m : Nat}
    (h : ∀ v r, fld (f v r) hi lo = min (fld v hi lo + g r) m) (l : List AlmRep) :
    fld (l.foldl f 0) hi lo = min (l.map g).sum m := by
  have z : fld 0 hi lo = 0 := by simp [fld, bitsOf]
  rw [fld_foldl_sat h l 0 (by omega), z, Nat.zero_add]

theorem fld_ofNat_fld_high (v : W64) : fld (BitVec.ofNat 64 (fld v 63 32)) 63 32 = 0 ∧
    fld (BitVec.ofNat 64 (fld v 63 32)) 31 0 = fld v 63 32 := by
  have h : fld v 63 32 < 2 ^ 32 := fld_lt v 63 32
  generalize fld v 63 32 = x at h
  simp only [fld, bitsOf, BitVec.toNat_ofNat]
  omega

/-! The step's registers. -/

theorem almStep_ne_vrdOwn (p : Nat) : R.PART_ALM_STEP p ≠ R.PART_VRD_OWN p := by
  unfold R.PART_ALM_STEP R.PART_VRD_OWN; omega

theorem almStep_ne_stormCnt (p : Nat) : R.PART_ALM_STEP p ≠ R.PART_ALM_STORM_CNT p := by
  unfold R.PART_ALM_STEP R.PART_ALM_STORM_CNT; omega

theorem vrdOwn_ne_stormCnt (p : Nat) : R.PART_VRD_OWN p ≠ R.PART_ALM_STORM_CNT p := by
  unfold R.PART_VRD_OWN R.PART_ALM_STORM_CNT; omega

/-- The registers that the close of a step writes beside the slots. -/
def closeRegs (p : Nat) : List Nat := [R.PART_ALM_STEP p, R.PART_VRD_OWN p, R.PART_ALM_STORM_CNT p]

theorem le_of_mem_closeRegs {p a : Nat} (h : a ∈ closeRegs p) : 0x38000000 ≤ a := by
  simp only [closeRegs, List.mem_cons, List.not_mem_nil, or_false, R.PART_ALM_STEP, R.PART_VRD_OWN, R.PART_ALM_STORM_CNT,
    partBase] at h
  omega

theorem WritesOnly.slotW_closeRegs {s t : State} {p n i : Nat} (h : WritesOnly s t (closeRegs p)) (hn : n < 16384) (hi : i < 16) :
    t.slotW n i = s.slotW n i :=
  h.2 _ fun hm => absurd (le_of_mem_closeRegs hm) (by have := almAddr_lt hn hi; omega)

theorem WritesOnly.confOf_closeRegs {s t : State} {p n : Nat} (h : WritesOnly s t (closeRegs p)) (hn : n < 16384) :
    t.confOf p n = s.confOf p n := by
  unfold State.confOf
  rw [h.almOf, h.slotW_closeRegs hn (by decide)]

theorem WritesOnly.validSlots_closeRegs {s t : State} {p : Nat} (h : WritesOnly s t (closeRegs p)) (hr : AlmRangeOk s p) :
    t.validSlots p = s.validSlots p :=
  State.validSlots_congr
    (h.2 _ (by simp [closeRegs, R.PART_ALM_RANGE, R.PART_ALM_STEP, R.PART_VRD_OWN, R.PART_ALM_STORM_CNT]))
    fun _ hn => h.confOf_closeRegs (State.almSlots_lt hr hn)

theorem State.pendStep_writesOnly (s : State) (p : Nat) (b : Bool) : WritesOnly s (s.pendStep p b) (closeRegs p) :=
  ((WritesOnly.refl s _).wr _ (by simp [closeRegs])).wr _ (by simp [closeRegs])

theorem State.markStorm_writesOnly (s : State) (p : Nat) : WritesOnly s (s.markStorm p) (closeRegs p) := by
  unfold State.markStorm
  split
  · exact (((WritesOnly.refl s _).wr _ (by simp [closeRegs])).wr _ (by simp [closeRegs])).count _ (by simp [closeRegs])
  · exact (WritesOnly.refl s _).wr _ (by simp [closeRegs])

theorem State.rdF_pendStep_open (s : State) (p : Nat) (b : Bool) :
    (s.pendStep p b).rdF (R.PART_ALM_STEP p) F.PART_ALM_STEP_OPEN = bnat b := by
  rw [State.pendStep, State.rdF_wrF_beside _ _ _ _ _ (by decide) (by decide) (by decide),
    State.rdF_wrF_same _ _ _ _ (by decide) (by decide)]
  exact bnat_mod_two b

theorem State.rdF_pendStep_pend (s : State) (p : Nat) (b : Bool) :
    (s.pendStep p b).rdF (R.PART_ALM_STEP p) F.PART_ALM_STEP_PEND = 1 := by
  rw [State.pendStep, State.rdF_wrF_same _ _ _ _ (by decide) (by decide)]
  rfl

theorem State.rd_pendStep_ne (s : State) {p a : Nat} (b : Bool) (h : a ≠ R.PART_ALM_STEP p) : (s.pendStep p b).rd a = s.rd a := by
  rw [State.pendStep, State.rd_wrF_ne _ _ _ h, State.rd_wrF_ne _ _ _ h]

theorem State.rd_raise_same (s : State) (p k : Nat) :
    (s.raise p k).rd (R.PART_VRD_OWN p) = s.rd (R.PART_VRD_OWN p) ||| BitVec.ofNat 64 (2 ^ k) := s.rd_wr_same _ _

theorem State.rd_raise_ne (s : State) {p a : Nat} (k : Nat) (h : a ≠ R.PART_VRD_OWN p) : (s.raise p k).rd a = s.rd a :=
  s.rd_wr_ne _ h

theorem flag_or_twoPow (v : W64) {k : Nat} (hk : k < 64) : flag (v ||| BitVec.ofNat 64 (2 ^ k)) k = true := by
  have h : (v ||| BitVec.ofNat 64 (2 ^ k)).toNat.testBit k = true := by
    rw [BitVec.toNat_or, BitVec.toNat_ofNat, Nat.mod_eq_of_lt (Nat.pow_lt_pow_right (by decide) hk)]
    simp
  rw [Nat.testBit_eq_decide_div_mod_eq, decide_eq_true_eq] at h
  simpa [flag, fld, bitsOf] using h

section
variable {s : State} {p : Nat}

theorem State.markStorm_of_stormy (h : s.stormy p = true) : s.markStorm p =
    ((s.wrF (R.PART_ALM_STEP p) F.PART_ALM_STEP_STORM 1).raise p vOVF).count (R.PART_ALM_STORM_CNT p) 1 := if_pos h

theorem State.markStorm_of_calm (h : s.stormy p = false) :
    s.markStorm p = s.wrF (R.PART_ALM_STEP p) F.PART_ALM_STEP_STORM 0 := if_neg (by simp [h])

/-- PART.ALM_STEP takes the mark in its field STORM alone. -/
theorem State.rd_markStorm_step : (s.markStorm p).rd (R.PART_ALM_STEP p) =
    (s.wrF (R.PART_ALM_STEP p) F.PART_ALM_STEP_STORM (bnat (s.stormy p))).rd (R.PART_ALM_STEP p) := by
  cases h : s.stormy p
  · rw [State.markStorm_of_calm h]; rfl
  · rw [State.markStorm_of_stormy h, State.rd_count_ne _ _ (almStep_ne_stormCnt p), State.rd_raise_ne _ _ (almStep_ne_vrdOwn p)]
    rfl

theorem State.rdF_markStorm_storm : (s.markStorm p).rdF (R.PART_ALM_STEP p) F.PART_ALM_STEP_STORM = bnat (s.stormy p) := by
  rw [State.rdF, State.rd_markStorm_step, ← State.rdF, State.rdF_wrF_same _ _ _ _ (by decide) (by decide)]
  exact bnat_mod_two _

theorem State.rdF_markStorm_beside {g : Nat × Nat} (d : 61 < g.2) :
    (s.markStorm p).rdF (R.PART_ALM_STEP p) g = s.rdF (R.PART_ALM_STEP p) g := by
  rw [State.rdF, State.rd_markStorm_step, ← State.rdF, State.rdF_wrF_beside _ _ _ _ _ (by decide) (by decide) (.inr d)]

theorem State.flag_markStorm_ovf (h : s.stormy p = true) : flag ((s.markStorm p).rd (R.PART_VRD_OWN p)) vOVF = true := by
  rw [State.markStorm_of_stormy h, State.rd_count_ne _ _ (vrdOwn_ne_stormCnt p), State.rd_raise_same]
  exact flag_or_twoPow _ (by decide)

theorem State.rd_markStorm_cnt (h : s.stormy p = true) :
    (s.markStorm p).rd (R.PART_ALM_STORM_CNT p) = satAdd64 (s.rd (R.PART_ALM_STORM_CNT p)) 1 := by
  rw [State.markStorm_of_stormy h, State.rd_count_same, State.rd_raise_ne _ _ (vrdOwn_ne_stormCnt p).symm,
    State.rd_wrF_ne _ _ _ (almStep_ne_stormCnt p).symm]

theorem State.rd_markStorm_own (h : s.stormy p = false) :
    (s.markStorm p).rd (R.PART_VRD_OWN p) = s.rd (R.PART_VRD_OWN p) := by
  rw [State.markStorm_of_calm h, State.rd_wrF_ne _ _ _ (almStep_ne_vrdOwn p).symm]

end

/-- Whether a step is a storm depends on the valid slots, their words 8 in force and their words 9, and the policy alone. -/
theorem State.stormy_iff {s t u : State} {p : Nat} (hv : u.validSlots p = s.validSlots p)
    (hc : ∀ n ∈ s.validSlots p, u.confOf p n = s.confOf p n) (hw : ∀ n ∈ s.validSlots p, u.slotW n 9 = t.slotW n 9) :
    let live := (s.validSlots p).filter fun n => !flag (s.confOf p n) 62 && getF (t.slotW n 9) fUSED = 1
    let q := (live.filter fun n => getF (t.slotW n 9) fREQ = 1).length
    u.stormy p = true ↔ 0 < live.length ∧ fld (u.almOf p).pol 15 8 * live.length < q * 256 := by
  have live : ((s.validSlots p).filter fun n => !flag (u.confOf p n) 62 && getF (u.slotW n 9) fUSED = 1) =
      (s.validSlots p).filter fun n => !flag (s.confOf p n) 62 && getF (t.slotW n 9) fUSED = 1 :=
    List.filter_congr fun n hn => by rw [hc n hn, hw n hn]
  have req : ∀ l ⊆ s.validSlots p,
      (l.filter fun n => getF (u.slotW n 9) fREQ = 1) = l.filter fun n => getF (t.slotW n 9) fREQ = 1 :=
    fun l hl => List.filter_congr fun n hn => by rw [hw n (hl hn)]
  simp only [State.stormy, hv, live, req _ (List.filter_subset_self _), Bool.and_eq_true, decide_eq_true_eq]

end Sys2Proof.Machine
end

section
/-! The close of a step as the spec states it (R171, R172, R182). -/

open Sys2Proof.Machine

namespace Sys2Proof.Claim

theorem exec_almanacClose {p : Fin 64} {s : State} (h1 : (s.almOf p).closed < (s.almOf p).contrib)
    (h2 : (s.almOf p).closed = (s.almOf p).ended) (h3 : s.passesIn p = true) :
    exec (.almanacClose p) s = .next (s.almClose p) := by
  change execAlmanacClose p s = _
  simp only [execAlmanacClose, decide_eq_true h1, decide_eq_true h2, h3, Bool.and_self, if_true]

/-- After the slots, the close of a step writes the registers of the step alone. -/
theorem almClose_writesOnly (s : State) (p : Nat) : WritesOnly (s.slotsDone p) (s.almClose p) (closeRegs p) := by
  rw [State.almClose_eq]
  exact (State.pendStep_writesOnly _ _ _).trans (State.markStorm_writesOnly _ _)

theorem slotsBut_almClose {s : State} {p : Nat} :
    SlotsBut s (s.almClose p) (s.validSlots p ++ (s.nextReports p).map (·.slot)) := fun n i hn hi d => by
  rw [(almClose_writesOnly s p).slotW_closeRegs hn hi, s.slotW_slotsDone_ne p hi (.inl d)]

/-- The step is a storm by the flags that the close leaves (R182). -/
theorem stormy_pendStep_iff {s : State} {p : Nat} (hr : AlmRangeOk s p)
    (hh : ∀ r ∈ (s.almOf p).held, r.slot < 16384) (b : Bool) :
    let live := (s.validSlots p).filter fun n => !flag (s.confOf p n) 62 && getF ((s.almClose p).slotW n 9) fUSED = 1
    let q := (live.filter fun n => getF ((s.almClose p).slotW n 9) fREQ = 1).length
    ((s.slotsDone p).pendStep p b).stormy p = true ↔
      0 < live.length ∧ fld (s.rd (R.PART_ALM_POLICY p)) 15 8 * live.length < q * 256 := by
  have pend := (s.slotsDone p).pendStep_writesOnly p b
  have valid : ((s.slotsDone p).pendStep p b).validSlots p = s.validSlots p :=
    (pend.validSlots_closeRegs (State.almRangeOk_slotsDone hr hh)).trans (State.validSlots_slotsDone hr hh)
  have conf : ∀ n ∈ s.validSlots p, ((s.slotsDone p).pendStep p b).confOf p n = s.confOf p n := fun n hn =>
    (pend.confOf_closeRegs (State.validSlots_lt hr hn)).trans (s.confOf_slotsDone p n)
  have word : ∀ n ∈ s.validSlots p, ((s.slotsDone p).pendStep p b).slotW n 9 = (s.almClose p).slotW n 9 := fun n hn =>
    (pend.slotW_closeRegs (State.validSlots_lt hr hn) (by decide)).trans
      ((almClose_writesOnly s p).slotW_closeRegs (State.validSlots_lt hr hn) (by decide)).symm
  have policy : (((s.slotsDone p).pendStep p b).almOf p).pol = s.rd (R.PART_ALM_POLICY p) := by
    rw [pend.almOf, State.almOf_slotsDone]
  rw [← policy]
  exact State.stormy_iff valid conf word

/-- Settles O19: the close is the slots' close, the entry of the held reports, and the writes of the step's registers; each
clause is read off the part that makes it true, and the other parts leave it. -/
theorem almanacClose : Obligations.AlmanacClose := by
  intro p s h1 h2 h3 hh hr next pv pol
  have regs := almClose_writesOnly s p
  have slot : ∀ {n i}, n ∈ s.validSlots p → i < 16 → (s.almClose p).slotW n i = (s.slotsDone p).slotW n i :=
    fun hn hi => regs.slotW_closeRegs (State.validSlots_lt hr hn) hi
  have own : ∀ {a}, a ∈ closeRegs p → (s.slotsDone p).rd a = s.rd a :=
    fun ha => State.rd_slotsDone hr hh (le_of_mem_closeRegs ha)
  refine ⟨s.almClose p, exec_almanacClose h1 h2 h3, ?_, ?_, ?_, ?_, ?slots, slotsBut_almClose, ?_, ?_, ?storm⟩
  · rw [regs.almOf, State.almOf_slotsDone]
  · rw [regs.almOf, State.almOf_slotsDone]
    exact List.filter_congr fun r _ => by rw [decide_not]; rfl
  · rw [State.almClose_eq, State.rdF_markStorm_beside (by decide), State.rdF_pendStep_open]
    change bnat (!next.isEmpty) = _
    cases next <;> rfl
  · rw [State.almClose_eq, State.rdF_markStorm_beside (by decide), State.rdF_pendStep_pend]
  case slots =>
    intro n hn conv outl sat shed pin w rs
    have w9 : w = closeFlags pol pin conv sat shed outl (s.slotW n 9) :=
      (slot hn (by decide)).trans (s.slotW_slotsDone_state hn)
    have w10 := (slot hn (by decide)).trans (s.slotW_slotsDone_amax hn)
    have w11 := (slot hn (by decide)).trans (s.slotW_slotsDone_counts hn (.inl rfl))
    have w12 := (slot hn (by decide)).trans (s.slotW_slotsDone_counts hn (.inr rfl))
    obtain ⟨high, low⟩ := fld_ofNat_fld_high (s.slotW n 10)
    have wide : ∀ f ∈ [fPOS, fFMT, fSTNS, fXH, fCOLD, fHOLD, fQUIET, fHPTR, fHCNT], 7 ≤ f.2 := by decide
    rw [w9, w10, w11, w12]
    refine ⟨getF_closeFlags_used .., getF_closeFlags_satf .., getF_closeFlags_quietf .., getF_closeFlags_req ..,
      fun f hf => getF_closeFlags_beside _ _ _ _ _ _ _ (wide f hf), ?_, ?_, fld_foldl_sat_zero fld_repWord_sat _,
      fld_foldl_sat_zero fld_repWord_shed _, fld_foldl_sat_zero fld_repWord_conv _, fld_foldl_sat_zero fld_repWord_outl _, ?_⟩
    · rw [fld_foldl_closed, low]
    · rw [fld_foldl_amax, high]; rfl
    · intro i hi
      rw [slot hn (by omega), s.slotW_slotsDone_ne p (by omega) (.inr (by omega))]
  · exact fun c => (regs.ctxSame c).trans (s.slotsDone_ctxSame p c)
  · exact memSame_trans (s.slotsDone_memSame p) regs.memSame
  case storm =>
    intro live q
    have marked := stormy_pendStep_iff hr hh (!(s.nextReports p).isEmpty)
    rw [State.almClose_eq]
    split_ifs with h
    · have storm := marked.2 h
      refine ⟨State.rdF_markStorm_storm.trans (congrArg bnat storm), State.flag_markStorm_ovf storm, ?_⟩
      rw [State.rd_markStorm_cnt storm, State.rd_pendStep_ne _ _ (almStep_ne_stormCnt p).symm, own (by simp [closeRegs])]
    · have calm := Bool.eq_false_iff.2 fun storm => h (marked.1 storm)
      refine ⟨State.rdF_markStorm_storm.trans (congrArg bnat calm), ?_⟩
      rw [State.rd_markStorm_own calm, State.rd_pendStep_ne _ _ (almStep_ne_vrdOwn p).symm, own (by simp [closeRegs])]

end Sys2Proof.Claim
end

section
/-! Two verdict records combined (R249): the counts and the norm saturate, and a saturated sum does not depend on its order. -/

namespace Sys2Proof.Machine

/-! Stream counts. -/

theorem length_sumCounts (a b : List Nat) : (sumCounts a b).length = 16 := by simp [sumCounts]

theorem getD_sumCounts (a b : List Nat) {i : Nat} (h : i < 16) :
    (sumCounts a b).getD i 0 = min (a.getD i 0 + b.getD i 0) (2 ^ 32 - 1) := by
  simp [sumCounts, h]

theorem sumCounts_comm (a b : List Nat) : sumCounts a b = sumCounts b a := by
  simp only [sumCounts, Nat.add_comm]

theorem sumCounts_assoc (a b c : List Nat) : sumCounts (sumCounts a b) c = sumCounts a (sumCounts b c) := by
  refine List.map_congr_left fun i hi => ?_
  rw [getD_sumCounts a b (List.mem_range.1 hi), getD_sumCounts b c (List.mem_range.1 hi)]
  omega

/-! The norm. -/

/-- The norm sum as a record holds it (R249). -/
def capNsq (n : Nat) : Nat := if nsqTop ≤ n then nsqTop - 1 else n

theorem combineRec_nsq (a b : VerdictRec) : (combineRec a b).nsq = capNsq (a.nsq + b.nsq) := by
  simp only [combineRec, capNsq]

theorem combineRec_inf (a b : VerdictRec) :
    (combineRec a b).inf = (a.inf || b.inf || decide (nsqTop ≤ a.nsq + b.nsq)) := by
  simp only [combineRec]

theorem capNsq_eq_min (n : Nat) : capNsq n = min n (nsqTop - 1) := by
  have : 0 < nsqTop := by rw [nsqTop]; positivity
  unfold capNsq
  split <;> omega

theorem capNsq_add_left (n m : Nat) : capNsq (capNsq n + m) = capNsq (n + m) := by
  simp only [capNsq_eq_min]; omega

/-- A sum reaches the top where its first part did, or what is held of that part does with the rest. -/
theorem nsqTop_le_add_iff (n m : Nat) : nsqTop ≤ n + m ↔ nsqTop ≤ n ∨ nsqTop ≤ capNsq n + m := by
  rw [capNsq_eq_min]; omega

/-! The record. -/

/-- Records that agree in every field are the same. -/
theorem verdictRec_ext {a b : VerdictRec} (verdict : a.verdict = b.verdict) (step : a.step = b.step)
    (group : a.group = b.group) (nsq : a.nsq = b.nsq) (inf : a.inf = b.inf) (nan : a.nan = b.nan) (mcount : a.mcount = b.mcount)
    (appMin : a.appMin = b.appMin) (appMax : a.appMax = b.appMax) (sent : a.sent = b.sent) (recv : a.recv = b.recv) : a = b := by
  cases a
  cases b
  simp_all only

theorem combineRec_nsq_assoc (a b c : VerdictRec) :
    (combineRec (combineRec a b) c).nsq = (combineRec a (combineRec b c)).nsq := by
  simp only [combineRec_nsq]
  rw [capNsq_add_left, Nat.add_comm a.nsq (capNsq _), capNsq_add_left, Nat.add_comm _ a.nsq, Nat.add_assoc]

/-- INF of three records combined: one of them has it, or their exact sum reaches the top. -/
theorem combineRec_inf_three (a b c : VerdictRec) : (combineRec (combineRec a b) c).inf =
    (a.inf || b.inf || c.inf || decide (nsqTop ≤ a.nsq + b.nsq + c.nsq)) := by
  rw [decide_eq_decide.2 (nsqTop_le_add_iff (a.nsq + b.nsq) c.nsq), Bool.decide_or, combineRec_inf, combineRec_nsq, combineRec_inf,
    Bool.or_right_comm (a.inf || b.inf), Bool.or_assoc (a.inf || b.inf || c.inf)]

theorem combineRec_inf_comm (a b : VerdictRec) : (combineRec a b).inf = (combineRec b a).inf := by
  rw [combineRec_inf, combineRec_inf, Bool.or_comm a.inf, Nat.add_comm]

theorem combineRec_inf_assoc (a b c : VerdictRec) :
    (combineRec (combineRec a b) c).inf = (combineRec a (combineRec b c)).inf := by
  rw [combineRec_inf_comm a, combineRec_inf_three, combineRec_inf_three, Nat.add_comm (b.nsq + c.nsq), ← Nat.add_assoc,
    Bool.or_comm _ a.inf, ← Bool.or_assoc]

theorem combineRec_assoc (a b c : VerdictRec) : combineRec (combineRec a b) c = combineRec a (combineRec b c) :=
  verdictRec_ext (BitVec.or_assoc ..) rfl rfl (combineRec_nsq_assoc a b c) (combineRec_inf_assoc a b c) (Bool.or_assoc ..)
    (Nat.add_assoc ..) (Nat.min_assoc ..) (Nat.max_assoc ..) (sumCounts_assoc ..) (sumCounts_assoc ..)

theorem combineRec_comm {a b : VerdictRec} (hs : a.step = b.step) (hg : a.group = b.group) :
    combineRec a b = combineRec b a := by
  simp only [combineRec, hs, hg, BitVec.or_comm a.verdict, Nat.add_comm a.nsq, Bool.or_comm a.inf, Bool.or_comm a.nan,
    Nat.add_comm a.mcount, Nat.min_comm a.appMin, Nat.max_comm a.appMax, sumCounts_comm a.sent, sumCounts_comm a.recv]

end Sys2Proof.Machine
end

section
/-! Verdicts, timetables and the counts of accepted frames: what a write of one leaves of the others. -/

open Sys2Proof.Claim

namespace Sys2Proof.Machine

section
variable (s : State) (p : Nat)

@[simp] theorem State.rd_setVrd (x : VrdSt) (a : Nat) : (s.setVrd p x).rd a = s.rd a := (rfl)
@[simp] theorem State.rdF_setVrd (x : VrdSt) (a : Nat) (f : Nat × Nat) : (s.setVrd p x).rdF a f = s.rdF a f := (rfl)
@[simp] theorem State.vrdOf_setVrd (x : VrdSt) : (s.setVrd p x).vrdOf p = x := SMap.get_set_same ..
@[simp] theorem State.vrdOf_wrF (a : Nat) (f : Nat × Nat) (x q : Nat) : (s.wrF a f x).vrdOf q = s.vrdOf q := (rfl)
@[simp] theorem State.ttOf_wrF (a : Nat) (f : Nat × Nat) (x q : Nat) : (s.wrF a f x).ttOf q = s.ttOf q := (rfl)
@[simp] theorem State.ttOf_setTt (x : TtSt) : (s.setTt p x).ttOf p = x := SMap.get_set_same ..
@[simp] theorem State.ttOf_setVrd (x : VrdSt) (q : Nat) : (s.setVrd p x).ttOf q = s.ttOf q := (rfl)

end

/-- Nothing but registers, verdicts and timetables differs. -/
def KeepsRest (s t : State) : Prop := ∃ m v x, t = { s with csr := m, vrd := v, tts := x }

theorem KeepsRest.refl (s : State) : KeepsRest s s := ⟨s.csr, s.vrd, s.tts, rfl⟩

section
variable {s t : State} (h : KeepsRest s t)
include h

theorem KeepsRest.writesOnly {u : State} {l : List Nat} (k : WritesOnly t u l) : KeepsRest s u := by
  obtain ⟨m, v, x, rfl⟩ := h
  obtain ⟨⟨m', rfl⟩, -⟩ := k
  exact ⟨m', v, x, rfl⟩

theorem KeepsRest.wrF (a : Nat) (f : Nat × Nat) (n : Nat) : KeepsRest s (t.wrF a f n) := by
  obtain ⟨m, v, x, rfl⟩ := h
  exact ⟨_, v, x, rfl⟩

theorem KeepsRest.setVrd (p : Nat) (y : VrdSt) : KeepsRest s (t.setVrd p y) := by
  obtain ⟨m, v, x, rfl⟩ := h
  exact ⟨m, _, x, rfl⟩

theorem KeepsRest.setTt (p : Nat) (y : TtSt) : KeepsRest s (t.setTt p y) := by
  obtain ⟨m, v, x, rfl⟩ := h
  exact ⟨m, v, _, rfl⟩

theorem KeepsRest.memSame : MemSame s t := by
  obtain ⟨m, v, x, rfl⟩ := h; exact ⟨rfl, rfl, rfl, rfl, rfl, rfl⟩

theorem KeepsRest.ctxSame : CtxSame s t := by
  obtain ⟨m, v, x, rfl⟩ := h; intro c; cases c <;> rfl

theorem KeepsRest.net : t.net = s.net := by
  obtain ⟨m, v, x, rfl⟩ := h; rfl

end

theorem WritesOnly.vrdOf {s t : State} {l : List Nat} (h : WritesOnly s t l) (p : Nat) : t.vrdOf p = s.vrdOf p := by
  obtain ⟨⟨m, rfl⟩, -⟩ := h; rfl

/-! A chain. -/

/-- A chain is among those of its partition once it has been replaced. -/
theorem State.mem_chains_setChain (s : State) (p : Nat) (c : Chain) : c ∈ ((s.setChain p c).ttOf p).chains := by
  simp [State.setChain]

theorem State.chains_setChain_of_none {s : State} {p : Nat} (h : (s.ttOf p).chains = []) (c : Chain) :
    ((s.setChain p c).ttOf p).chains = [c] := by
  simp [State.setChain, h]

@[simp] theorem State.rd_setChain (s : State) (p : Nat) (c : Chain) (a : Nat) : (s.setChain p c).rd a = s.rd a := (rfl)

@[simp] theorem State.vrdOf_setChain (s : State) (p : Nat) (c : Chain) (q : Nat) : (s.setChain p c).vrdOf q = s.vrdOf q := (rfl)

/-! A frame accepted on a sub-port counts there, below the registers of the partitions. -/

theorem State.received_writesOnly (s : State) (u : SubPort) (n : Nat) : WritesOnly s (s.received u n) [rxReg u] :=
  (WritesOnly.refl s _).count n (List.mem_singleton_self _)

theorem State.rd_received_part (s : State) (u : SubPort) (n : Nat) {a : Nat} (ha : 0x38000000 ≤ a) :
    (s.received u n).rd a = s.rd a :=
  s.rd_count_ne n fun e => by
    have := u.h.isLt; have := u.q.isLt; have := u.k.isLt
    rw [e, R.HZN_ETH_RX_CNTqk, hznBase] at ha
    omega

theorem rxReg_ne_peerAddr (u : SubPort) (ent : Nat) (e : EphE) : rxReg u ≠ peerAddr ent e := by
  unfold rxReg peerAddr R.HZN_ETH_RX_CNTqk R.HZN_PEERi_A hznBase
  omega

section
variable (s : State) (u : SubPort) (n p : Nat)

theorem State.vphase_received : (s.received u n).vphase p = s.vphase p := by
  unfold State.vphase State.rdF
  rw [s.rd_received_part u n (by unfold R.PART_VRD_STAT partBase; omega)]

theorem State.vrdEn_received : (s.received u n).vrdEn p = s.vrdEn p := by
  unfold State.vrdEn State.rdF
  rw [s.rd_received_part u n (by unfold R.PART_VRD_CFG partBase; omega)]

theorem State.vgroup_received : (s.received u n).vgroup p = s.vgroup p := by
  unfold State.vgroup State.rdF
  rw [s.rd_received_part u n (by unfold R.PART_VRD_CFG partBase; omega)]

theorem State.vstep_received : (s.received u n).vstep p = s.vstep p := by
  unfold State.vstep State.rdF
  rw [State.vphase_received, s.rd_received_part u n (by unfold R.PART_ZEN_STEP partBase; omega),
    s.rd_received_part u n (by unfold R.PART_VRD_STAT partBase; omega)]

theorem State.mine_received (r : VerdictRec) : (s.received u n).mine p r = s.mine p r := by
  rw [State.mine, State.vstep_received, State.vgroup_received, State.mine]

theorem State.localMembers_received : (s.received u n).localMembers p = s.localMembers p := by
  simp only [State.localMembers, State.vrdEn_received, State.vgroup_received]

end

end Sys2Proof.Machine
end

section
/-! A record that comes in on a chain (R250, R402): it is held, and the chain counts as received. -/

open Sys2Proof.Claim

namespace Sys2Proof.Machine

theorem State.mine_of_eq {s : State} {p : Nat} {r : VerdictRec} (hs : r.step = s.vstep p) (hg : r.group = s.vgroup p) :
    s.mine p r = true := by
  simp [State.mine, hs, hg]

/-- A member with no other of its group on the module holds a record of its open step beside those it has taken. -/
theorem State.recordIn_alone {s : State} {p : Nat} {r : VerdictRec} (at' : Nat) (hv : s.vphase p ≠ 3) (hm : s.mine p r = true)
    (hl : s.localMembers p = []) :
    s.recordIn p at' r = s.setVrd p { s.vrdOf p with recs := (s.vrdOf p).recs ++ [(at', r)] } := by
  have take : s.takeRec p at' r = s.setVrd p { s.vrdOf p with recs := (s.vrdOf p).recs ++ [(at', r)] } :=
    if_neg (by simp [hv, hm])
  have alone : (s.takeRec p at' r).localMembers p = [] := by rw [take]; exact hl
  unfold State.recordIn
  dsimp only
  rw [alone, ← take]
  exact ite_self _

theorem State.chainFor_open {s : State} {p ent : Nat} {c : Chain}
    (h : (s.ttOf p).chains.find? (fun c => c.ent = ent && !c.got && !c.past) = some c) (ho : s.chainOpen p c = true) :
    s.chainFor p ent = some c := by
  unfold State.chainFor
  rw [h]
  exact if_pos ho

/-- The state once partition `p` holds a record from the peer at `a`, which came in on sub-port `u` in chain `c`. -/
def State.chainTaken (s : State) (u : SubPort) (p a : Nat) (c : Chain) (r : VerdictRec) : State :=
  let v := { s.vrdOf p with recs := (s.vrdOf p).recs ++ [(c.at_, r)] }
  ((((s.received u 1).setVrd p v).setChain p { c with got := true }).wrF a F.HZN_PEERi_A_MISS 0).setVrd p
    { v with rounds := v.rounds ++ [c.ent] }

/-- A record of the open step, from the live peer of an open chain, is taken. -/
theorem State.verdictIn_open {s : State} {h : AstpHdr} {ent : Nat} {r : VerdictRec} {c : Chain} {e : EphE}
    (hc : s.chainFor h.part.val ent = some c) (he : s.entryT h.part.val c.tt c.ent = e) (hk : s.clockOk = true) (hi : s.modId ≠ 0)
    (hmod : s.rdF (peerAddr c.ent e) F.HZN_PEERi_A_MODID = h.srcMod.toNat)
    (hst : s.rdF (peerAddr c.ent e) F.HZN_PEERi_A_STATE = peerLive) (hsub : h.sub = e.subPort)
    (hv : s.vphase h.part.val ≠ 3) (hm : s.mine h.part.val r = true) (hl : s.localMembers h.part.val = []) :
    s.verdictIn h ent r = s.chainTaken h.sub h.part.val (peerAddr c.ent e) c r := by
  have held := State.recordIn_alone c.at_ ((s.vphase_received h.sub 1 _).trans_ne hv)
    ((s.mine_received h.sub 1 _ r).trans hm) ((s.localMembers_received h.sub 1 _).trans hl)
  rw [(s.received_writesOnly h.sub 1).vrdOf] at held
  unfold State.verdictIn
  simp only [hc, he, hk, hi, hmod, hst, ← hsub, hm, hv, held]
  simp [State.chainTaken]

section
variable (s : State) (u : SubPort) (p a : Nat) (c : Chain) (r : VerdictRec)

theorem State.chainTaken_miss : (s.chainTaken u p a c r).rdF a F.HZN_PEERi_A_MISS = 0 := by
  rw [State.chainTaken, State.rdF_setVrd, State.rdF_wrF_same _ _ _ _ (by decide) (by decide), Nat.zero_mod]

theorem State.chainTaken_rx (h : rxReg u ≠ a) :
    (s.chainTaken u p a c r).rd (rxReg u) = satAdd64 (s.rd (rxReg u)) 1 := by
  rw [State.chainTaken, State.rd_setVrd, State.rd_wrF_ne _ _ _ h, State.rd_setChain, State.rd_setVrd, State.received, rxReg,
    State.rd_count_same]

theorem State.chainTaken_vrdOf : (s.chainTaken u p a c r).vrdOf p =
    { s.vrdOf p with recs := (s.vrdOf p).recs ++ [(c.at_, r)], rounds := (s.vrdOf p).rounds ++ [c.ent] } :=
  State.vrdOf_setVrd ..

theorem State.chainTaken_chain : { c with got := true } ∈ ((s.chainTaken u p a c r).ttOf p).chains := by
  rw [State.chainTaken, State.ttOf_setVrd, State.ttOf_wrF]
  exact State.mem_chains_setChain ..

theorem State.chainTaken_keepsRest : KeepsRest s (s.chainTaken u p a c r) :=
  ((((KeepsRest.refl s).writesOnly (s.received_writesOnly u 1)).setVrd p _).setTt p _).wrF a _ _ |>.setVrd p _

end

end Sys2Proof.Machine
end

section
/-! The start of a slot of a verdict chain (R249, R409): a sealed member's record joins the queue of the sub-port. -/

open Sys2Proof.Claim

namespace Sys2Proof.Machine

/-- The record that a sealed member sends: its own combined with those taken in the rounds before. -/
theorem VrdSt.result_of_own {v : VrdSt} {o : VerdictRec} (h : v.own = some o) (at' : Nat) :
    v.result at' = some (((v.recs.filter fun q => q.1 < at').map (·.2)).foldl combineRec o) := by
  rw [VrdSt.result, h]; rfl

theorem State.count_zero (s : State) (a : Nat) : s.count a 0 = s := if_pos rfl

theorem State.chainStart_sealed {s : State} {p : Nat} {c : Chain} {e : EphE} {at' : Nat} {o : VerdictRec}
    (hc : c.sent = false) (hk : s.clockOk = true) (hi : s.modId ≠ 0) (hl : s.linkIs e.subPort = true)
    (hb : s.bumped p e at' = false) (ho : (s.vrdOf p).own = some o) :
    s.chainStart p c e at' =
      s.sendVerdict p c e at' ((((s.vrdOf p).recs.filter fun q => q.1 < c.at_).map (·.2)).foldl combineRec o) := by
  have still : s.count (R.PART_EPH_BUMP_CNT p) (bnat false) = s := s.count_zero _
  unfold State.chainStart
  simp only [hc, hk, bne_iff_ne.2 hi, hl, hb, still, ho, VrdSt.result_of_own ho, Bool.and_self, Bool.not_false, if_true,
    Option.getD_some, Bool.false_eq_true, if_false]

/-- A primary slot starts a chain of its own where the partition has none. -/
theorem State.vxchStart_first {s : State} {p ent : Nat} {e : EphE} (at' : Nat) (hk : e.kind = 0)
    (hp : s.rdF (peerAddr ent e) F.HZN_PEERi_A_STATE ≠ peerLostSt) (hc : (s.ttOf p).chains = []) (hl : s.lone p = false) :
    s.vxchStart p ent e at' = s.chainStart p ⟨ent, s.ttActive p, at', ent, false, false, false⟩ e at' := by
  unfold State.vxchStart
  simp [hk, hp, hc, hl, State.each]

theorem exec_ephSlotStart_vxch {h : Fin 4} {i : Fin 16384} {s : State} {p ent : Nat} (hn : SlotNow s h i p ent)
    (ha : (s.eph h.val i.val).action = actVxch) :
    exec (.ephSlotStart h i) s = .next (s.vxchStart p ent (s.eph h.val i.val) (s.entStart p ent)) := by
  obtain ⟨due, notOver⟩ := hn
  change execEphSlotStart h i s = _
  simp [execEphSlotStart, due, ha, Nat.not_le.2 notOver]

end Sys2Proof.Machine
end

section
/-! The combination of verdict records as the spec states it (R245, R249, R250, R255, R402). -/

open Sys2Proof.Machine

namespace Sys2Proof.Claim

/-- A frame on a sub-port with link up is performed once the module is ready. -/
theorem peerFrame_of_heard {s : State} {u : SubPort} (h : Heard s u) (t : State) : s.peerFrame u t = t := by
  obtain ⟨link, ready⟩ := h
  simp [State.peerFrame, link, ready]

/-- Settles O13: the saturated sums make combination associative and commutative; an accepted record on an open chain leads to
`State.chainTaken`, and the slot of a sealed member with no chain leads to `State.sendVerdict`. -/
theorem recordCombination : Obligations.RecordCombination := by
  refine ⟨?fields, combineRec_assoc, fun a b => combineRec_comm, ?taken, ?queued⟩
  case fields =>
    intro a b m
    rw [← show nsqTop = 2 ^ 640 by rw [nsqTop]]
    refine ⟨rfl, rfl, rfl, fun below => ⟨?_, ?_⟩, fun top => ⟨?_, ?_⟩, rfl, rfl, rfl, rfl, length_sumCounts ..,
      length_sumCounts .., fun i hi => ⟨getD_sumCounts _ _ hi, getD_sumCounts _ _ hi⟩⟩
    · rw [combineRec_nsq, capNsq, if_neg (Nat.not_le.2 below)]
    · rw [combineRec_inf, decide_eq_false (Nat.not_le.2 below), Bool.or_false]
    · rw [combineRec_nsq, capNsq, if_pos top]
    · rw [combineRec_inf, decide_eq_true top, Bool.or_true]
  case taken =>
    intro h ent r s c p e a heard found isOpen clock modId peerMod peerSt sub phase step group alone
    have effect := State.verdictIn_open (State.chainFor_open found isOpen) rfl clock modId peerMod peerSt sub phase
      (State.mine_of_eq step group) alone
    have rest := s.chainTaken_keepsRest h.sub p a c r
    refine ⟨s.chainTaken h.sub p a c r, ?_, s.chainTaken_miss .., s.chainTaken_rx _ _ _ _ _ (rxReg_ne_peerAddr _ _ _),
      s.chainTaken_vrdOf .., s.chainTaken_chain .., rest.memSame, rest.ctxSame, rest.net⟩
    change Host.Outcome.next (s.peerFrame h.sub (s.verdictIn h ent.val r)) = _
    rw [peerFrame_of_heard heard, effect]
  case queued =>
    intro h i s p ent o e at' now action kind peer chains lone clock modId link bump own
    refine ⟨_, (exec_ephSlotStart_vxch now action).trans (congrArg _ ((State.vxchStart_first at' kind peer chains lone).trans
      (State.chainStart_sealed rfl clock modId link bump own))), rfl, State.chains_setChain_of_none chains _,
      ⟨rfl, rfl, rfl, rfl, rfl, rfl⟩, fun k => by cases k <;> rfl⟩

end Sys2Proof.Claim
end

section
/-! An instruction whose predicate is false (R265): every instruction goes through the checks of an issue, which retire it. -/

open Sys2Proof.Claim

namespace Sys2Proof.Machine

theorem RegFile.getP_seven (r : RegFile) : r.getP 7 = true := by simp [RegFile.getP]

theorem State.heldOther_eq_false {s : State} {c : Ctx} {i : Instr} (h : HoldsNoOther s c i) : s.heldOther c i = false := by
  unfold State.heldOther
  split
  · rfl
  · next j hj => simp [h j hj]

theorem State.issue_of_pred_false {s : State} {c : Ctx} {p : Pred} {i : Instr} (ok : Bool) (ss ps : List Nat) (body : State)
    (run : s.running c = true) (hold : HoldsNoOther s c i) (ready : p.psel.val ∉ (s.ctx c).pendP)
    (off : predTrue (s.ctx c).regs p = false) : s.issue c p i ok ss ps body = s.predOff c := by
  simp [State.issue, run, State.heldOther_eq_false hold, ready, off]

/-- Each instruction command is an issue of its own instruction under its own predicate, whatever its unit then does. -/
theorem exec_of_isInsn {c : Ctx} {p : Pred} {i : Instr} (h : IsInsn c p i) (s : State) :
    ∃ ok ss ps body, exec i s = .next (s.issue c p i ok ss ps body) := by
  cases h with
  | s x h _ _ f => fin_cases h <;> exact ⟨_, _, _, _, rfl⟩
  | m x h _ _ f => fin_cases h <;> exact ⟨_, _, _, _, rfl⟩
  | a x h _ _ f => fin_cases h <;> exact ⟨_, _, _, _, rfl⟩
  | v x h _ _ f => fin_cases h <;> exact ⟨_, _, _, _, rfl⟩
  | k x h _ _ f => fin_cases h <;> exact ⟨_, _, _, _, rfl⟩

/-- So each instruction whose predicate is false comes to `State.predOff`. -/
theorem exec_of_pred_false {s : State} {c : Ctx} {p : Pred} {i : Instr} (insn : IsInsn c p i) (run : s.running c = true)
    (hold : HoldsNoOther s c i) (ready : p.psel.val ∉ (s.ctx c).pendP) (off : predTrue (s.ctx c).regs p = false) :
    exec i s = .next (s.predOff c) := by
  obtain ⟨ok, ss, ps, body, issued⟩ := exec_of_isInsn insn s
  rw [issued, State.issue_of_pred_false ok ss ps body run hold ready off]

/-! What `State.predOff` does to a cell and to a Zenith unit. -/

theorem seqPred_ne_issue (k : CellId) : R.CELL_SEQ_PRED_CNT k ≠ R.CELL_SEQ_ISSUE_CNT k := by
  unfold R.CELL_SEQ_PRED_CNT R.CELL_SEQ_ISSUE_CNT; omega

theorem seqPred_ne_stat (k : CellId) : R.CELL_SEQ_PRED_CNT k ≠ R.CELL_SEQ_STAT k := by
  unfold R.CELL_SEQ_PRED_CNT R.CELL_SEQ_STAT; omega

theorem State.predOff_onlyRegs (s : State) (c : Ctx) : OnlyRegs s (s.predOff c) := by
  simp [OnlyRegs, MemSame, StepSame, FabricSame, ServiceSame]

theorem State.predOff_cell (s : State) (k : CellId) :
    s.predOff (.cell k) = (s.count (R.CELL_SEQ_PRED_CNT k) 1).issuedAt (.cell k) (s.pc (.cell k) + 16) := by
  simp only [State.predOff, State.pc, State.rdF_count_ne _ _ _ (seqPred_ne_stat k).symm]

theorem State.predOff_zen (s : State) (d : Fin 16) (p : Fin 64) :
    s.predOff (.zen d p) = (s.setPc (.zen d p) (s.pc (.zen d p) + 16)).unhold (.zen d p) := by
  simp only [State.predOff, State.issuedAt_zen]

theorem State.ctx_predOff_zen (s : State) (d : Fin 16) (p : Fin 64) : (s.predOff (.zen d p)).ctx (.zen d p) =
    { s.ctx (.zen d p) with held := none, zpc := (s.pc (.zen d p) + 16) % 2 ^ 48 } := by
  rw [State.predOff_zen, State.ctx_unhold, State.ctx_setPc_zen]

theorem State.rd_predOff_zen (s : State) (d : Fin 16) (p : Fin 64) (a : Nat) : (s.predOff (.zen d p)).rd a = s.rd a := by
  rw [State.predOff_zen, State.rd_unhold, State.rd_setPc_zen]

end Sys2Proof.Machine
end

section
/-! An instruction whose predicate is false as the spec states it (R265). -/

open Sys2Proof.Machine

namespace Sys2Proof.Claim

/-- Settles O2: every instruction goes through `State.issue`, which answers `State.predOff` where the predicate is false; what
that does follows from the laws of `State.issuedAt` on a cell, and of the PC of the context on a Zenith unit. -/
theorem falsePredicateRetires : Obligations.FalsePredicateRetires := by
  refine ⟨RegFile.getP_seven, fun c p i s insn run hold ready off => ⟨s.predOff c, exec_of_pred_false insn run hold ready off, ?_⟩⟩
  have frame := s.predOff_onlyRegs c
  cases c with
  | cell k =>
    rw [State.predOff_cell] at frame ⊢
    obtain ⟨pc, issues, state, rest, own, others⟩ :=
      (s.count (R.CELL_SEQ_PRED_CNT k) 1).issuedAt_cell k (s.pc (.cell k) + 16)
    refine ⟨pc, fun d hd => ?others, frame, ?issues, ?preds, ?state, ?own, fun a ha => ?rest⟩
    case others => rw [others d hd, State.ctx_count]
    case issues => rw [issues, State.rd_count_ne _ _ (seqPred_ne_issue k).symm]
    case preds => rw [rest _ (seqPred_ne_stat k) (seqPred_ne_issue k), State.rd_count_same]
    case state => rw [state, State.runState, State.rdF_count_ne _ _ _ (seqPred_ne_stat k).symm, State.runState]
    case own => rw [own, State.ctx_count]
    case rest =>
      simp only [List.mem_cons, List.not_mem_nil, or_false, not_or] at ha
      obtain ⟨notStat, notIssue, notPred⟩ := ha
      rw [rest a notStat notIssue, State.rd_count_ne _ _ notPred]
  | zen d q =>
    have own := s.ctx_predOff_zen d q
    refine ⟨congrArg CellCtx.zpc own, fun e he => ?_, frame, own, fun a _ => s.rd_predOff_zen d q a⟩
    rw [State.predOff_zen, State.ctx_unhold_ne _ he, State.ctx_setPc_ne _ _ he]

end Sys2Proof.Claim
end
